-- ==== Sys2Proof/Word.lean ====
section
/-! DEFINITION. The word types of the Fyrudex M4 (R8: bit 0 is the least significant bit; structures are little-endian).
Bytes and words are bit vectors; counts, offsets, cycle numbers and unit indices are natural numbers. -/

namespace Sys2Proof

/-- One byte of memory, of a packet or of a record. -/
abbrev Byte := BitVec 8

/-- A 32-bit register value, accumulator or FP32 encoding. -/
abbrev W32 := BitVec 32

/-- A 64-bit register value, key or pattern. Every register is held in one; a 32-bit register uses the low half. -/
abbrev W64 := BitVec 64

end Sys2Proof
end

