-- ==== Sys2Proof/Syntax.lean ====
section
/-! DEFINITION. The commands of the block: `Instr` has one constructor per row of spec/opcode_table.json, with the
operands the spec's chapters give that step. The operands are what comes from outside the block (a packet, a record,
a slot-table entry, a register value, the outcome of a physical process such as training or self-test, and the cycle or
hall time at which the step happens); everything else is read from the state. -/

namespace Sys2Proof

/-- A source or target of remote operations: node number of the pod and partition (R304, R341). -/
structure Peer where
  node : Nat
  part : Fin 16
  deriving DecidableEq, Repr

/-- Where and when a command record issues: logical cell, stream, cycle of the frame (R102). -/
structure RecAt where
  cell   : Fin 256
  stream : Fin 8
  cycle  : Nat
  deriving DecidableEq, Repr

/-- Word 0 of a command record without its opcode (Table 04-1). -/
structure RecHdr where
  sig       : Bool
  wait      : Bool
  sigTag    : Fin 32
  waitTag   : Fin 32
  waitCount : Nat
  recordId  : Nat
  deriving DecidableEq, Repr

/-- LOAD and STORE operands (Table 04-5). -/
structure XferOps where
  cellBase : Nat
  length   : Nat
  slot     : Fin 16
  offset   : Nat
  deriving DecidableEq, Repr

/-- FILL operands (Table 04-5). -/
structure FillOps where
  cellBase : Nat
  length   : Nat
  pattern  : W64
  deriving DecidableEq, Repr

/-- PASS operands (Table 04-6). -/
structure PassOps where
  u           : Nat
  clear       : Bool
  bank        : Fin 2
  bcast       : Bool
  liveEn      : Bool
  aFmt        : Fin 16
  bFmt        : Fin 16
  group       : Fin 4
  aBase       : Nat
  bBase       : Nat
  bOffset     : Nat
  bSlot       : Fin 16
  liveAddr    : Nat
  subscribers : BitVec 8
  aScaleBase  : Nat
  bScaleBase  : Nat
  sparseMode  : Fin 4
  metaBase    : Nat
  sparseParam : BitVec 16
  deriving DecidableEq, Repr

/-- PASS_SPLIT operands (Tables 04-6 and 04-7): A_BASE is the base of the quarter table. -/
structure SplitOps where
  u         : Nat
  clear     : Bool
  bank      : Fin 2
  aFmt      : Fin 16
  bFmt      : Fin 16
  group     : Fin 4
  tableBase : Nat
  deriving DecidableEq, Repr

/-- DRAIN operands (Table 04-8). -/
structure DrainOps where
  bank       : Fin 2
  toComb     : Bool
  raw        : Bool
  outFmt     : Fin 16
  calCfg     : Fin 16
  stoch      : Bool
  destBase   : Nat
  destSlot   : Fin 16
  destOffset : Nat
  tensorKey  : W64
  deriving DecidableEq, Repr

/-- VECTOR operands (Table 04-9). -/
structure VecOps where
  bf16   : Bool
  n      : Nat
  src0   : Nat
  src1   : Nat
  src2   : Nat
  dst    : Nat
  scalar : W32
  deriving DecidableEq, Repr

/-- SEND operands (Table 04-10). -/
structure SendOps where
  src        : Nat
  length     : Nat
  target     : Nat
  targetTag  : Fin 32
  targetBase : Nat
  deriving DecidableEq, Repr

/-- RLOAD and RSTORE operands (Table 04-10). -/
structure RemOps where
  localBase    : Nat
  length       : Nat
  remoteOffset : Nat
  node         : Nat
  deriving DecidableEq, Repr

/-- RATOMIC operands, the operation itself being the constructor (Table 04-10). -/
structure AtomOps where
  wide         : Bool
  result       : Nat
  remoteOffset : Nat
  node         : Nat
  operand      : W64
  compare      : W64
  deriving DecidableEq, Repr

/-- RTRIG operands (Table 04-10); `arg` is the 32-byte argument. REMOTE_OFFSET names nothing at the target and is 32 B aligned. -/
structure TrigOps where
  trigId       : Nat
  targetCell   : Fin 256
  remoteOffset : Nat
  node         : Nat
  arg        : List Byte
  deriving DecidableEq, Repr

/-- ALLOC operands (Table 04-10). -/
structure AllocOps where
  slot   : Fin 16
  cls    : Nat
  tier   : Fin 4
  object : Nat
  deriving DecidableEq, Repr

/-- The seven atomic operations (Table 13-5). -/
inductive AtomOp where
  | add | min | max | swap | cas | and | or
  deriving DecidableEq, Repr

/-- A request as it arrives at its target (R337, R338): source, frame, partition, device offset, request identity. -/
structure RemReq where
  src      : Peer
  frame    : Nat
  destPart : Fin 16
  addr     : Nat
  reqId    : BitVec 16
  deriving DecidableEq, Repr

/-- The common fields of a Swarm entry (Table 08-3), less KIND and INSTANCE. -/
structure SwmCommon where
  delivery   : Fin 3
  readyEn    : Bool
  notifyEn   : Bool
  indexed    : Bool
  slice      : Nat
  startCycle : Nat
  window     : Nat
  bufA       : Nat
  bufB       : Nat
  offsetA    : Nat
  offsetB    : Nat
  readySlot  : Nat
  readyTag   : Fin 32
  readyCount : Nat
  notifySlot : Nat
  notifyTag  : Fin 32
  tag        : Nat
  peer       : Peer
  deriving DecidableEq, Repr

/-- SCORE_FEED fields (Table 08-4). -/
structure ScoreFeedOps where
  rowBytes : Nat
  eFirst : Nat
  eCount : Nat
  tokenFirst : Nat
  tokens : Nat
  tSrc : Nat
  self : Nat
  jobId : Nat
  scoreFmt : Fin 16
  wglInstance : Fin 2
  liveOffset : Nat
  deriving DecidableEq, Repr

/-- BITMAP_FEED fields (Table 08-4). -/
structure BitmapFeedOps where
  bits : Nat
  tokenBase : Nat
  jobId : Nat
  bkind : Fin 3
  wglInstance : Fin 2
  home : Nat
  deriving DecidableEq, Repr

/-- ROUTE_RETURN fields (Table 08-4). -/
structure RouteReturnOps where
  eFirst : Nat
  eCount : Nat
  cap : Nat
  sources : Nat
  srcNo : Nat
  runMax : Nat
  viewEFirst : Nat
  deriving DecidableEq, Repr

/-- DISPATCH and RETURN fields (Table 08-4); `cap` and `sources` are used by RETURN only. -/
structure MoveOps where
  rowBytes : Nat
  eFirst : Nat
  eCount : Nat
  slotFirst : Nat
  slotCount : Nat
  runMax : Nat
  tSrc : Nat
  self : Nat
  viewEFirst : Nat
  cap : Nat
  sources : Nat
  deriving DecidableEq, Repr

/-- COMBINE fields (Table 08-4). `self` and `tSrc` are the owner's source number and tokens per source of R218. -/
structure CombineOps where
  viewRef : Nat
  resRef : Nat
  param : Nat
  tokenFirst : Nat
  tokenCount : Nat
  hidden : Nat
  viewEFirst : Nat
  viewECount : Nat
  kMax : Nat
  runMax : Nat
  retFmt : Fin 16
  resFmt : Fin 16
  resid : Bool
  gateMode : Fin 4
  stoch : Bool
  self : Nat
  tSrc : Nat
  deriving DecidableEq, Repr

/-- LAND fields (Table 08-4). -/
structure LandOps where
  rowBytes : Nat
  rows : Nat
  expect : Fin 4
  slotFirst : Nat
  slotCount : Nat
  eFirst : Nat
  eCount : Nat
  runMax : Nat
  self : Nat
  deriving DecidableEq, Repr

/-- LIVE_TABLE fields (Table 08-4). -/
structure LiveTableOps where
  eCount : Nat
  cap : Nat
  sources : Nat
  deriving DecidableEq, Repr

/-- COL_SEND and COL_FOLD fields (Table 14-5). -/
structure ColOps where
  delivery : Fin 3
  readyEn : Bool
  notifyEn : Bool
  stoch : Bool
  slice : Nat
  startCycle : Nat
  window : Nat
  bufA : Nat
  bufB : Nat
  offsetA : Nat
  offsetB : Nat
  readySlot : Nat
  readyTag : Fin 32
  readyCount : Nat
  notifySlot : Nat
  notifyTag : Fin 32
  localId : Nat
  op : Fin 5
  phase : Fin 15
  redop : Fin 3
  inFmt : Fin 16
  outFmt : Fin 16
  count : Nat
  wire : Fin 4
  stageComb : Nat
  param : Nat
  stageOffset : Nat
  stageBytes : Nat
  countsRef : Nat
  countsOffset : Nat
  deriving DecidableEq, Repr

/-- A Waggle job entry (Table 07-2), less KIND and INSTANCE. -/
structure WglJob where
  scoreFmt : Fin 16
  floorEn : Bool
  notifyEn : Bool
  indexed : Bool
  slice : Nat
  startCycle : Nat
  jobId : Nat
  eFirst : Nat
  eCount : Nat
  capacity : Nat
  n : Nat
  tSrc : Nat
  sources : Nat
  self : Nat
  floor : W32
  inBlocks : Nat
  outRef : Nat
  outOffset : Nat
  notifySlot : Nat
  notifyTag : Fin 32
  homes : Nat
  outJobId : Nat
  deriving DecidableEq, Repr

/-- A Forager entry (Table 10-4), less KIND and INSTANCE. -/
structure FgrEntry where
  convert : Fin 5
  readyEn : Bool
  notifyEn : Bool
  slice : Nat
  startCycle : Nat
  rate : Nat
  srcRef : Nat
  dstRef : Nat
  auxRef : Nat
  base : Nat
  srcOffset : Nat
  dstOffset : Nat
  length : Nat
  auxOffset : Nat
  readySlot : Nat
  readyTag : Fin 32
  readyCount : Nat
  notifySlot : Nat
  notifyTag : Fin 32
  count : Nat
  rowBytes : Nat
  deriving DecidableEq, Repr

/-- A landing packet (R201, R213, R371): source, frame, tensor tag, block index and payload part.
`staged` says how the sender's entry delivers: in frame or staged (R221, R365); `cycle` is the cycle of its arrival. -/
structure LandPkt where
  src : Peer
  pod : Nat
  frame : Nat
  tag : Nat
  block : Nat
  pairCount : Nat
  staged : Bool
  cycle : Nat
  payload : List Byte
  deriving DecidableEq, Repr

/-- The vote of a group member (Table 08-5). -/
structure Vote where
  group : Nat
  frame : Nat
  member : Fin 16
  commit : Bool
  prev : Bool
  slice : Nat
  deriving DecidableEq, Repr

/-- Why a link packet is sent again (R324, R403, R487). -/
inductive RetryWhy where
  /-- The codeword had more than 15 symbol errors. -/
  | uncorrectable
  /-- The link check or the CRC failed. -/
  | checkFail
  /-- The GCM tag or the packet counter failed. -/
  | tagFail
  /-- The codeword was corrected: no retry, the symbols are counted. -/
  | corrected (lane : Fin 8) (symbols : Nat)
  deriving DecidableEq, Repr

/-- Bytes that reach the device, with the cycle in which they do (R278, R414). -/
structure BytesAt where
  cycle : Nat
  data  : List Byte
  deriving DecidableEq, Repr

/-- The cycle in which a ream build starts, and the entries whose copies have gone bad since the block last read them (R230, R239). -/
structure ReamAt where
  cycle : Nat
  bad   : List (Fin 8192 × Bool × Bool)
  deriving DecidableEq, Repr

/-- A CXL device behind a port: the raw sizes of its volatile and persistent capacities in bytes, the 99.9th percentile of the
qualifying reads of each in cycles, whether it is a CXL 2.0 device, and the lanes and the rate in GT/s at which its link trained
(R254 to R256, R428). -/
structure CxlDevice where
  port : Nat
  rawC : Nat
  rawF : Nat
  latC : Nat
  latF : Nat
  cxl2 : Bool
  lanes : Nat
  rate : Nat
  deriving DecidableEq, Repr

/-- What a port sees in the window of Table 17-4: the corrected symbols of each lane, and whether a codeword was uncorrectable or had
more than 8 symbol errors (R427). -/
structure Qual where
  symbols : List Nat
  bad : Bool
  deriving DecidableEq, Repr

/-- What the physical processes of a bring-up find (Tables 17-1 and 17-2), and what the tier manager lays out (R287, R343). On the
warm path a stack or port named once fails with its journalled values, and one named twice fails its fallback too (R424)
(log entry 51, DEDUCED). -/
structure BringFacts where
  fuseReadOk   : Bool
  journalBad   : List Nat           -- SEQs of committed records that fail in both copies
  complexOk    : List Bool
  cellFails    : List (Nat × Nat)   -- physical cell, test code
  combFails    : List (Nat × Nat)   -- physical comb, test code
  blockFails   : List (Nat × Nat)   -- unit path of a Waggle, Swarm, Forager, Vat or brood block, test code
  stackFails   : List Nat
  bolFails     : List Nat
  hxvFails     : List Nat
  cxlFails     : List Nat
  ethFails     : List Nat
  bolQuals     : List (Fin 32 × Bool × Qual)    -- Bollum port, Virier partner, its window; a second one is that of a fallback
  ethQuals     : List (Fin 4 × Qual)
  place        : W32
  parentAlive  : Bool               -- a broadcast parent is reachable
  pools        : List (Nat × Nat × Nat × Nat)   -- pool, port, BASE, COUNT
  stageRegion  : Nat                -- size of the remote staging region
  areas        : List (Nat × Nat)   -- Tier H kept outside the pools: descriptor tables, images, repair areas, remote staging
  cxlCaps      : List CxlDevice     -- what each port's device is
  deriving DecidableEq, Repr

/-- What the tier manager and the health agent do of their own accord, for which the opcode table has no row: a patrol pass carries it
(10 R265, R281, R282; 11 R292, R294) (log entry 119, DESIGN CHOICE). -/
inductive TierAct where
  /-- A preload range opens over buffers of a Tier C or F pool, for a context. -/
  | openPreload (pool : Fin 16) (first count : Nat) (c : Fin 256)
  /-- The preload range that begins at a buffer closes at the context's next tick. -/
  | closePreload (pool : Fin 16) (first : Nat)
  /-- A FREE buffer is kept out of service. -/
  | withhold (pool : Fin 16) (index : Nat)
  /-- A WITHHELD buffer is returned, its listed lines rewritten. -/
  | giveBack (pool : Fin 16) (index : Nat)
  /-- Two byte lanes of a channel pair of a stack have failed. -/
  | lanesFailed (stack : Fin 8)
  /-- The share of a retiring stack's lines that has been copied, in percent. -/
  | copied (stack : Fin 8) (percent : Fin 101)
  deriving DecidableEq, Repr

/-- One patrol pass as the controller found it (R250): lines whose codewords have wrong bytes, each with the position of a byte in
the codeword and what is added to it, and the on-die corrections of each die; and what the tier manager and the health agent do after it
(log entry 119, DESIGN CHOICE). -/
structure PatrolFacts where
  wrong     : List (Nat × List (Fin 72 × Byte))
  dieCounts : List Nat
  acts      : List TierAct
  deriving DecidableEq, Repr

/-- A node entry of a broadcast descriptor (R429). -/
structure BcastNode where
  node : Nat
  parent : Nat
  alt : Nat
  root : Bool
  noAlt : Bool
  reserved : Bool
  deriving DecidableEq, Repr

/-- A broadcast descriptor (Table 17-5) with its node entries. -/
structure BcastDesc where
  magic : W32
  bcastId : Nat
  kind : Fin 2
  context : Fin 256
  imageSize : Nat
  chunkCount : Nat
  manifestChunks : Nat
  nodes : List BcastNode
  deriving DecidableEq, Repr

/-- The manifest header of an image (Table 19-4), read from its first chunk. -/
structure Manifest where
  magic : W32
  kind : Fin 2
  keyIndex : Nat
  svn : Nat
  fwNumeric : Nat
  timing : Nat
  dataChunks : Nat
  imageSize : Nat
  digests : List (BitVec 256)
  signature : List Byte
  deriving DecidableEq, Repr

/-- What a partner sends in step 1 of Table 19-7. -/
structure Hello where
  place : W32
  nonce : BitVec 256
  idCert : List Byte
  aliasCert : List Byte
  kemKey : List Byte
  deriving DecidableEq, Repr

/-- A 32-byte window entry as SET_WINDOW writes it (Table 13-2). -/
structure WindowEntry where
  base : Nat
  length : Nat
  owner : Fin 16
  replica : Bool
  load : Bool
  store : Bool
  atomic : Bool
  srcLo : Nat
  srcHi : Nat
  srcParts : BitVec 16
  recvObject : Nat
  reserved : Bool
  deriving DecidableEq, Repr

/-- A trigger entry (R347). -/
structure TriggerEntry where
  targetPart : Fin 16
  targetCell : Fin 256
  idLo : Nat
  idHi : Nat
  srcLo : Nat
  srcHi : Nat
  srcParts : BitVec 16
  reserved : Bool
  deriving DecidableEq, Repr

/-- A grant (Table 19-8). -/
structure GrantEntry where
  requester : BitVec 16
  reqMask : BitVec 16
  pathLo : Nat
  pathHi : Nat
  read : Bool
  write : Bool
  test : Bool
  admin : Bool
  reserved : Bool
  deriving DecidableEq, Repr

/-- A host data window (Table 19-8). -/
structure HostWindow where
  base : Nat
  length : Nat
  port0 : Bool
  port1 : Bool
  read : Bool
  write : Bool
  reserved : Bool
  deriving DecidableEq, Repr

/-- Which X, Y, Z or Ethernet port, for the retry timer of R325 and R404. -/
inductive LinkPort where
  | bol (p : Fin 32)
  | hxv (p : Fin 2)
  | eth (p : Fin 4)
  deriving DecidableEq, Repr

/-- Why the fabric manager agent queries a node (R348). -/
inductive QueryWhy where
  | overruns | markerLate | votesMissing | collective | fenceTimeout | splitVote
  deriving DecidableEq, Repr

/-- What a MANAGE query asks of this device (R31, R322, R348). -/
inductive QueryAsk where
  | alive
  | marker (dest : Peer) (frame : Nat)
  | packetsSent (dest : Nat) (part : Fin 16) (frame : Nat)
  deriving DecidableEq, Repr

/-- What the answer to a query says (R223, R322, R348). -/
inductive QueryReport where
  | alive
  | controllerReady
  | packetsSent (part : Fin 16) (frame : Nat) (count : Nat)
  deriving DecidableEq, Repr

/-- What a Hexvan port's training finds (Table 16-2). -/
structure TrainFacts where
  signal : Bool
  eqOk : Bool
  bothGen2 : Bool
  qual : Qual                       -- step 4, at the chosen rate
  partnerSeq : Nat
  authOk : Bool
  deriving DecidableEq, Repr

/-- The propolis and register requester of R63, 16 bits. -/
abbrev Requester := BitVec 16

/-- The commands of the block, one constructor per row of the opcode table. What a physical process finds is an operand of the
command that reports it (log entry 15, DESIGN CHOICE). -/
inductive Instr where
  -- frame engine
  | completionCut (p : Fin 16)
  | tick (p : Fin 16)
  | gridPoint
  | markerReceive (p : Fin 16) (src : Peer) (frame : Nat) (commit : Bool)
  | markerLate (p : Fin 16) (src : Peer) (frame : Nat)
  | killRequest (p : Fin 16) (value : W32)
  -- cell records
  | cellNop (a : RecAt) (h : RecHdr)
  | endRec (a : RecAt) (h : RecHdr)
  | waitRec (a : RecAt) (h : RecHdr)
  | fence (a : RecAt) (h : RecHdr)
  | load (a : RecAt) (h : RecHdr) (x : XferOps)
  | store (a : RecAt) (h : RecHdr) (x : XferOps)
  | fill (a : RecAt) (h : RecHdr) (x : FillOps)
  | pass (a : RecAt) (h : RecHdr) (x : PassOps)
  | passSplit (a : RecAt) (h : RecHdr) (x : SplitOps)
  | broadcastPassStart (k : Fin 32) (cycle : Nat)
  | drain (a : RecAt) (h : RecHdr) (x : DrainOps)
  | vectorCopy (a : RecAt) (h : RecHdr) (x : VecOps)
  | vectorAdd (a : RecAt) (h : RecHdr) (x : VecOps)
  | vectorSub (a : RecAt) (h : RecHdr) (x : VecOps)
  | vectorMul (a : RecAt) (h : RecHdr) (x : VecOps)
  | vectorFma (a : RecAt) (h : RecHdr) (x : VecOps)
  | vectorMax (a : RecAt) (h : RecHdr) (x : VecOps)
  | vectorMin (a : RecAt) (h : RecHdr) (x : VecOps)
  | vectorScale (a : RecAt) (h : RecHdr) (x : VecOps)
  | vectorExp (a : RecAt) (h : RecHdr) (x : VecOps)
  | vectorRecip (a : RecAt) (h : RecHdr) (x : VecOps)
  | vectorRsqrt (a : RecAt) (h : RecHdr) (x : VecOps)
  | vectorSum (a : RecAt) (h : RecHdr) (x : VecOps)
  | vectorAmax (a : RecAt) (h : RecHdr) (x : VecOps)
  | send (a : RecAt) (h : RecHdr) (x : SendOps)
  | rload (a : RecAt) (h : RecHdr) (x : RemOps)
  | rstore (a : RecAt) (h : RecHdr) (x : RemOps)
  | ratomicAdd (a : RecAt) (h : RecHdr) (x : AtomOps)
  | ratomicMin (a : RecAt) (h : RecHdr) (x : AtomOps)
  | ratomicMax (a : RecAt) (h : RecHdr) (x : AtomOps)
  | ratomicSwap (a : RecAt) (h : RecHdr) (x : AtomOps)
  | ratomicCas (a : RecAt) (h : RecHdr) (x : AtomOps)
  | ratomicAnd (a : RecAt) (h : RecHdr) (x : AtomOps)
  | ratomicOr (a : RecAt) (h : RecHdr) (x : AtomOps)
  | rtrig (a : RecAt) (h : RecHdr) (x : TrigOps)
  | alloc (a : RecAt) (h : RecHdr) (x : AllocOps)
  | waitingRequestServed (i : Fin 2) (cycle : Nat)
  | recordComplete (c : Fin 256) (id : Nat) (cycle : Nat)
  | sendArrival (c : Fin 256) (id : Nat) (cycle : Nat) (target : Fin 256)
  | remoteReply (c : Fin 256) (op : Fin 16) (frame : Nat) (data : List Byte) (cycle : Nat)
  | remoteRefuse (c : Fin 256) (op : Fin 16) (frame : Nat) (code : Fin 16)
  -- remote operations at the target
  | rloadRequest (r : RemReq) (sectors : Nat)
  | rstoreRequest (r : RemReq) (pairCount : Nat) (data : List Byte)
  | ratomicRequest (r : RemReq) (pairCount : Nat) (op : AtomOp) (wide : Bool) (operand compare : W64)
  | rtrigArrival (r : RemReq) (cell : Fin 256) (trigId : Nat) (arg : List Byte) (cycle : Nat)
  | heldRequestRelease (p : Fin 16)
  -- the fabric
  | packetRoute (id : Nat) (busy : W32)
  | escapeForward (id : Nat) (port : Fin 32)
  | packetArrival (port : Fin 32) (raw : List Byte)
  | fenceRelease (id : Nat)
  | fenceTimeout (id : Nat)
  | saturationCheck (p : Fin 16)
  | linkRetry (port : Fin 32) (why : RetryWhy) (refusals : Nat) (time : Nat)
  | linkRetrain (port : Fin 32) (lanes : Fin 5)
  | bollumLinkUp (port : Fin 32) (partner : W32) (rev1 : Bool)
  | portRetryTimer (port : LinkPort)
  | ethDatagramReceive (port : Fin 4) (checksumOk : Bool) (addressed : Bool) (raw : List Byte)
  | beaconExchange (port : Fin 32) (t1 t2 t3 t4 : Int) (asym : Int) (partnerLocked : Bool)
  | nodeQuery (p : Fin 16) (node : Nat) (why : QueryWhy)
  | queryTimeout (node : Nat) (controllerReady : Bool)
  | teardownRequest (p : Fin 16) (node : Nat)
  -- the Swarm engines
  | scoreFeed (i : Fin 2) (cycle : Nat) (c : SwmCommon) (x : ScoreFeedOps)
  | bitmapFeed (i : Fin 2) (cycle : Nat) (c : SwmCommon) (x : BitmapFeedOps)
  | routeReturn (i : Fin 2) (cycle : Nat) (c : SwmCommon) (x : RouteReturnOps)
  | dispatch (i : Fin 2) (cycle : Nat) (c : SwmCommon) (x : MoveOps)
  | returnRows (i : Fin 2) (cycle : Nat) (c : SwmCommon) (x : MoveOps)
  | combine (i : Fin 2) (cycle : Nat) (c : SwmCommon) (x : CombineOps)
  | land (i : Fin 2) (cycle : Nat) (c : SwmCommon) (x : LandOps)
  | liveTable (i : Fin 2) (cycle : Nat) (c : SwmCommon) (x : LiveTableOps)
  | colSend (i : Fin 2) (cycle : Nat) (x : ColOps)
  | colFold (i : Fin 2) (cycle : Nat) (x : ColOps)
  | swarmEntryComplete (i : Fin 2) (id : Nat) (cycle : Nat)
  | landPacketArrival (i : Fin 2) (k : LandPkt)
  | landComplete (i : Fin 2) (id : Nat) (cycle : Nat)
  | voteArrival (p : Fin 16) (v : Vote)
  | groupOutcome (p : Fin 16)
  | trailerArrival (i : Fin 2) (src : Peer) (pod : Nat) (groupId : Nat) (frame : Nat) (commit : Bool) (count : Nat)
  | resendRequest (i : Fin 2) (src : Peer) (pod : Nat) (groupId : Nat) (frame : Nat)
  | resendArrival (i : Fin 2) (src : Peer) (pod : Nat) (groupId : Nat) (frame : Nat) (ranges : List (Nat × Nat))
  | collectiveSourceQuery (p : Fin 16) (src : Peer) (pod : Nat) (frame : Nat)
  -- the Waggle engines
  | wglBlockIngest (i : Fin 2) (srcNode : Nat) (raw : List Byte) (cycle : Nat)
  | select (i : Fin 2) (j : WglJob) (cycle : Nat)
  | second (i : Fin 2) (j : WglJob) (cycle : Nat)
  | topk (i : Fin 2) (j : WglJob) (cycle : Nat)
  | neuron (i : Fin 2) (j : WglJob) (cycle : Nat)
  | tally (i : Fin 2) (j : WglJob) (cycle : Nat)
  | wglJobComplete (i : Fin 2) (cycle : Nat)
  -- the brood block
  | reamBuild (p : Fin 16) (cls : Fin 8) (x : ReamAt)
  | reamBuildComplete (p : Fin 16) (cls : Fin 8) (cycle : Nat)
  -- the Foragers and the tiers
  | fetch (i : Fin 2) (p : Fin 16) (cycle : Nat) (e : FgrEntry)
  | foragerWrite (i : Fin 2) (p : Fin 16) (cycle : Nat) (e : FgrEntry)
  | gather (i : Fin 2) (p : Fin 16) (cycle : Nat) (e : FgrEntry)
  | kvRead (i : Fin 2) (p : Fin 16) (cycle : Nat) (e : FgrEntry)
  | kvWrite (i : Fin 2) (p : Fin 16) (cycle : Nat) (e : FgrEntry)
  | flush (i : Fin 2) (p : Fin 16) (cycle : Nat) (e : FgrEntry)
  | foragerEntryComplete (i : Fin 2) (p : Fin 16) (id : Nat) (cycle : Nat) (reason : Fin 8)
  | refetchComplete (i : Fin 2) (id : Nat) (x : BytesAt)
  | refetchFail (i : Fin 2) (id : Nat)
  | cacheDrain (port : Fin 4) (chunk : Nat)
  | patrolPass (cxl : Bool) (unit : Fin 8) (x : PatrolFacts)
  | rowRepairSwitch (stack : Fin 8) (row : Nat)
  | retirementRedirect (stack : Fin 8)
  | cxlFlitRetry (port : Fin 4) (lateCycles : Nat) (p : Fin 16)
  -- host commands
  | loadImage (c : Fin 256) (tag : W32) (handle : W32) (offset : Nat)
  | start (c : Fin 256) (tag : W32) (slice : Nat) (prio : Fin 8)
  | stop (c : Fin 256) (tag : W32) (immediate : Bool)
  | setPrio (c : Fin 256) (tag : W32) (prio : Fin 8)
  | publish (c : Fin 256) (tag : W32) (object : Nat) (handle : W32)
  | acquire (c : Fin 256) (tag : W32) (tier : Fin 4) (cls : Nat) (comb : Nat)
  | release (c : Fin 256) (tag : W32) (handle : W32)
  | setDescriptor (c : Fin 256) (tag : W32) (object : Nat) (handle : W32) (offset : Nat)
  | admitSeq (c : Fin 256) (tag : W32) (seqId : W64) (kvHandle : W32) (kvLimit position promptEnd stopAt : Nat)
      (modelSlot prio : Nat) (evictEn : Bool)
  | update (c : Fin 256) (tag : W32) (seqId : W64) (entry : Nat) (mask : BitVec 8) (kvHandle : W32)
      (kvLimit stopAt prio : Nat)
  | hold (c : Fin 256) (tag : W32) (seqId : W64) (entry : Nat)
  | resume (c : Fin 256) (tag : W32) (seqId : W64) (entry : Nat)
  | remove (c : Fin 256) (tag : W32) (seqId : W64) (entry : Nat)
  | cmdNop (c : Fin 257) (tag : W32)
  | openContext (port : Fin 2) (tag : W32) (c : Nat) (p : Nat)
  | closeContext (port : Fin 2) (tag : W32) (c : Fin 256)
  | setPartition (port : Fin 2) (tag : W32) (p : Nat) (combs : W32) (slices : W64) (ports : W32)
  | registerSlot (port : Fin 2) (tag : W32) (slot : Nat) (handle : W32) (offset : Nat)
  | releaseSlot (port : Fin 2) (tag : W32) (slot : Nat)
  | updateComponent (port : Fin 2) (tag : W32) (component : Nat) (handle : W32) (offset : Nat)
      (verified importOk : Bool) (numeric timing version : Nat)
  | switchover (port : Fin 2) (tag : W32)
  -- the Hexvan link
  | commandPacket (port : Fin 2) (raw : List Byte)
  | completionSend (port : Fin 2)
  | hostWrite (port : Fin 2) (raw : List Byte)
  | hostRead (port : Fin 2) (raw : List Byte)
  | mgmtReq (port : Fin 2) (raw : List Byte)
  | hostData (port : Fin 2) (x : BytesAt)
  | imageData (port : Fin 2) (raw : List Byte)
  | hexvanTraining (port : Fin 2) (x : TrainFacts)
  | hexvanLinkRetry (port : Fin 2) (why : RetryWhy) (refusals : Nat) (time : Nat)
  | hexvanCreditReturn (port : Fin 2) (cls : Fin 16) (n : Nat)
  -- unit commands
  | unitNop (path : BitVec 13) (seq : BitVec 8)
  | unitReset (path : BitVec 13) (seq : BitVec 8) (reason : Fin 16)
  | quiesce (path : BitVec 13) (seq : BitVec 8) (reason : Fin 16)
  | unitResume (path : BitVec 13) (seq : BitVec 8)
  | selfTest (path : BitVec 13) (seq : BitVec 8) (reason : Fin 16)
  | clearEvents (path : BitVec 13) (seq : BitVec 8)
  | powerOff (path : BitVec 13) (seq : BitVec 8) (reason : Fin 16)
  | powerOn (path : BitVec 13) (seq : BitVec 8)
  | unitCommandComplete (path : BitVec 13) (failed : List (BitVec 13))
  | memberEventPropagate (path : BitVec 13)
  -- bring-up, reset and power
  | powerOnResetRelease
  | deviceReset (x : BringFacts)
  | railPg (group : Fin 6) (late : Bool) (x : BringFacts)
  | bringupStepTimeout (step : Fin 9) (fatal : Bool)
  | powerLoss
  | thermalSample (readings : List Int)
  | throttleRelease (sensorGroup : Fin 14)
  | powerSample (watts : Nat)
  -- image broadcast
  | broadcastDesc (d : BcastDesc) (fromNode : Nat)
  | broadcastData (bcastId : Nat) (chunk : Nat) (data : List Byte) (fromNode : Nat)
  | broadcastRequest (bcastId : Nat) (child : Nat) (ranges : List (Nat × Nat))
  | bcastHold (bcastId : Nat) (highest : Nat)
  | broadcastAttach (bcastId : Nat) (child : Nat) (ranges : List (Nat × Nat))
  | broadcastDone (bcastId : Nat) (fromNode : Option Nat)
  | chunkTimer
  | holdTimeout
  | pullRetryTimer
  | chunkRetentionTimeout
  -- live repair
  | spareCell (requester : Requester) (seq : BitVec 8) (path : BitVec 13) (spareFails : List Nat)
  | spareComb (requester : Requester) (seq : BitVec 8) (path : BitVec 13) (spareFails : List Nat)
  | cxlDetach (requester : Requester) (seq : BitVec 8) (path : BitVec 13)
  | cxlAttach (requester : Requester) (seq : BitVec 8) (path : BitVec 13) (trained : Bool) (link : Nat × Nat) (c f : Nat × Nat) (cxl2 : Bool)
  | retireStack (requester : Requester) (seq : BitVec 8) (path : BitVec 13)
  | clearSoft (requester : Requester) (seq : BitVec 8) (path : BitVec 13)
  | journalCompaction
  | laneOut (port : Fin 32) (value : W32)
  | spareRole (port : Fin 32) (value : W32)
  -- time and lock-step
  | timePulse (counter : Nat)
  | timeMessage (hallTime : Nat)
  | noReferenceTimeout
  | lockstepArm (requester : Requester) (value : W32) (partnerOk : Bool) (partnerSparing partnerDown : Bool)
      (partnerCells : Nat)
  | lockstepDisarm (requester : Requester) (value : W32)
  | digestMessage (c : Fin 256) (k : Nat) (digest : W64) (frame : Nat) (log : List (Nat × Nat × Nat × W64)) (level : Fin 4)
  | digestTimeout
  -- the propolis table
  | setWindow (requester : Requester) (seq : BitVec 8) (index : Nat) (e : WindowEntry)
  | clearWindow (requester : Requester) (seq : BitVec 8) (index : Nat)
  | setTrigger (requester : Requester) (seq : BitVec 8) (index : Nat) (e : TriggerEntry)
  | clearTrigger (requester : Requester) (seq : BitVec 8) (index : Nat)
  | setGrant (requester : Requester) (seq : BitVec 8) (index : Nat) (e : GrantEntry)
  | clearGrant (requester : Requester) (seq : BitVec 8) (index : Nat)
  | setHostWindow (requester : Requester) (seq : BitVec 8) (index : Nat) (e : HostWindow)
  | clearHostWindow (requester : Requester) (seq : BitVec 8) (index : Nat)
  | setContextPorts (requester : Requester) (seq : BitVec 8) (index : Nat) (both : Bool)
  | setOwnerKey (requester : Requester) (seq : BitVec 8) (index : Nat) (key : BitVec 384)
  | revoke (requester : Requester) (seq : BitVec 8) (index : Nat) (deviceId : BitVec 256)
  | setPolicy (requester : Requester) (seq : BitVec 8) (index : Nat) (policy linkPolicy svnMin : W32)
  -- identity and attestation
  | logFold (i : Fin 2)
  | attestationRequest (i : Fin 2) (requester : Requester) (scope : BitVec 16)
  | attestationReportReady (i : Fin 2)
  | authHello (port : LinkPort) (x : Hello)
  | authKem (port : LinkPort) (ciphertext : List Byte)
  | authFinish (port : LinkPort) (signature : List Byte)
  | authTimeout (port : LinkPort)
  | keyChange (port : LinkPort) (completed : Bool)
  -- firmware
  | componentFault (i : Fin 2) (component : Fin 6) (cause : Fin 4) (time : Nat)
  | watchdogExpiry (i : Fin 2) (component : Fin 6) (time : Nat)
  | heartbeat
  | heartbeatLoss
  -- clock, frame switch, domains, duty
  | clockSwitchArm (requester : Requester) (value : W32)
  | frameSwitchArm (p : Fin 16) (requester : Requester) (value : W32)
  | domainOn (requester : Requester) (seq : BitVec 8)
  | domainOff (requester : Requester) (seq : BitVec 8)
  | domainSwitchDone (domain : Fin 80)
  | pwrDuty (requester : Requester) (value : W32)
  -- injection and trace
  | injectCorr (requester : Requester) (value : W32)
  | injectUncorr (requester : Requester) (value : W32)
  | injectDelay (requester : Requester) (value : W32)
  | bolInject (port : Fin 32) (requester : Requester) (value : W32)
  | hxvInject (port : Fin 2) (requester : Requester) (value : W32)
  | traceArm (p : Fin 16) (requester : Requester) (value : W32)
  -- health and registers
  | i3cAccess (addr : Nat) (wide : Bool) (write : Bool) (value : W32)
  | i3cIbi
  | registerWrite (requester : Requester) (addr : Nat) (wide : Bool) (value : W64)
  | ethernetLinkChange (port : Fin 4) (up : Bool)
  | pulseVoid (late : Bool)
  | lockstepArmTimeout
  | nodeQueryArrival (src : Peer) (p : Fin 16) (ask : QueryAsk)
  | nodeQueryAnswer (node : Nat) (p : Fin 16) (r : QueryReport)
  deriving DecidableEq, Repr

end Sys2Proof
end

