-- ==== Sys2Proof/Decode.lean ====
section
/-! DEFINITION. Words of the opcode table. No row of spec/opcode_table.json gives bits (the block takes commands, not
instruction words), so no word spells a command. The byte layouts that the spec gives for packets and records (Tables 12-2,
16-3 and 04-1) are read by the meanings that receive them. -/

namespace Sys2Proof

/-- The command that a word spells by the table's bits: none (log entry 14, DESIGN CHOICE). -/
def decodeTableWord (_nbits _w : Nat) : Option Instr := none

end Sys2Proof
end

