-- ==== Sys2Proof/Machine/Maps.lean ====
section
/-! DEFINITION. Sparse data by key: lists of (key, value) pairs with the keys strictly rising. `smGet` answers an
entry if it is listed; the forms ending in `D` give an unlisted key a default and never list an entry equal to it, so
that equal contents are equal data. Also the bit fields of registers and words, numbered as R8 numbers them. -/

namespace Sys2Proof.Machine

/-- Sparse data: (key, value) pairs, keys strictly rising. -/
abbrev SMap (β : Type) := List (Nat × β)

/-- The entry listed at a key. -/
def smGet {β : Type} : SMap β → Nat → Option β
  | [], _ => none
  | (k', v) :: m, k => if k' = k then some v else smGet m k

/-- Lists `v` at `k`, in place of what is listed there. -/
def smPut {β : Type} : SMap β → Nat → β → SMap β
  | [], k, v => [(k, v)]
  | (k', v') :: m, k, v =>
    if k < k' then (k, v) :: (k', v') :: m
    else if k = k' then (k, v) :: m
    else (k', v') :: smPut m k v

/-- Takes what is listed at `k` out. -/
def smDel {β : Type} : SMap β → Nat → SMap β
  | [], _ => []
  | (k', v') :: m, k => if k' = k then smDel m k else (k', v') :: smDel m k

/-- The value at a key: the listed one, or the default. -/
def smGetD {β : Type} (d : β) (m : SMap β) (k : Nat) : β := (smGet m k).getD d

/-- Sets the value at a key; the default is not listed. -/
def smPutD {β : Type} [DecidableEq β] (d : β) (m : SMap β) (k : Nat) (v : β) : SMap β :=
  if v = d then smDel m k else smPut m k v

/-- Changes the value at a key. -/
def smModD {β : Type} [DecidableEq β] (d : β) (m : SMap β) (k : Nat) (f : β → β) : SMap β :=
  smPutD d m k (f (smGetD d m k))

/-- The keys rise strictly from above `lo`. -/
def smSortedFrom {β : Type} : Nat → SMap β → Bool
  | _, [] => true
  | lo, (k, _) :: m => decide (lo ≤ k) && smSortedFrom (k + 1) m

/-- The canonical form: keys strictly rising, no entry equal to what its key reads as when unlisted. -/
def smWf {β : Type} [DecidableEq β] (d : Nat → β) (m : SMap β) : Bool :=
  smSortedFrom 0 m && m.all fun e => decide (e.2 ≠ d e.1)

/-- The entry of a list at an index, changed. -/
def listMod {β : Type} (l : List β) (i : Nat) (f : β → β) : List β := l.modify i f

/-- Bits hi..lo of a number (R8). -/
def nbits (v hi lo : Nat) : Nat := v / 2 ^ lo % 2 ^ (hi + 1 - lo)

/-- Field hi..lo of a register. -/
def fld (v : W64) (hi lo : Nat) : Nat := nbits v.toNat hi lo

/-- A register with field hi..lo set to `n` (its low bits). -/
def setFld (v : W64) (hi lo n : Nat) : W64 :=
  BitVec.ofNat 64 (v.toNat - fld v hi lo * 2 ^ lo + n % 2 ^ (hi + 1 - lo) * 2 ^ lo)

/-- Bit `i` of a number. -/
def bitAt (v i : Nat) : Bool := v / 2 ^ i % 2 == 1

/-- A Boolean as a bit. -/
def b2n (b : Bool) : Nat := if b then 1 else 0

/-- The number of set bits among the low `n` bits. -/
def popBits (v n : Nat) : Nat := ((List.range n).filter (bitAt v)).length

/-- The numbers below `n` whose bit is set, rising. -/
def setBits (v n : Nat) : List Nat := (List.range n).filter (bitAt v)

/-- `n` little-endian bytes of a number (R8). -/
def leBytes : Nat → Nat → List Byte
  | 0, _ => []
  | n + 1, v => BitVec.ofNat 8 v :: leBytes n (v / 256)

/-- The number that little-endian bytes spell (R8). -/
def leNat : List Byte → Nat
  | [] => 0
  | b :: bs => b.toNat + 256 * leNat bs

/-- `n` bytes of a byte list from offset `o`; bytes past the end read 0. -/
def sliceBytes (l : List Byte) (o n : Nat) : List Byte :=
  let s := (l.drop o).take n
  s ++ List.replicate (n - s.length) 0

/-- The little-endian number in `n` bytes of a byte list at offset `o`. -/
def leAt (l : List Byte) (o n : Nat) : Nat := leNat (sliceBytes l o n)

/-- Rounds up to a multiple of `k`. -/
def roundUp (n k : Nat) : Nat := (n + k - 1) / k * k

/-- Ceiling of a quotient. -/
def ceilDiv (n k : Nat) : Nat := (n + k - 1) / k

/-- Serial-number difference of two 16-bit frame numbers, −32,768 to 32,767 (R14, R457). -/
def serialDiff (a b : Nat) : Int :=
  let d := (a + 65536 - b % 65536) % 65536
  if d < 32768 then (d : Int) else (d : Int) - 65536

/-- Inserts an element after those that come before or with it. -/
def insertBy {α : Type} (before : α → α → Bool) (x : α) : List α → List α
  | [] => [x]
  | y :: l => if before x y then x :: y :: l else y :: insertBy before x l

/-- The elements of a list in the order of `before`; elements of which neither comes before the other keep their places. -/
def sortBy {α : Type} (before : α → α → Bool) (l : List α) : List α := l.foldl (fun acc x => insertBy before x acc) []

/-- Writes bytes over a byte list from an offset; bytes past its end are dropped. -/
def patchBytes (l : List Byte) (o : Nat) (bs : List Byte) : List Byte :=
  (l.take o ++ bs ++ l.drop (o + bs.length)).take l.length

end Sys2Proof.Machine
end

