-- ==== Sys2Proof/Machine/Hash.lean ====
section
/-! DEFINITION. The check sums and digests that the spec names: CRC-32C (12 R308, 16 R405), CRC-64 (18 R464), SHA-256 and
HMAC-SHA-256 and HKDF-SHA-256 (19 R472, R473, R475), over bytes. -/

namespace Sys2Proof.Machine

/-! ## Check sums -/

/-- One bit of a reflected CRC. -/
def crcBit (poly c : Nat) : Nat := if c % 2 = 1 then (c / 2) ^^^ poly else c / 2

/-- `n` bits of a reflected CRC. -/
def crcBits (poly : Nat) : Nat → Nat → Nat
  | 0, c => c
  | n + 1, c => crcBits poly n (crcBit poly c)

/-- CRC-32C (Castagnoli): reflected, initial value and final XOR of all ones. -/
def crc32c (l : List Byte) : Nat :=
  (l.foldl (fun c b => crcBits 0x82F63B78 8 (c ^^^ b.toNat)) 0xFFFFFFFF) ^^^ 0xFFFFFFFF

/-- `n` bits of a CRC whose top bit leads, on 64 bits. -/
def crc64Bits (poly : W64) : Nat → W64 → W64
  | 0, c => c
  | n + 1, c => crc64Bits poly n (if c.msb then (c <<< 1) ^^^ poly else c <<< 1)

/-! ## SHA-256 (FIPS 180-4)

Its constants are the first 32 bits after the binary point of roots of the first primes, and are computed here as such. -/

/-- The number of bits of `r` counted from `2 ^ n` down that keep `r ^ k` at or below `v`: the integer `k`-th root of `v` below 2^n. -/
def rootBelow (k v : Nat) : Nat → Nat → Nat
  | 0, r => r
  | n + 1, r => rootBelow k v n (if (r + 2 ^ n) ^ k ≤ v then r + 2 ^ n else r)

/-- The first 32 bits after the point of the `k`-th root of a prime below 512. -/
def rootBits (k prime : Nat) : W32 := BitVec.ofNat 32 (rootBelow k (prime * 2 ^ (32 * k)) 40 0)

/-- The first 64 primes. -/
def primes64 : List Nat := (List.range 312).filter fun n => decide (1 < n) && (List.range 16).all fun k => k + 2 == n || n % (k + 2) != 0

/-- The round constants, from cube roots. -/
def roundConsts : List W32 := primes64.map (rootBits 3)

/-- The initial chaining value, from square roots: its first four words, and its last four. -/
def chainInit : List W32 × List W32 := (((primes64.take 8).map (rootBits 2)).take 4, ((primes64.take 8).map (rootBits 2)).drop 4)

/-- The exclusive or of rotations of a word to the right. -/
def rotations (x : W32) (l : List Nat) : W32 := l.foldl (fun y n => y ^^^ x.rotateRight n) 0

/-- The words of a block, the last first. -/
def wordsBack (blk : List Byte) : List W32 :=
  (List.range 16).foldl (fun w i => BitVec.ofNat 32 (leNat (sliceBytes blk (4 * i) 4).reverse) :: w) []

/-- The message schedule grows by a word, which goes in front. -/
def schedNext (w : List W32) : List W32 :=
  let two := w.getD 1 0
  let fifteen := w.getD 14 0
  ((rotations two [17, 19] ^^^ (two >>> 10)) + w.getD 6 0 + (rotations fifteen [7, 18] ^^^ (fifteen >>> 3)) + w.getD 15 0) :: w

/-- The 64 words of a block's schedule. -/
def schedule (blk : List Byte) : List W32 := ((List.range 48).foldl (fun w _ => schedNext w) (wordsBack blk)).reverse

/-- One round. The working words stand as two queues of four, the youngest in front: what the standard calls a to d, and e to h. -/
def hashRound (q : List W32 × List W32) (input : W32) : List W32 × List W32 :=
  let x := fun n => q.1.getD n 0
  let y := fun n => q.2.getD n 0
  let pick := y 2 ^^^ (y 0 &&& (y 1 ^^^ y 2))
  let most := (x 0 &&& (x 1 ||| x 2)) ||| (x 1 &&& x 2)
  let t := y 3 + input + pick + rotations (y 0) [6, 11, 25]
  ((t + most + rotations (x 0) [2, 13, 22]) :: q.1.take 3, (x 3 + t) :: q.2.take 3)

/-- A block is taken in: 64 rounds, added to the chaining value. -/
def takeBlock (c : List W32 × List W32) (blk : List Byte) : List W32 × List W32 :=
  let v := (List.zipWith (· + ·) (schedule blk) roundConsts).foldl hashRound c
  (List.zipWith (· + ·) c.1 v.1, List.zipWith (· + ·) c.2 v.2)

/-- Big-endian bytes of a number. -/
def beBytes : Nat → Nat → List Byte
  | 0, _ => []
  | n + 1, v => BitVec.ofNat 8 (v / 256 ^ n) :: beBytes n v

/-- A message with its padding: a one bit, zeros, its length in bits. -/
def padded (l : List Byte) : List Byte := l ++ 0x80#8 :: List.replicate ((119 - l.length % 64) % 64) 0 ++ beBytes 8 (8 * l.length)

/-- SHA-256 of a message. -/
def sha256 (l : List Byte) : List Byte :=
  let m := padded l
  let c := (List.range (m.length / 64)).foldl (fun c i => takeBlock c (sliceBytes m (64 * i) 64)) chainInit
  (c.1 ++ c.2).flatMap fun w => beBytes 4 w.toNat

/-! ## HMAC-SHA-256 (FIPS 198-1) and HKDF-SHA-256 (RFC 5869) -/

/-- HMAC-SHA-256. -/
def hmac256 (key msg : List Byte) : List Byte :=
  let k := sliceBytes (if key.length ≤ 64 then key else sha256 key) 0 64
  sha256 (k.map (· ^^^ 0x5C#8) ++ sha256 (k.map (· ^^^ 0x36#8) ++ msg))

/-- Output blocks of HKDF, the counter from `i`. -/
def hkdfBlocks (prk info : List Byte) : Nat → Nat → List Byte → List Byte
  | 0, _, _ => []
  | n + 1, i, last =>
    let t := hmac256 prk (last ++ info ++ [BitVec.ofNat 8 i])
    t ++ hkdfBlocks prk info n (i + 1) t

/-- HKDF-SHA-256: `n` bytes from a salt, input key material and an information string. -/
def hkdf256 (salt ikm info : List Byte) (n : Nat) : List Byte :=
  (hkdfBlocks (hmac256 salt ikm) info (ceilDiv n 32) 1 []).take n

/-- The bytes of an ASCII string. -/
def ascii (s : String) : List Byte := s.toList.map fun c => BitVec.ofNat 8 c.toNat

end Sys2Proof.Machine
end

