-- ==== Sys2Proof/Config.lean ====
section
/-! DEFINITION. What the spec leaves open and a run of the hardware decides: opaque constants, about which nothing can be
proved. Log entry 2 names the counter that free values are drawn with. -/

namespace Sys2Proof.Config

/-- A free value: the draw's number and an index within the draw. -/
opaque freeValue : Nat → Nat → Nat

/-- The row of a stack that holds a line, by its stack-local number; the spec gives no row size (R251)
(log entry 13, DESIGN CHOICE). -/
opaque memRow : Nat → Nat

/-- Does an SLH-DSA-SHA2-192s signature of a message verify under a key? The spec names the algorithm and does not define it
(R477, R480) (log entry 7, PRESUMED). -/
opaque slhVerify : Nat → List Byte → List Byte → Bool

/-- The same for SLH-DSA-SHA2-128f, which signs alias certificates and link transcripts (R472, R485). -/
opaque slhVerify128 : Nat → List Byte → List Byte → Bool

/-- The device's identity public key, by DEVICE_ID, and that of an alias key by the manifest digest of its firmware as well (R473)
(log entry 8, PRESUMED). -/
opaque idKey : BitVec 256 → Nat → Byte

/-- The alias public key. -/
opaque aliasKey : BitVec 256 → List Byte → Nat → Byte

/-- What the factory record says of the identity certificate: 0 its root key, 1 its SERIAL; 2 the SERIAL of alias certificates (R476). -/
opaque certFact : BitVec 256 → Nat → Nat

/-- Bytes of the root's signature of the identity certificate, over its body. -/
opaque rootSign : BitVec 256 → List Byte → Nat → Byte

/-- Bytes of a signature under the identity key, over a message. -/
opaque idSign : BitVec 256 → List Byte → Nat → Byte

/-- Bytes of a signature under the alias key of a firmware, over a message (R483). -/
opaque aliasSign : BitVec 256 → List Byte → List Byte → Nat → Byte

/-- The SHA-256 of the propolis table in force (R481, R484), by the entries of the table. The spec gives no byte layout of the
whole table. -/
opaque tableDigest : List Byte → List Byte

/-- The log entries that one frame may use in a lock-step log of a size in MiB (R468). The spec gives no entry size and no
share (log entry 10, DESIGN CHOICE). -/
opaque lsShare : Nat → Nat

/-- The boot ROM's digest, 32 bytes (R481, TYPE 1). The spec gives no value. -/
opaque bootRom : Nat → Byte

/-- The 32 bytes of the seed in the device's fuses (R473). -/
opaque seed : Nat → Byte

/-- The KEY of a journal record, from its type and a number of the model's for what it describes: the spec gives no numbering (R447)
(log entry 132, DESIGN CHOICE). -/
opaque journalKey : Nat → Nat → Nat

/-- The root public keys of the boot ROM (R477). The spec gives no values. -/
opaque rootKey : Nat → Nat

/-- The group size of the scale array that an MX export reads, as a code by partition and buffer reference: nothing in an entry gives it
(R137) (log entry 124, DESIGN CHOICE). -/
opaque exportGroup : Nat → Nat → Nat

/-- Does a stack support post-package repair (R252)? -/
opaque postPackage : Nat → Bool

/-- The 14-bit hash of SRC and DEST in the source port of a datagram: the spec names it and does not give it (R332). -/
opaque udpHash : Nat → Nat → Nat

/-- A free byte. -/
opaque freeByte : Nat → Nat → Byte

end Sys2Proof.Config
end

