-- ==== Sys2Proof/Machine/Codec.lean ====
section
/-! DEFINITION. The outer code of the memory tiers (10 R245, R246): Reed–Solomon over GF(2^8), 64 data bytes and 8 check bytes to a
codeword, and what a read makes of a word with wrong bytes. -/

namespace Sys2Proof.Machine

/-! ## GF(2^8) with x^8 + x^4 + x^3 + x^2 + 1 -/

/-- Multiplication by α = 0x02. -/
def gfDouble (a : Byte) : Byte := if a.msb then a <<< 1 ^^^ 0x1D#8 else a <<< 1

/-- Multiplication, from the low bits of `b` up. -/
def gfMulBits : Nat → Byte → Byte → Byte
  | 0, _, _ => 0#8
  | n + 1, a, b => (if b.getLsbD 0 then a else 0#8) ^^^ gfMulBits n (gfDouble a) (b >>> 1)

/-- Multiplication. -/
def gfMul (a b : Byte) : Byte := gfMulBits 8 a b

/-- α^n. -/
def gfAlpha : Nat → Byte
  | 0 => 1#8
  | n + 1 => gfDouble (gfAlpha n)

/-! ## Polynomials, highest coefficient first -/

/-- Term by term. -/
def polyAdd (p q : List Byte) : List Byte := List.zipWith (· ^^^ ·) p q

/-- p(x) times (x + c). -/
def polyTimes (p : List Byte) (c : Byte) : List Byte := polyAdd (p ++ [0#8]) (0#8 :: p.map (gfMul c))

/-- The value of a polynomial at a point. -/
def polyAt (p : List Byte) (x : Byte) : Byte := p.foldl (fun v b => gfMul v x ^^^ b) 0#8

/-! ## The code (R245) -/

/-- The generator (x + α^0)(x + α^1) … (x + α^7). -/
def rsGen : List Byte := (List.range 8).foldl (fun p j => polyTimes p (gfAlpha j)) [1#8]

/-- The generator's coefficients below x^8. -/
def rsTail : List Byte := rsGen.drop 1

/-- The remainder register takes one more coefficient of the dividend: the dividend so far, times x^8, modulo the generator. -/
def rsStep (r : List Byte) (b : Byte) : List Byte :=
  polyAdd (r.drop 1 ++ [0#8]) (rsTail.map (gfMul (b ^^^ r.headD 0#8)))

/-- The check bytes p0 to p7 of data bytes. -/
def rsCheck (data : List Byte) : List Byte := data.foldl rsStep (List.replicate 8 0#8)

/-- The codeword of a line: its data bytes, then its check bytes. -/
def codeword (data : List Byte) : List Byte := data ++ rsCheck data

/-- The values of a word at α^0 to α^7: all zero for a codeword. -/
def syndromes (w : List Byte) : List Byte := (List.range 8).map fun j => polyAt w (gfAlpha j)

/-! ## Wrong bytes (R246) -/

/-- What is added to byte `i` of a codeword. -/
def errAt (errs : List (Nat × Byte)) (i : Nat) : Byte :=
  errs.foldl (fun v e => if e.1 = i then v ^^^ e.2 else v) 0#8

/-- A codeword with wrong bytes. -/
def corrupt (w : List Byte) (errs : List (Nat × Byte)) : List Byte := w.zipIdx.map fun e => e.1 ^^^ errAt errs e.2

/-- How many of the 72 bytes are wrong. -/
def wrongBytes (errs : List (Nat × Byte)) : Nat := ((List.range 72).filter fun i => errAt errs i != 0#8).length

/-- What a read makes of a stored word (Table 10-1). -/
inductive RsRead where
  | good
  | corrected (n : Nat)        -- up to 4 wrong bytes
  | lost
  deriving DecidableEq, Repr

/-- The outer code at work: any pattern of up to 4 wrong bytes is corrected, any other is reported uncorrectable. That a pattern of
5 bytes or more may decode as another codeword, which Table 10-1 bounds and does not fix, is left out (log entry 126, DEDUCED). -/
def rsRead (errs : List (Nat × Byte)) : RsRead :=
  let n := wrongBytes errs
  if n = 0 then .good else if n ≤ 4 then .corrected n else .lost

/-! ## Places on a CXL device (R254) -/

/-- The data capacity of a capacity of `raw` bytes, in GiB, capped at a window of `cap` GiB. -/
def dataGiB (raw cap : Nat) : Nat := min cap (8 * raw / 9 / 2 ^ 30)

/-- The raw address of the check bytes of data byte `a`, behind a data capacity of `gib` GiB. -/
def checkAddr (gib a : Nat) : Nat := gib * 2 ^ 30 + 8 * (a / 64)

end Sys2Proof.Machine
end

