-- ==== Sys2Proof/Machine/RegMap.lean ====
section
/-! DEFINITION. The registers of every page,
    from the register tables of spec/: the offset of each in its page (named
as the spec names it), the reset values that are not 0, and which registers are 64 bits wide. -/

namespace Sys2Proof.Machine
namespace Reg


/-! Registers of a partition page. -/

/-- R44 (Table 01-7). -/
abbrev CTL_FRAME_ACTIVE : Nat := 0x100
/-- R44 (Table 01-7). -/
abbrev CTL_FRAME_NEXT : Nat := 0x104
/-- R44 (Table 01-7). -/
abbrev CTL_FRAME_SWITCH : Nat := 0x108
/-- R44 (Table 01-7). -/
abbrev CTL_FRAME_NUM : Nat := 0x110
/-- R44 (Table 01-7). -/
abbrev CTL_SLICE_IDX : Nat := 0x114
/-- R44 (Table 01-7). -/
abbrev CTL_TICK_TIME : Nat := 0x118
/-- R44 (Table 01-7). -/
abbrev CTL_FRAME_STATUS : Nat := 0x120
/-- R44 (Table 01-7). -/
abbrev CTL_KILL_REQ : Nat := 0x124
/-- R44 (Table 01-7). -/
abbrev CTL_LOAD_STATUS : Nat := 0x128
/-- R44 (Table 01-7). -/
abbrev CTL_LAST_OVERRUN : Nat := 0x12c
/-- R44 (Table 01-7). -/
abbrev CTL_EVT_OVERRUN : Nat := 0x130
/-- R44 (Table 01-7). -/
abbrev CTL_EVT_KILLED : Nat := 0x134
/-- R44 (Table 01-7). -/
abbrev CTL_EVT_ESCALATED : Nat := 0x138
/-- R44 (Table 01-7). -/
abbrev CTL_EVT_UNEXPLAINED : Nat := 0x13c
/-- R44 (Table 01-7). -/
abbrev CTL_EVT_MARKER_LATE : Nat := 0x140
/-- R44 (Table 01-7). -/
abbrev CTL_EVT_SWITCH_REFUSED : Nat := 0x144
/-- R44 (Table 01-7). -/
abbrev CTL_DIST_EVENTS (c : Nat) : Nat := 0x150 + 0x10 * (c - 1)
/-- R44 (Table 01-7). -/
abbrev CTL_DIST_CYCLES (c : Nat) : Nat := 0x158 + 0x10 * (c - 1)
/-- R44 (Table 01-7). -/
abbrev CTL_SNAP : Nat := 0x230

/-! Registers of every unit page. -/

/-- R50 (Table 02-4). -/
abbrev UNIT_ID : Nat := 0x0
/-- R50 (Table 02-4). -/
abbrev UNIT_INFO : Nat := 0x4
/-- R50 (Table 02-4). -/
abbrev UNIT_STATE : Nat := 0x8
/-- R50 (Table 02-4). -/
abbrev UNIT_OWNER : Nat := 0xc
/-- R50 (Table 02-4). -/
abbrev UNIT_CMD : Nat := 0x10
/-- R50 (Table 02-4). -/
abbrev UNIT_CMD_STATUS : Nat := 0x14
/-- R50 (Table 02-4). -/
abbrev UNIT_CMD_FIRST_FAIL : Nat := 0x18
/-- R50 (Table 02-4). -/
abbrev UNIT_EVENTS : Nat := 0x20
/-- R50 (Table 02-4). -/
abbrev UNIT_EVENT_MASK : Nat := 0x24
/-- R50 (Table 02-4). -/
abbrev UNIT_ACCESS_ERR : Nat := 0x28
/-- R50 (Table 02-4). -/
abbrev UNIT_POWER : Nat := 0x2c
/-- R50 (Table 02-4). -/
abbrev UNIT_EVT_CMD_DONE : Nat := 0x30
/-- R50 (Table 02-4). -/
abbrev UNIT_EVT_CMD_FAILED : Nat := 0x34
/-- R50 (Table 02-4). -/
abbrev UNIT_EVT_ERR_CORR : Nat := 0x38
/-- R50 (Table 02-4). -/
abbrev UNIT_EVT_ERR_UNCORR : Nat := 0x3c
/-- R50 (Table 02-4). -/
abbrev UNIT_EVT_ACCESS_ERR : Nat := 0x40
/-- R50 (Table 02-4). -/
abbrev UNIT_EVT_STATE_CHANGE : Nat := 0x44
/-- R50 (Table 02-4). -/
abbrev UNIT_GROUP_READY : Nat := 0x48
/-- R50 (Table 02-4). -/
abbrev UNIT_SNAP_FRAME : Nat := 0x4c
/-- R50 (Table 02-4). -/
abbrev UNIT_MEMBER_MAP : Nat := 0x80

/-! Registers of the device page. -/

/-- R65 (Table 02-14). -/
abbrev CTL_CAP_GRADE : Nat := 0x100
/-- R65 (Table 02-14). -/
abbrev CTL_CAP_CELLS : Nat := 0x104
/-- R65 (Table 02-14). -/
abbrev CTL_CAP_STACKS : Nat := 0x108
/-- R65 (Table 02-14). -/
abbrev CTL_CAP_COMBS : Nat := 0x10c
/-- R65 (Table 02-14). -/
abbrev CTL_CAP_BOLLUM : Nat := 0x110
/-- R65 (Table 02-14). -/
abbrev CTL_CAP_LINKS : Nat := 0x114
/-- R65 (Table 02-14). -/
abbrev CTL_CAP_CLOCKS : Nat := 0x118
/-- R65 (Table 02-14). -/
abbrev CTL_CAP_TIMING : Nat := 0x11c
/-- R65 (Table 02-14). -/
abbrev CTL_CAP_SPARES : Nat := 0x120

/-! Registers of a logical cell page. -/

/-- R92 (Table 03-8). -/
abbrev CEL_ENGINE_STATUS : Nat := 0x100
/-- R92 (Table 03-8). -/
abbrev CEL_EVENTS : Nat := 0x104
/-- R92 (Table 03-8). -/
abbrev CEL_ERR_ADDR : Nat := 0x108
/-- R92 (Table 03-8). -/
abbrev CEL_EVT_FEED_LATE : Nat := 0x110
/-- R92 (Table 03-8). -/
abbrev CEL_EVT_DRAIN_LATE : Nat := 0x114
/-- R92 (Table 03-8). -/
abbrev CEL_EVT_SKEW_LIMIT : Nat := 0x118
/-- R92 (Table 03-8). -/
abbrev CEL_EVT_DECKLE_CLAMP : Nat := 0x11c
/-- R92 (Table 03-8). -/
abbrev CEL_LAG_CYCLES : Nat := 0x120
/-- R92 (Table 03-8). -/
abbrev CEL_PASS_COUNT : Nat := 0x128
/-- R92 (Table 03-8). -/
abbrev CEL_STEP_COUNT : Nat := 0x130
/-- R92 (Table 03-8). -/
abbrev CEL_GATED_STEPS : Nat := 0x138

/-! Registers of a logical comb page. -/

/-- R93 (Table 03-10). -/
abbrev CMB_STATUS : Nat := 0x100
/-- R93 (Table 03-10). -/
abbrev CMB_EVENTS : Nat := 0x104
/-- R93 (Table 03-10). -/
abbrev CMB_ERR_ADDR : Nat := 0x108
/-- R93 (Table 03-10). -/
abbrev CMB_EVT_BCAST_WAIT : Nat := 0x110
/-- R93 (Table 03-10). -/
abbrev CMB_BCAST_WAIT_CYCLES : Nat := 0x118

/-! Registers of a logical cell page. -/

/-- R118 (Table 04-14). -/
abbrev CEL_FE_STATUS : Nat := 0x200
/-- R118 (Table 04-14). -/
abbrev CEL_FE_EVENTS : Nat := 0x204
/-- R118 (Table 04-14). -/
abbrev CEL_CMD_ERR : Nat := 0x208
/-- R118 (Table 04-14). -/
abbrev CEL_CMD_ERR_ID : Nat := 0x20c
/-- R118 (Table 04-14). -/
abbrev CEL_EVT_CMD_ERR : Nat := 0x210
/-- R118 (Table 04-14). -/
abbrev CEL_EVT_TAG_SAT : Nat := 0x214
/-- R118 (Table 04-14). -/
abbrev CEL_EVT_TRIGGER_LATE : Nat := 0x218
/-- R118 (Table 04-14). -/
abbrev CEL_EVT_TRIGGER_DUP : Nat := 0x21c
/-- R118 (Table 04-14). -/
abbrev CEL_EVT_STALE_REPLY : Nat := 0x220
/-- R118 (Table 04-14). -/
abbrev CEL_EVT_REMOTE_LATE : Nat := 0x224
/-- R118 (Table 04-14). -/
abbrev CEL_RECORDS_ISSUED : Nat := 0x228
/-- R118 (Table 04-14). -/
abbrev CEL_REMOTE_LATE_CYCLES : Nat := 0x230
/-- R118 (Table 04-14). -/
abbrev CEL_REMOTE_OUTSTANDING : Nat := 0x238
/-- R118 (Table 04-14). -/
abbrev CEL_STREAM (s : Nat) : Nat := 0x240 + 4*s
/-- R118 (Table 04-14). -/
abbrev CEL_TAGS (w : Nat) : Nat := 0x280 + 4*w
/-- R138 (Table 05-8). -/
abbrev CAL_EVENTS : Nat := 0x300
/-- R138 (Table 05-8). -/
abbrev CAL_EVT_ACC_SAT : Nat := 0x310
/-- R138 (Table 05-8). -/
abbrev CAL_EVT_ACC_NONFINITE : Nat := 0x314
/-- R138 (Table 05-8). -/
abbrev CAL_EVT_OUT_SAT : Nat := 0x318
/-- R138 (Table 05-8). -/
abbrev CAL_EVT_NAN_OUT : Nat := 0x31c
/-- R138 (Table 05-8). -/
abbrev CAL_EVT_SCALE_NAN : Nat := 0x320
/-- R138 (Table 05-8). -/
abbrev CAL_DRAINS : Nat := 0x328
/-- R138 (Table 05-8). -/
abbrev CAL_STOCH_ELEMENTS : Nat := 0x330
/-- R167 (Table 06-10). -/
abbrev CEL_SP_EVENTS : Nat := 0x400
/-- R167 (Table 06-10). -/
abbrev CEL_SP_LAST : Nat := 0x404
/-- R167 (Table 06-10). -/
abbrev CEL_EVT_DROP_DECL : Nat := 0x410
/-- R167 (Table 06-10). -/
abbrev CEL_EVT_DROP_B : Nat := 0x414
/-- R167 (Table 06-10). -/
abbrev CEL_EVT_DROP_RANGE : Nat := 0x418
/-- R167 (Table 06-10). -/
abbrev CEL_EVT_SEG_TRUNC : Nat := 0x41c
/-- R167 (Table 06-10). -/
abbrev CEL_SP_DROPPED_DECL : Nat := 0x420
/-- R167 (Table 06-10). -/
abbrev CEL_SP_DROPPED_B : Nat := 0x428
/-- R167 (Table 06-10). -/
abbrev CEL_SP_DROPPED_RANGE : Nat := 0x430
/-- R167 (Table 06-10). -/
abbrev CEL_SP_TRUNC_SEGMENTS : Nat := 0x438
/-- R167 (Table 06-10). -/
abbrev CEL_SP_PASSES : Nat := 0x440
/-- R167 (Table 06-10). -/
abbrev CEL_SP_SEGMENTS : Nat := 0x448

/-! Registers of a WGL page. -/

/-- R194 (Table 07-12). -/
abbrev WGL_CAPACITY : Nat := 0x100
/-- R194 (Table 07-12). -/
abbrev WGL_STATUS : Nat := 0x104
/-- R194 (Table 07-12). -/
abbrev WGL_EVENTS : Nat := 0x108
/-- R194 (Table 07-12). -/
abbrev WGL_JOB_ERR : Nat := 0x10c
/-- R194 (Table 07-12). -/
abbrev WGL_LAST_DROP : Nat := 0x110
/-- R194 (Table 07-12). -/
abbrev WGL_EVT_NAN_SCORE : Nat := 0x120
/-- R194 (Table 07-12). -/
abbrev WGL_EVT_FLOOR_REJECT : Nat := 0x124
/-- R194 (Table 07-12). -/
abbrev WGL_EVT_UNFILLED : Nat := 0x128
/-- R194 (Table 07-12). -/
abbrev WGL_EVT_UNROUTED : Nat := 0x12c
/-- R194 (Table 07-12). -/
abbrev WGL_EVT_BLOCK_DROP : Nat := 0x130
/-- R194 (Table 07-12). -/
abbrev WGL_EVT_BLOCK_LATE : Nat := 0x134
/-- R194 (Table 07-12). -/
abbrev WGL_EVT_BLOCK_CONFLICT : Nat := 0x138
/-- R194 (Table 07-12). -/
abbrev WGL_EVT_JOB_ERR : Nat := 0x13c
/-- R194 (Table 07-12). -/
abbrev WGL_KEYS : Nat := 0x140
/-- R194 (Table 07-12). -/
abbrev WGL_NAN_SCORES : Nat := 0x148
/-- R194 (Table 07-12). -/
abbrev WGL_FLOOR_REJECTS : Nat := 0x150
/-- R194 (Table 07-12). -/
abbrev WGL_SELECTED : Nat := 0x158
/-- R194 (Table 07-12). -/
abbrev WGL_SECOND_SELECTED : Nat := 0x160
/-- R194 (Table 07-12). -/
abbrev WGL_UNFILLED_PLACES : Nat := 0x168
/-- R194 (Table 07-12). -/
abbrev WGL_UNROUTED_TOKENS : Nat := 0x170
/-- R194 (Table 07-12). -/
abbrev WGL_BLOCKS_DROPPED : Nat := 0x178
/-- R194 (Table 07-12). -/
abbrev WGL_LATE_CYCLES : Nat := 0x180
/-- R194 (Table 07-12). -/
abbrev WGL_JOBS : Nat := 0x188

/-! Registers of a SWM page. -/

/-- R227 (Table 08-12). -/
abbrev SWM_STATUS : Nat := 0x100
/-- R227 (Table 08-12). -/
abbrev SWM_EVENTS : Nat := 0x104
/-- R227 (Table 08-12). -/
abbrev SWM_ENTRY_ERR : Nat := 0x108
/-- R227 (Table 08-12). -/
abbrev SWM_LAST_DROP : Nat := 0x10c
/-- R227 (Table 08-12). -/
abbrev SWM_VOTES : Nat := 0x110
/-- R227 (Table 08-12). -/
abbrev SWM_GROUP : Nat := 0x114
/-- R227 (Table 08-12). -/
abbrev SWM_EVT_LAND_DROP : Nat := 0x120
/-- R227 (Table 08-12). -/
abbrev SWM_EVT_LAND_CONFLICT : Nat := 0x124
/-- R227 (Table 08-12). -/
abbrev SWM_EVT_UNIT_LATE : Nat := 0x128
/-- R227 (Table 08-12). -/
abbrev SWM_EVT_VOTE_MISSING : Nat := 0x12c
/-- R227 (Table 08-12). -/
abbrev SWM_EVT_SPLIT_VOTE : Nat := 0x130
/-- R227 (Table 08-12). -/
abbrev SWM_EVT_COMBINE_DROP : Nat := 0x134
/-- R227 (Table 08-12). -/
abbrev SWM_EVT_BOUND_DROP : Nat := 0x138
/-- R227 (Table 08-12). -/
abbrev SWM_EVT_ENTRY_ERR : Nat := 0x13c
/-- R227 (Table 08-12). -/
abbrev SWM_UNITS_SENT : Nat := 0x140
/-- R227 (Table 08-12). -/
abbrev SWM_BYTES_SENT : Nat := 0x148
/-- R227 (Table 08-12). -/
abbrev SWM_UNITS_LANDED : Nat := 0x150
/-- R227 (Table 08-12). -/
abbrev SWM_PACKETS_DROPPED : Nat := 0x158
/-- R227 (Table 08-12). -/
abbrev SWM_LATE_CYCLES : Nat := 0x160
/-- R227 (Table 08-12). -/
abbrev SWM_COMBINE_DROPPED : Nat := 0x168
/-- R227 (Table 08-12). -/
abbrev SWM_ROWS_COMBINED : Nat := 0x170

/-! Registers of the BRD page. -/

/-- R242 (Table 09-8). -/
abbrev BRD_STATUS : Nat := 0x100
/-- R242 (Table 09-8). -/
abbrev BRD_EVENTS : Nat := 0x104
/-- R242 (Table 09-8). -/
abbrev BRD_WIN_INDEX : Nat := 0x108
/-- R242 (Table 09-8). -/
abbrev BRD_EVT_FULL : Nat := 0x110
/-- R242 (Table 09-8). -/
abbrev BRD_EVT_EVICTED : Nat := 0x114
/-- R242 (Table 09-8). -/
abbrev BRD_EVT_KV_FULL : Nat := 0x118
/-- R242 (Table 09-8). -/
abbrev BRD_EVT_RESULT_BAD : Nat := 0x11c
/-- R242 (Table 09-8). -/
abbrev BRD_EVT_ENTRY_LOST : Nat := 0x120
/-- R242 (Table 09-8). -/
abbrev BRD_SLOT_READY : Nat := 0x128
/-- R242 (Table 09-8). -/
abbrev BRD_REAMS : Nat := 0x130
/-- R242 (Table 09-8). -/
abbrev BRD_ROWS : Nat := 0x138
/-- R242 (Table 09-8). -/
abbrev BRD_WIN_DATA : Nat := 0x140

/-! Registers of a FOR page. -/

/-- R284 (Table 10-8). -/
abbrev FOR_STATUS : Nat := 0x100
/-- R284 (Table 10-8). -/
abbrev FOR_EVENTS : Nat := 0x104
/-- R284 (Table 10-8). -/
abbrev FOR_ENTRY_ERR : Nat := 0x108
/-- R284 (Table 10-8). -/
abbrev FOR_LAST_POISON : Nat := 0x10c
/-- R284 (Table 10-8). -/
abbrev FOR_EVT_LATE : Nat := 0x110
/-- R284 (Table 10-8). -/
abbrev FOR_EVT_POISON : Nat := 0x114
/-- R284 (Table 10-8). -/
abbrev FOR_EVT_REFETCH_FAIL : Nat := 0x118
/-- R284 (Table 10-8). -/
abbrev FOR_EVT_KV_SKIP : Nat := 0x11c
/-- R284 (Table 10-8). -/
abbrev FOR_EVT_KV_TRUNC : Nat := 0x120
/-- R284 (Table 10-8). -/
abbrev FOR_EVT_ENTRY_ERR : Nat := 0x124
/-- R284 (Table 10-8). -/
abbrev FOR_EVT_REPAIR_FULL : Nat := 0x128
/-- R284 (Table 10-8). -/
abbrev FOR_REPAIR_USED : Nat := 0x12c
/-- R284 (Table 10-8). -/
abbrev FOR_BYTES : Nat := 0x130
/-- R284 (Table 10-8). -/
abbrev FOR_ENTRIES : Nat := 0x138
/-- R284 (Table 10-8). -/
abbrev FOR_REFETCH_CHUNKS : Nat := 0x140
/-- R284 (Table 10-8). -/
abbrev FOR_TL_EVENTS (t : Nat) (r : Nat) : Nat := 0x200 + 0x20 * (t - 1) + 4 * (r - 1)
/-- R284 (Table 10-8). -/
abbrev FOR_TL_CYCLES (t : Nat) (r : Nat) : Nat := 0x300 + 0x40 * (t - 1) + 8 * (r - 1)

/-! Registers of a MEM page. -/

/-- R284 (Table 10-9). -/
abbrev MEM_STATE : Nat := 0x100
/-- R284 (Table 10-9). -/
abbrev MEM_EVENTS : Nat := 0x104
/-- R284 (Table 10-9). -/
abbrev MEM_ERR_ADDR : Nat := 0x108
/-- R284 (Table 10-9). -/
abbrev MEM_PATROL : Nat := 0x110
/-- R284 (Table 10-9). -/
abbrev MEM_MIGRATE : Nat := 0x114
/-- R284 (Table 10-9). -/
abbrev MEM_EVT_CORR : Nat := 0x120
/-- R284 (Table 10-9). -/
abbrev MEM_EVT_UNCORR : Nat := 0x124
/-- R284 (Table 10-9). -/
abbrev MEM_EVT_ROW_REPAIR : Nat := 0x128
/-- R284 (Table 10-9). -/
abbrev MEM_EVT_INNER_HIGH : Nat := 0x12c
/-- R284 (Table 10-9). -/
abbrev MEM_EVT_RETIRE_BLOCKED : Nat := 0x130
/-- R284 (Table 10-9). -/
abbrev MEM_EVT_POISON_WRITE : Nat := 0x134
/-- R284 (Table 10-9). -/
abbrev MEM_CORR_LINES : Nat := 0x140
/-- R284 (Table 10-9). -/
abbrev MEM_CORR_BYTES : Nat := 0x148
/-- R284 (Table 10-9). -/
abbrev MEM_UNCORR_LINES : Nat := 0x150
/-- R284 (Table 10-9). -/
abbrev MEM_INNER_CORR : Nat := 0x158
/-- R284 (Table 10-9). -/
abbrev MEM_PATROL_PASSES : Nat := 0x160

/-! Registers of a CXL page. -/

/-- R284 (Table 10-10). -/
abbrev CXL_STATUS : Nat := 0x100
/-- R284 (Table 10-10). -/
abbrev CXL_EVENTS : Nat := 0x104
/-- R284 (Table 10-10). -/
abbrev CXL_CAP : Nat := 0x108
/-- R284 (Table 10-10). -/
abbrev CXL_CACHE : Nat := 0x10c
/-- R284 (Table 10-10). -/
abbrev CXL_DIRTY : Nat := 0x110
/-- R284 (Table 10-10). -/
abbrev CXL_PATROL : Nat := 0x114
/-- R284 (Table 10-10). -/
abbrev CXL_MODE : Nat := 0x118
/-- R284 (Table 10-10). -/
abbrev CXL_POISON : Nat := 0x11c
/-- R284 (Table 10-10). -/
abbrev CXL_EVT_CORR : Nat := 0x120
/-- R284 (Table 10-10). -/
abbrev CXL_EVT_UNCORR : Nat := 0x124
/-- R284 (Table 10-10). -/
abbrev CXL_EVT_LINK_RETRY : Nat := 0x128
/-- R284 (Table 10-10). -/
abbrev CXL_EVT_CACHE_FULL : Nat := 0x12c
/-- R284 (Table 10-10). -/
abbrev CXL_EVT_DEVICE_SLOW : Nat := 0x130
/-- R284 (Table 10-10). -/
abbrev CXL_EVT_ATTACH_CHANGE : Nat := 0x134
/-- R284 (Table 10-10). -/
abbrev CXL_EVT_POISON_FULL : Nat := 0x138
/-- R284 (Table 10-10). -/
abbrev CXL_CORR_LINES : Nat := 0x140
/-- R284 (Table 10-10). -/
abbrev CXL_UNCORR_LINES : Nat := 0x148
/-- R284 (Table 10-10). -/
abbrev CXL_DRAINED_BYTES : Nat := 0x150
/-- R284 (Table 10-10). -/
abbrev CXL_PRELOAD_BYTES : Nat := 0x158

/-! Registers of a VAT page. -/

/-- R300 (Table 11-7). -/
abbrev VAT_STATUS : Nat := 0x100
/-- R300 (Table 11-7). -/
abbrev VAT_EVENTS : Nat := 0x104
/-- R300 (Table 11-7). -/
abbrev VAT_LAST_ERR : Nat := 0x108
/-- R300 (Table 11-7). -/
abbrev VAT_POOL_SEL : Nat := 0x10c
/-- R300 (Table 11-7). -/
abbrev VAT_POOL_BASE : Nat := 0x110
/-- R300 (Table 11-7). -/
abbrev VAT_POOL_COUNT : Nat := 0x118
/-- R300 (Table 11-7). -/
abbrev VAT_POOL_FREE : Nat := 0x11c
/-- R300 (Table 11-7). -/
abbrev VAT_POOL_WITHHELD : Nat := 0x120
/-- R300 (Table 11-7). -/
abbrev VAT_QUOTA_SEL : Nat := 0x124
/-- R300 (Table 11-7). -/
abbrev VAT_QUOTA_LIMIT : Nat := 0x128
/-- R300 (Table 11-7). -/
abbrev VAT_QUOTA_USED : Nat := 0x130
/-- R300 (Table 11-7). -/
abbrev VAT_EVT_FALLBACK : Nat := 0x140
/-- R300 (Table 11-7). -/
abbrev VAT_EVT_POOL_EMPTY : Nat := 0x144
/-- R300 (Table 11-7). -/
abbrev VAT_EVT_QUOTA_WAIT : Nat := 0x148
/-- R300 (Table 11-7). -/
abbrev VAT_EVT_CHECK_FAIL : Nat := 0x14c
/-- R300 (Table 11-7). -/
abbrev VAT_EVT_GEN_WRAP : Nat := 0x150
/-- R300 (Table 11-7). -/
abbrev VAT_ISSUES : Nat := 0x158
/-- R300 (Table 11-7). -/
abbrev VAT_RELEASES : Nat := 0x160
/-- R300 (Table 11-7). -/
abbrev VAT_WASTE_BYTES : Nat := 0x168
/-- R300 (Table 11-7). -/
abbrev VAT_TL_EVENTS (t : Nat) : Nat := 0x180 + 4 * t
/-- R300 (Table 11-7). -/
abbrev VAT_TL_CYCLES (t : Nat) : Nat := 0x190 + 8 * t

/-! Registers of the device page. -/

/-- R335 (Table 12-8). -/
abbrev BOL_PLACE : Nat := 0x400
/-- R335 (Table 12-8). -/
abbrev BOL_POD_SHAPE : Nat := 0x404
/-- R335 (Table 12-8). -/
abbrev BOL_FABRIC_CFG : Nat := 0x408
/-- R335 (Table 12-8). -/
abbrev BOL_EVENTS : Nat := 0x40c
/-- R335 (Table 12-8). -/
abbrev BOL_HOT : Nat := 0x410
/-- R335 (Table 12-8). -/
abbrev BOL_EVT_SATURATED : Nat := 0x420
/-- R335 (Table 12-8). -/
abbrev BOL_EVT_ESCAPE : Nat := 0x424
/-- R335 (Table 12-8). -/
abbrev BOL_EVT_FENCE_TIMEOUT : Nat := 0x428
/-- R335 (Table 12-8). -/
abbrev BOL_EVT_FENCE_STALE : Nat := 0x42c
/-- R335 (Table 12-8). -/
abbrev BOL_EVT_HDR_DROP : Nat := 0x430
/-- R335 (Table 12-8). -/
abbrev BOL_EVT_POD_UNREACHABLE : Nat := 0x434
/-- R335 (Table 12-8). -/
abbrev BOL_HALL_PREFIX : Nat := 0x440
/-- R335 (Table 12-8). -/
abbrev BOL_HDR_DROPPED : Nat := 0x450
/-- R335 (Table 12-8). -/
abbrev BOL_ESCAPED : Nat := 0x458
/-- R335 (Table 12-8). -/
abbrev BOL_FENCE_HELD : Nat := 0x460

/-! Registers of a BOL page. -/

/-- R336 (Table 12-10). -/
abbrev BOL_PORT_STATUS : Nat := 0x100
/-- R336 (Table 12-10). -/
abbrev BOL_PORT_EVENTS : Nat := 0x104
/-- R336 (Table 12-10). -/
abbrev BOL_PARTNER : Nat := 0x108
/-- R336 (Table 12-10). -/
abbrev BOL_SPARE_ROLE : Nat := 0x10c
/-- R336 (Table 12-10). -/
abbrev BOL_INJECT : Nat := 0x110
/-- R336 (Table 12-10). -/
abbrev BOL_INJECT_SEED : Nat := 0x114
/-- R336 (Table 12-10). -/
abbrev BOL_LANE_CTL : Nat := 0x118
/-- R336 (Table 12-10). -/
abbrev BOL_EVT_RETRY : Nat := 0x120
/-- R336 (Table 12-10). -/
abbrev BOL_EVT_RETRAIN : Nat := 0x124
/-- R336 (Table 12-10). -/
abbrev BOL_EVT_DEGRADE : Nat := 0x128
/-- R336 (Table 12-10). -/
abbrev BOL_EVT_DOWN : Nat := 0x12c
/-- R336 (Table 12-10). -/
abbrev BOL_EVT_MISWIRED : Nat := 0x130
/-- R336 (Table 12-10). -/
abbrev BOL_EVT_AUTH_FAIL : Nat := 0x134
/-- R336 (Table 12-10). -/
abbrev BOL_EVT_INJECTED : Nat := 0x138
/-- R336 (Table 12-10). -/
abbrev BOL_TX_PACKETS : Nat := 0x140
/-- R336 (Table 12-10). -/
abbrev BOL_TX_BYTES : Nat := 0x148
/-- R336 (Table 12-10). -/
abbrev BOL_RX_PACKETS : Nat := 0x150
/-- R336 (Table 12-10). -/
abbrev BOL_FEC_CORR : Nat := 0x158
/-- R336 (Table 12-10). -/
abbrev BOL_FEC_UNCORR : Nat := 0x160
/-- R336 (Table 12-10). -/
abbrev BOL_DEFLECTED_OUT : Nat := 0x168
/-- R336 (Table 12-10). -/
abbrev BOL_REFUSED : Nat := 0x170
/-- R336 (Table 12-10). -/
abbrev BOL_ESCAPE_OUT : Nat := 0x178
/-- R336 (Table 12-10). -/
abbrev BOL_LANE_SYMERR (l : Nat) : Nat := 0x180 + 8 * l

/-! Registers of an ETH page. -/

/-- R336 (Table 12-12). -/
abbrev ETH_STATUS : Nat := 0x100
/-- R336 (Table 12-12). -/
abbrev ETH_EVENTS : Nat := 0x104
/-- R336 (Table 12-12). -/
abbrev ETH_EVT_RX_DROP : Nat := 0x110
/-- R336 (Table 12-12). -/
abbrev ETH_TX_PACKETS : Nat := 0x118
/-- R336 (Table 12-12). -/
abbrev ETH_RX_PACKETS : Nat := 0x120

/-! Registers of a partition page. -/

/-- R351 (Table 13-10). -/
abbrev CTL_RMT_EVENTS : Nat := 0x300
/-- R351 (Table 13-10). -/
abbrev CTL_RMT_LAST_REFUSE : Nat := 0x304
/-- R351 (Table 13-10). -/
abbrev CTL_RMT_QUERY_CFG : Nat := 0x308
/-- R351 (Table 13-10). -/
abbrev CTL_RMT_TEARDOWN : Nat := 0x30c
/-- R351 (Table 13-10). -/
abbrev CTL_EVT_STALE_REQUEST : Nat := 0x310
/-- R351 (Table 13-10). -/
abbrev CTL_EVT_REFUSED : Nat := 0x314
/-- R351 (Table 13-10). -/
abbrev CTL_EVT_STAGE_FULL : Nat := 0x318
/-- R351 (Table 13-10). -/
abbrev CTL_EVT_PUBLISH_DROP : Nat := 0x31c
/-- R351 (Table 13-10). -/
abbrev CTL_EVT_QUERY : Nat := 0x320
/-- R351 (Table 13-10). -/
abbrev CTL_EVT_TEARDOWN : Nat := 0x324
/-- R351 (Table 13-10). -/
abbrev CTL_RMT_STAGED_BYTES : Nat := 0x328
/-- R351 (Table 13-10). -/
abbrev CTL_RMT_PUBLISHED_BYTES : Nat := 0x330
/-- R351 (Table 13-10). -/
abbrev CTL_RMT_LOADS_SERVED : Nat := 0x338

/-! Registers of a SWM page. -/

/-- R372 (Table 14-7). -/
abbrev SWM_COL_EVENTS : Nat := 0x200
/-- R372 (Table 14-7). -/
abbrev SWM_COL_SEL : Nat := 0x204
/-- R372 (Table 14-7). -/
abbrev SWM_COL_BIND : Nat := 0x208
/-- R372 (Table 14-7). -/
abbrev SWM_COL_SLOW : Nat := 0x20c
/-- R372 (Table 14-7). -/
abbrev SWM_COL_SLOW_FRAME : Nat := 0x210
/-- R372 (Table 14-7). -/
abbrev SWM_COL_LATE_NS : Nat := 0x218
/-- R372 (Table 14-7). -/
abbrev SWM_COL_GAP_NS : Nat := 0x220
/-- R372 (Table 14-7). -/
abbrev SWM_COL_LATE_FOLDS : Nat := 0x228
/-- R372 (Table 14-7). -/
abbrev SWM_EVT_COL_LATE : Nat := 0x230
/-- R372 (Table 14-7). -/
abbrev SWM_EVT_COL_SAT : Nat := 0x234
/-- R372 (Table 14-7). -/
abbrev SWM_EVT_COL_RESEND : Nat := 0x238
/-- R372 (Table 14-7). -/
abbrev SWM_EVT_COL_DROP : Nat := 0x23c
/-- R372 (Table 14-7). -/
abbrev SWM_COL_FOLDS : Nat := 0x240
/-- R372 (Table 14-7). -/
abbrev SWM_COL_BYTES : Nat := 0x248

/-! Registers of a partition page. -/

/-- R400 (Table 15-9). -/
abbrev CTL_PART_COMBS : Nat := 0x400
/-- R400 (Table 15-9). -/
abbrev CTL_PART_PORTS : Nat := 0x404
/-- R400 (Table 15-9). -/
abbrev CTL_PART_SLICES : Nat := 0x408
/-- R400 (Table 15-9). -/
abbrev CTL_SCHED_CFG : Nat := 0x410
/-- R400 (Table 15-9). -/
abbrev CTL_SCHED_NOW : Nat := 0x414
/-- R400 (Table 15-9). -/
abbrev CTL_SCHED_NEXT : Nat := 0x418
/-- R400 (Table 15-9). -/
abbrev CTL_SCHED_SLICE : Nat := 0x41c
/-- R400 (Table 15-9). -/
abbrev CTL_SCHED_EVENTS : Nat := 0x420
/-- R400 (Table 15-9). -/
abbrev CTL_EVT_NAME_LATE : Nat := 0x430
/-- R400 (Table 15-9). -/
abbrev CTL_EVT_SWITCH : Nat := 0x434
/-- R400 (Table 15-9). -/
abbrev CTL_EVT_IDLE_FRAME : Nat := 0x438
/-- R400 (Table 15-9). -/
abbrev CTL_EVT_PARITY_HOLD : Nat := 0x43c

/-! Registers of a CTL page. -/

/-- R401 (Table 15-11). -/
abbrev CTL_CX_STATUS : Nat := 0x100
/-- R401 (Table 15-11). -/
abbrev CTL_CX_EVENTS : Nat := 0x104
/-- R401 (Table 15-11). -/
abbrev CTL_CX_LAST_FAULT : Nat := 0x108
/-- R401 (Table 15-11). -/
abbrev CTL_HEARTBEAT : Nat := 0x10c
/-- R401 (Table 15-11). -/
abbrev CTL_COMP_SEL : Nat := 0x110
/-- R401 (Table 15-11). -/
abbrev CTL_COMP_VERSION : Nat := 0x114
/-- R401 (Table 15-11). -/
abbrev CTL_CTX_SEL : Nat := 0x118
/-- R401 (Table 15-11). -/
abbrev CTL_CTX_STATE : Nat := 0x11c
/-- R401 (Table 15-11). -/
abbrev CTL_CTX_SLICE : Nat := 0x120
/-- R401 (Table 15-11). -/
abbrev CTL_CTX_APPLIED : Nat := 0x124
/-- R401 (Table 15-11). -/
abbrev CTL_CTX_LAST_RUN : Nat := 0x128
/-- R401 (Table 15-11). -/
abbrev CTL_EVT_COMP_RESTART : Nat := 0x130
/-- R401 (Table 15-11). -/
abbrev CTL_EVT_PMP_FAULT : Nat := 0x134
/-- R401 (Table 15-11). -/
abbrev CTL_EVT_SWITCHOVER : Nat := 0x138
/-- R401 (Table 15-11). -/
abbrev CTL_EVT_INBOX_FULL : Nat := 0x13c
/-- R401 (Table 15-11). -/
abbrev CTL_EVT_HEARTBEAT_LOST : Nat := 0x140
/-- R401 (Table 15-11). -/
abbrev CTL_COMMANDS : Nat := 0x148
/-- R401 (Table 15-11). -/
abbrev CTL_COMPLETIONS : Nat := 0x150

/-! Registers of an HXV page. -/

/-- R418 (Table 16-7). -/
abbrev HXV_STATUS : Nat := 0x100
/-- R418 (Table 16-7). -/
abbrev HXV_EVENTS : Nat := 0x104
/-- R418 (Table 16-7). -/
abbrev HXV_INJECT : Nat := 0x108
/-- R418 (Table 16-7). -/
abbrev HXV_INJECT_SEED : Nat := 0x10c
/-- R418 (Table 16-7). -/
abbrev HXV_INJECT_CLASS : Nat := 0x110
/-- R418 (Table 16-7). -/
abbrev HXV_CPL_QUEUE : Nat := 0x114
/-- R418 (Table 16-7). -/
abbrev HXV_LAST_SEQ : Nat := 0x118
/-- R418 (Table 16-7). -/
abbrev HXV_EVT_RETRY : Nat := 0x120
/-- R418 (Table 16-7). -/
abbrev HXV_EVT_RETRAIN : Nat := 0x124
/-- R418 (Table 16-7). -/
abbrev HXV_EVT_DEGRADE : Nat := 0x128
/-- R418 (Table 16-7). -/
abbrev HXV_EVT_DOWN : Nat := 0x12c
/-- R418 (Table 16-7). -/
abbrev HXV_EVT_AUTH_FAIL : Nat := 0x130
/-- R418 (Table 16-7). -/
abbrev HXV_EVT_HDR_DROP : Nat := 0x134
/-- R418 (Table 16-7). -/
abbrev HXV_EVT_CPL_OVERFLOW : Nat := 0x138
/-- R418 (Table 16-7). -/
abbrev HXV_EVT_INJECTED : Nat := 0x13c
/-- R418 (Table 16-7). -/
abbrev HXV_TX_BYTES : Nat := 0x140
/-- R418 (Table 16-7). -/
abbrev HXV_RX_BYTES : Nat := 0x148
/-- R418 (Table 16-7). -/
abbrev HXV_FEC_CORR : Nat := 0x150
/-- R418 (Table 16-7). -/
abbrev HXV_FEC_UNCORR : Nat := 0x158
/-- R418 (Table 16-7). -/
abbrev HXV_CPL_LOST : Nat := 0x160
/-- R418 (Table 16-7). -/
abbrev HXV_LANE_SYMERR (l : Nat) : Nat := 0x180 + 8 * l

/-! Registers of the BUP page. -/

/-- R450 (Table 17-11). -/
abbrev BUP_STATUS : Nat := 0x100
/-- R450 (Table 17-11). -/
abbrev BUP_EVENTS : Nat := 0x104
/-- R450 (Table 17-11). -/
abbrev BUP_BOOT_CFG : Nat := 0x108
/-- R450 (Table 17-11). -/
abbrev BUP_LAST_FAIL : Nat := 0x10c
/-- R450 (Table 17-11). -/
abbrev BUP_READY_US : Nat := 0x110
/-- R450 (Table 17-11). -/
abbrev BUP_WAIT_IMAGE_US : Nat := 0x114
/-- R450 (Table 17-11). -/
abbrev BUP_REPAIR_CMD : Nat := 0x118
/-- R450 (Table 17-11). -/
abbrev BUP_REPAIR_STATUS : Nat := 0x11c
/-- R450 (Table 17-11). -/
abbrev BUP_MAP_SEL : Nat := 0x120
/-- R450 (Table 17-11). -/
abbrev BUP_MAP : Nat := 0x124
/-- R450 (Table 17-11). -/
abbrev BUP_BCAST_STATUS : Nat := 0x128
/-- R450 (Table 17-11). -/
abbrev BUP_BCAST_HANDLE : Nat := 0x12c
/-- R450 (Table 17-11). -/
abbrev BUP_JOURNAL : Nat := 0x130
/-- R450 (Table 17-11). -/
abbrev BUP_JOURNAL_SEQ : Nat := 0x134
/-- R450 (Table 17-11). -/
abbrev BUP_EVT_SELFTEST_FAIL : Nat := 0x140
/-- R450 (Table 17-11). -/
abbrev BUP_EVT_SPARED : Nat := 0x144
/-- R450 (Table 17-11). -/
abbrev BUP_EVT_NO_SPARE : Nat := 0x148
/-- R450 (Table 17-11). -/
abbrev BUP_EVT_ABSORBED : Nat := 0x14c
/-- R450 (Table 17-11). -/
abbrev BUP_EVT_WARM_FALLBACK : Nat := 0x150
/-- R450 (Table 17-11). -/
abbrev BUP_EVT_BCAST_REATTACH : Nat := 0x154
/-- R450 (Table 17-11). -/
abbrev BUP_EVT_BCAST_PULL : Nat := 0x158
/-- R450 (Table 17-11). -/
abbrev BUP_EVT_BCAST_BAD : Nat := 0x15c
/-- R450 (Table 17-11). -/
abbrev BUP_EVT_JOURNAL_BAD : Nat := 0x160
/-- R450 (Table 17-11). -/
abbrev BUP_EVT_PATH_LATE : Nat := 0x164
/-- R450 (Table 17-11). -/
abbrev BUP_ABSORBED : Nat := 0x168
/-- R450 (Table 17-11). -/
abbrev BUP_BCAST_CHUNKS : Nat := 0x170
/-- R450 (Table 17-11). -/
abbrev BUP_EVT_BCAST_BAD_CHUNK : Nat := 0x178
/-- R450 (Table 17-11). -/
abbrev BUP_EVT_BCAST_DONE : Nat := 0x17c

/-! Registers of the TIM page. -/

/-- R470 (Table 18-6). -/
abbrev TIM_HALL_TIME : Nat := 0x100
/-- R470 (Table 18-6). -/
abbrev TIM_STATUS : Nat := 0x108
/-- R470 (Table 18-6). -/
abbrev TIM_EVENTS : Nat := 0x10c
/-- R470 (Table 18-6). -/
abbrev TIM_OFFSET : Nat := 0x110
/-- R470 (Table 18-6). -/
abbrev TIM_RATE_ADJ : Nat := 0x114
/-- R470 (Table 18-6). -/
abbrev TIM_PORT_SEL : Nat := 0x118
/-- R470 (Table 18-6). -/
abbrev TIM_PORT_OFFSET : Nat := 0x11c
/-- R470 (Table 18-6). -/
abbrev TIM_EVT_HOLDOVER : Nat := 0x120
/-- R470 (Table 18-6). -/
abbrev TIM_EVT_UNLOCKED : Nat := 0x124
/-- R470 (Table 18-6). -/
abbrev TIM_EVT_TIME_FAULT : Nat := 0x128
/-- R470 (Table 18-6). -/
abbrev TIM_EVT_TIME_DISAGREE : Nat := 0x12c
/-- R470 (Table 18-6). -/
abbrev TIM_EVT_PULSE_VOID : Nat := 0x130
/-- R470 (Table 18-6). -/
abbrev TIM_LS_CTL : Nat := 0x140
/-- R470 (Table 18-6). -/
abbrev TIM_LS_STATUS : Nat := 0x144
/-- R470 (Table 18-6). -/
abbrev TIM_LS_EVENTS : Nat := 0x148
/-- R470 (Table 18-6). -/
abbrev TIM_LS_DIV_ORDINAL : Nat := 0x150
/-- R470 (Table 18-6). -/
abbrev TIM_LS_DIV_WHERE : Nat := 0x158
/-- R470 (Table 18-6). -/
abbrev TIM_LS_DIV_BLOCK : Nat := 0x15c
/-- R470 (Table 18-6). -/
abbrev TIM_LS_DIV_CTX : Nat := 0x160
/-- R470 (Table 18-6). -/
abbrev TIM_EVT_LS_DIVERGED : Nat := 0x170
/-- R470 (Table 18-6). -/
abbrev TIM_EVT_LS_WAIT : Nat := 0x174
/-- R470 (Table 18-6). -/
abbrev TIM_EVT_LS_END : Nat := 0x178
/-- R470 (Table 18-6). -/
abbrev TIM_EVT_LS_REFUSED : Nat := 0x17c
/-- R470 (Table 18-6). -/
abbrev TIM_EVT_LS_LOG_OVERFLOW : Nat := 0x180
/-- R470 (Table 18-6). -/
abbrev TIM_LS_COMPARED : Nat := 0x188
/-- R470 (Table 18-6). -/
abbrev TIM_LS_WAIT_FRAMES : Nat := 0x190

/-! Registers of a SEC page. -/

/-- R493 (Table 19-9). -/
abbrev SEC_STATUS : Nat := 0x100
/-- R493 (Table 19-9). -/
abbrev SEC_EVENTS : Nat := 0x104
/-- R493 (Table 19-9). -/
abbrev SEC_POLICY : Nat := 0x108
/-- R493 (Table 19-9). -/
abbrev SEC_LINK_POLICY : Nat := 0x10c
/-- R493 (Table 19-9). -/
abbrev SEC_DEVICE_ID : Nat := 0x110
/-- R493 (Table 19-9). -/
abbrev SEC_SVN : Nat := 0x130
/-- R493 (Table 19-9). -/
abbrev SEC_LOG_SEQ : Nat := 0x134
/-- R493 (Table 19-9). -/
abbrev SEC_LOG_SEL : Nat := 0x138
/-- R493 (Table 19-9). -/
abbrev SEC_LAST_PORT : Nat := 0x13c
/-- R493 (Table 19-9). -/
abbrev SEC_LOG_DATA : Nat := 0x140
/-- R493 (Table 19-9). -/
abbrev SEC_PROP_REQ : Nat := 0x180
/-- R493 (Table 19-9). -/
abbrev SEC_PROP_GO : Nat := 0x1c0
/-- R493 (Table 19-9). -/
abbrev SEC_PROP_STATUS : Nat := 0x1c4
/-- R493 (Table 19-9). -/
abbrev SEC_ATT_CTL : Nat := 0x1c8
/-- R493 (Table 19-9). -/
abbrev SEC_ATT_STATUS : Nat := 0x1cc
/-- R493 (Table 19-9). -/
abbrev SEC_ATT_SIZE : Nat := 0x1d0
/-- R493 (Table 19-9). -/
abbrev SEC_ATT_NONCE : Nat := 0x1e0
/-- R493 (Table 19-9). -/
abbrev SEC_ATT_WIN_OFFSET : Nat := 0x200
/-- R493 (Table 19-9). -/
abbrev SEC_EVT_SIG_FAIL : Nat := 0x210
/-- R493 (Table 19-9). -/
abbrev SEC_EVT_TAG_FAIL : Nat := 0x214
/-- R493 (Table 19-9). -/
abbrev SEC_EVT_PARTNER_REFUSED : Nat := 0x218
/-- R493 (Table 19-9). -/
abbrev SEC_EVT_PROP_REFUSED : Nat := 0x21c
/-- R493 (Table 19-9). -/
abbrev SEC_EVT_LOG_FOLDED : Nat := 0x220
/-- R493 (Table 19-9). -/
abbrev SEC_EVT_ATT_REFUSED : Nat := 0x224
/-- R493 (Table 19-9). -/
abbrev SEC_REPORTS : Nat := 0x228
/-- R493 (Table 19-9). -/
abbrev SEC_ATT_WIN_DATA : Nat := 0x300

/-! Registers of the PWR page. -/

/-- R509 (Table 20-9). -/
abbrev PWR_STATUS : Nat := 0x100
/-- R509 (Table 20-9). -/
abbrev PWR_EVENTS : Nat := 0x104
/-- R509 (Table 20-9). -/
abbrev PWR_CLOCK_NEXT : Nat := 0x108
/-- R509 (Table 20-9). -/
abbrev PWR_CLOCK_SWITCH : Nat := 0x110
/-- R509 (Table 20-9). -/
abbrev PWR_PKG_LIMIT : Nat := 0x118
/-- R509 (Table 20-9). -/
abbrev PWR_PKG_POWER : Nat := 0x11c
/-- R509 (Table 20-9). -/
abbrev PWR_DOM_SEL : Nat := 0x120
/-- R509 (Table 20-9). -/
abbrev PWR_DOM_CTL : Nat := 0x124
/-- R509 (Table 20-9). -/
abbrev PWR_DOM_STATUS : Nat := 0x128
/-- R509 (Table 20-9). -/
abbrev PWR_DOM_ON : Nat := 0x130
/-- R509 (Table 20-9). -/
abbrev PWR_DOM_ON_HI : Nat := 0x138
/-- R509 (Table 20-9). -/
abbrev PWR_DUTY_SEL : Nat := 0x140
/-- R509 (Table 20-9). -/
abbrev PWR_DUTY : Nat := 0x144
/-- R509 (Table 20-9). -/
abbrev PWR_TEMP_SEL : Nat := 0x148
/-- R509 (Table 20-9). -/
abbrev PWR_TEMP : Nat := 0x14c
/-- R509 (Table 20-9). -/
abbrev PWR_TEMP_PEAK : Nat := 0x150
/-- R509 (Table 20-9). -/
abbrev PWR_EVT_FAST_THROTTLE : Nat := 0x160
/-- R509 (Table 20-9). -/
abbrev PWR_EVT_THERM_WARN : Nat := 0x164
/-- R509 (Table 20-9). -/
abbrev PWR_EVT_THERM_THROTTLE : Nat := 0x168
/-- R509 (Table 20-9). -/
abbrev PWR_EVT_CLOCK_REFUSED : Nat := 0x16c
/-- R509 (Table 20-9). -/
abbrev PWR_EVT_CLOCK_CHANGE : Nat := 0x170
/-- R509 (Table 20-9). -/
abbrev PWR_CAP_CYCLES : Nat := 0x178

/-! Registers of the device page. -/

/-- R513 (Table 21-3). -/
abbrev CTL_HLT_SUMMARY : Nat := 0x600
/-- R513 (Table 21-3). -/
abbrev CTL_HLT_EVENTS : Nat := 0x604
/-- R513 (Table 21-3). -/
abbrev CTL_HLT_COUNT_MASK : Nat := 0x608
/-- R513 (Table 21-3). -/
abbrev CTL_HLT_LAST : Nat := 0x60c
/-- R513 (Table 21-3). -/
abbrev CTL_EVT_CLASS (c : Nat) : Nat := 0x610 + 4 * (c - 1)
/-- R513 (Table 21-3). -/
abbrev CTL_INJ_CTL : Nat := 0x630
/-- R513 (Table 21-3). -/
abbrev CTL_INJ_ADDR : Nat := 0x638
/-- R513 (Table 21-3). -/
abbrev CTL_INJ_STATUS : Nat := 0x640
/-- R513 (Table 21-3). -/
abbrev CTL_EVT_INJECTED : Nat := 0x644

/-! Registers of a partition page. -/

/-- R517 (Table 21-5). -/
abbrev CTL_TRACE_CTL : Nat := 0x500
/-- R517 (Table 21-5). -/
abbrev CTL_TRACE_BASE : Nat := 0x504
/-- R517 (Table 21-5). -/
abbrev CTL_TRACE_BYTES : Nat := 0x508
/-- R517 (Table 21-5). -/
abbrev CTL_TRACE_STATUS : Nat := 0x50c
/-- R517 (Table 21-5). -/
abbrev CTL_TRACE_HEAD : Nat := 0x510
/-- R517 (Table 21-5). -/
abbrev CTL_EVT_TRACE_DROP : Nat := 0x514

/-! Registers of the TIM page. -/

/-- R471 (R471). -/
abbrev TIM_LS_LOG : Nat := 0x14c

end Reg

/-- The kind of page a unit path names (R46, R47; block types of Table 02-3). -/
inductive PageKind where
  | device | die | comb | cell | partition | block (type : Nat) | physCell | physComb | absent
  deriving DecidableEq, Repr

/-- The page kind of a unit path (Table 02-2). -/
def pageKind (u : Nat) : PageKind :=
  let i := u % 1024
  match u / 1024 with
  | 0 => if i = 0 then .device else .absent
  | 1 => if i < 6 then .die else .absent
  | 2 => if i < 32 then .comb else .absent
  | 3 => if i < 256 then .cell else .absent
  | 4 => if i < 16 then .partition else .absent
  | 5 => if i / 32 < 15 then .block (i / 32) else .absent
  | 6 => if i < 288 then .physCell else if i < 324 then .physComb else .absent
  | _ => .absent

/-- Reset values that are not 0, of the registers past the header, per page kind. -/
def ownReset : PageKind → List (Nat × Nat)
  | .partition => [(Reg.CTL_FRAME_ACTIVE, 0x303), (Reg.CTL_FRAME_NEXT, 0x10003), (Reg.CTL_RMT_QUERY_CFG,
    0x4), (Reg.CTL_SCHED_CFG, 0x10), (Reg.CTL_SCHED_NEXT, 0x100)]
  | .device => [(Reg.CTL_CAP_CLOCKS, 0x7), (Reg.CTL_CAP_SPARES, 0x8080808), (Reg.BOL_POD_SHAPE, 0x1),
    (Reg.BOL_FABRIC_CFG, 0x1000008)]
  | .block 1 => [(Reg.WGL_CAPACITY, 0x4004000)]
  | .block 6 => [(Reg.MEM_STATE, 0x4000), (Reg.MEM_PATROL, 0x8)]
  | .block 7 => [(Reg.CXL_CACHE, 0x4), (Reg.CXL_PATROL, 0x48), (Reg.CXL_MODE, 0x3)]
  | .block 9 => [(Reg.HXV_LAST_SEQ, 0xffff)]
  | .block 11 => [(Reg.TIM_LS_STATUS, 0x40000), (Reg.TIM_LS_LOG, 0x400)]
  | .block 12 => [(Reg.SEC_POLICY, 0x2), (Reg.SEC_LINK_POLICY, 0x5)]
  | .block 13 => [(Reg.PWR_PKG_LIMIT, 0x7d0), (Reg.PWR_DUTY, 0x10)]
  | _ => []

/-- The 64-bit registers of a page kind: the offsets at which one starts (R61). -/
def wideOffs : PageKind → List Nat
  | .partition => [Reg.CTL_FRAME_SWITCH, Reg.CTL_TICK_TIME, Reg.CTL_RMT_STAGED_BYTES,
    Reg.CTL_RMT_PUBLISHED_BYTES, Reg.CTL_RMT_LOADS_SERVED, Reg.CTL_PART_SLICES]
    ++ (List.range 5).map (fun i => Reg.CTL_DIST_CYCLES (i + 1)) ++ (List.range 5).map (fun i => Reg.CTL_DIST_CYCLES (i + 1) + 0x100)
  | .cell => [Reg.CEL_LAG_CYCLES, Reg.CEL_PASS_COUNT, Reg.CEL_STEP_COUNT, Reg.CEL_GATED_STEPS,
    Reg.CEL_RECORDS_ISSUED, Reg.CEL_REMOTE_LATE_CYCLES, Reg.CAL_DRAINS, Reg.CAL_STOCH_ELEMENTS,
    Reg.CEL_SP_DROPPED_DECL, Reg.CEL_SP_DROPPED_B, Reg.CEL_SP_DROPPED_RANGE, Reg.CEL_SP_TRUNC_SEGMENTS,
    Reg.CEL_SP_PASSES, Reg.CEL_SP_SEGMENTS]
  | .comb => [Reg.CMB_BCAST_WAIT_CYCLES]
  | .block 1 => [Reg.WGL_KEYS, Reg.WGL_NAN_SCORES, Reg.WGL_FLOOR_REJECTS, Reg.WGL_SELECTED,
    Reg.WGL_SECOND_SELECTED, Reg.WGL_UNFILLED_PLACES, Reg.WGL_UNROUTED_TOKENS, Reg.WGL_BLOCKS_DROPPED,
    Reg.WGL_LATE_CYCLES, Reg.WGL_JOBS]
  | .block 2 => [Reg.SWM_UNITS_SENT, Reg.SWM_BYTES_SENT, Reg.SWM_UNITS_LANDED, Reg.SWM_PACKETS_DROPPED,
    Reg.SWM_LATE_CYCLES, Reg.SWM_COMBINE_DROPPED, Reg.SWM_ROWS_COMBINED, Reg.SWM_COL_LATE_NS,
    Reg.SWM_COL_GAP_NS, Reg.SWM_COL_LATE_FOLDS, Reg.SWM_COL_FOLDS, Reg.SWM_COL_BYTES]
  | .block 5 => [Reg.BRD_SLOT_READY, Reg.BRD_REAMS, Reg.BRD_ROWS]
  | .block 3 => [Reg.FOR_BYTES, Reg.FOR_ENTRIES, Reg.FOR_REFETCH_CHUNKS]
    ++ (List.range 24).map (fun i => Reg.FOR_TL_CYCLES 1 1 + 8 * i)
  | .block 6 => [Reg.MEM_ERR_ADDR, Reg.MEM_CORR_LINES, Reg.MEM_CORR_BYTES, Reg.MEM_UNCORR_LINES,
    Reg.MEM_INNER_CORR, Reg.MEM_PATROL_PASSES]
  | .block 7 => [Reg.CXL_CORR_LINES, Reg.CXL_UNCORR_LINES, Reg.CXL_DRAINED_BYTES, Reg.CXL_PRELOAD_BYTES]
  | .block 4 => [Reg.VAT_POOL_BASE, Reg.VAT_QUOTA_LIMIT, Reg.VAT_QUOTA_USED, Reg.VAT_ISSUES,
    Reg.VAT_RELEASES, Reg.VAT_WASTE_BYTES]
    ++ (List.range 4).map Reg.VAT_TL_CYCLES
  | .device => [Reg.BOL_HDR_DROPPED, Reg.BOL_ESCAPED, Reg.BOL_FENCE_HELD, Reg.CTL_INJ_ADDR]
  | .block 8 => [Reg.BOL_TX_PACKETS, Reg.BOL_TX_BYTES, Reg.BOL_RX_PACKETS, Reg.BOL_FEC_CORR,
    Reg.BOL_FEC_UNCORR, Reg.BOL_DEFLECTED_OUT, Reg.BOL_REFUSED, Reg.BOL_ESCAPE_OUT]
    ++ (List.range 4).map Reg.BOL_LANE_SYMERR
  | .block 10 => [Reg.ETH_TX_PACKETS, Reg.ETH_RX_PACKETS]
  | .block 0 => [Reg.CTL_COMMANDS, Reg.CTL_COMPLETIONS]
  | .block 9 => [Reg.HXV_TX_BYTES, Reg.HXV_RX_BYTES, Reg.HXV_FEC_CORR, Reg.HXV_FEC_UNCORR, Reg.HXV_CPL_LOST]
    ++ (List.range 8).map Reg.HXV_LANE_SYMERR
  | .block 14 => [Reg.BUP_ABSORBED, Reg.BUP_BCAST_CHUNKS]
  | .block 11 => [Reg.TIM_HALL_TIME, Reg.TIM_LS_DIV_ORDINAL, Reg.TIM_LS_COMPARED, Reg.TIM_LS_WAIT_FRAMES]
  | .block 12 => [Reg.SEC_REPORTS]
  | .block 13 => [Reg.PWR_CLOCK_SWITCH, Reg.PWR_DOM_ON, Reg.PWR_CAP_CYCLES]
  | _ => []

/-- The event counts of a page that a reset of the unit keeps (Table 17-8), past the header. -/
def countOffs : PageKind → List Nat
  | .cell => [Reg.CEL_EVT_FEED_LATE, Reg.CEL_EVT_DRAIN_LATE, Reg.CEL_EVT_SKEW_LIMIT, Reg.CEL_EVT_DECKLE_CLAMP,
    Reg.CEL_EVT_CMD_ERR, Reg.CEL_EVT_TAG_SAT, Reg.CEL_EVT_TRIGGER_LATE, Reg.CEL_EVT_TRIGGER_DUP,
    Reg.CEL_EVT_STALE_REPLY, Reg.CEL_EVT_REMOTE_LATE, Reg.CAL_EVT_ACC_SAT, Reg.CAL_EVT_ACC_NONFINITE,
    Reg.CAL_EVT_OUT_SAT, Reg.CAL_EVT_NAN_OUT, Reg.CAL_EVT_SCALE_NAN, Reg.CEL_EVT_DROP_DECL, Reg.CEL_EVT_DROP_B,
    Reg.CEL_EVT_DROP_RANGE, Reg.CEL_EVT_SEG_TRUNC]
  | .comb => [Reg.CMB_EVT_BCAST_WAIT]
  | .block 1 => [Reg.WGL_EVT_NAN_SCORE, Reg.WGL_EVT_FLOOR_REJECT, Reg.WGL_EVT_UNFILLED, Reg.WGL_EVT_UNROUTED,
    Reg.WGL_EVT_BLOCK_DROP, Reg.WGL_EVT_BLOCK_LATE, Reg.WGL_EVT_BLOCK_CONFLICT, Reg.WGL_EVT_JOB_ERR]
  | .block 2 => [Reg.SWM_EVT_LAND_DROP, Reg.SWM_EVT_LAND_CONFLICT, Reg.SWM_EVT_UNIT_LATE, Reg.SWM_EVT_VOTE_MISSING,
    Reg.SWM_EVT_SPLIT_VOTE, Reg.SWM_EVT_COMBINE_DROP, Reg.SWM_EVT_BOUND_DROP, Reg.SWM_EVT_ENTRY_ERR,
    Reg.SWM_EVT_COL_LATE, Reg.SWM_EVT_COL_SAT, Reg.SWM_EVT_COL_RESEND, Reg.SWM_EVT_COL_DROP]
  | .block 5 => [Reg.BRD_EVT_FULL, Reg.BRD_EVT_EVICTED, Reg.BRD_EVT_KV_FULL, Reg.BRD_EVT_RESULT_BAD,
    Reg.BRD_EVT_ENTRY_LOST]
  | .block 3 => [Reg.FOR_EVT_LATE, Reg.FOR_EVT_POISON, Reg.FOR_EVT_REFETCH_FAIL, Reg.FOR_EVT_KV_SKIP,
    Reg.FOR_EVT_KV_TRUNC, Reg.FOR_EVT_ENTRY_ERR, Reg.FOR_EVT_REPAIR_FULL] ++ (List.range 24).map (fun i =>
    Reg.FOR_TL_EVENTS 1 1 + 4 * i)
  | .block 6 => [Reg.MEM_EVT_CORR, Reg.MEM_EVT_UNCORR, Reg.MEM_EVT_ROW_REPAIR, Reg.MEM_EVT_INNER_HIGH,
    Reg.MEM_EVT_RETIRE_BLOCKED, Reg.MEM_EVT_POISON_WRITE]
  | .block 7 => [Reg.CXL_EVT_CORR, Reg.CXL_EVT_UNCORR, Reg.CXL_EVT_LINK_RETRY, Reg.CXL_EVT_CACHE_FULL,
    Reg.CXL_EVT_DEVICE_SLOW, Reg.CXL_EVT_ATTACH_CHANGE, Reg.CXL_EVT_POISON_FULL]
  | .block 4 => [Reg.VAT_EVT_FALLBACK, Reg.VAT_EVT_POOL_EMPTY, Reg.VAT_EVT_QUOTA_WAIT, Reg.VAT_EVT_CHECK_FAIL,
    Reg.VAT_EVT_GEN_WRAP] ++ (List.range 4).map Reg.VAT_TL_EVENTS
  | .block 8 => [Reg.BOL_EVT_RETRY, Reg.BOL_EVT_RETRAIN, Reg.BOL_EVT_DEGRADE, Reg.BOL_EVT_DOWN, Reg.BOL_EVT_MISWIRED,
    Reg.BOL_EVT_AUTH_FAIL, Reg.BOL_EVT_INJECTED]
  | .block 10 => [Reg.ETH_EVT_RX_DROP]
  | .block 0 => [Reg.CTL_EVT_COMP_RESTART, Reg.CTL_EVT_PMP_FAULT, Reg.CTL_EVT_SWITCHOVER, Reg.CTL_EVT_INBOX_FULL,
    Reg.CTL_EVT_HEARTBEAT_LOST]
  | .block 9 => [Reg.HXV_EVT_RETRY, Reg.HXV_EVT_RETRAIN, Reg.HXV_EVT_DEGRADE, Reg.HXV_EVT_DOWN, Reg.HXV_EVT_AUTH_FAIL,
    Reg.HXV_EVT_HDR_DROP, Reg.HXV_EVT_CPL_OVERFLOW, Reg.HXV_EVT_INJECTED]
  | .block 14 => [Reg.BUP_EVT_SELFTEST_FAIL, Reg.BUP_EVT_SPARED, Reg.BUP_EVT_NO_SPARE, Reg.BUP_EVT_ABSORBED,
    Reg.BUP_EVT_WARM_FALLBACK, Reg.BUP_EVT_BCAST_REATTACH, Reg.BUP_EVT_BCAST_PULL, Reg.BUP_EVT_BCAST_BAD,
    Reg.BUP_EVT_JOURNAL_BAD, Reg.BUP_EVT_PATH_LATE, Reg.BUP_EVT_BCAST_BAD_CHUNK, Reg.BUP_EVT_BCAST_DONE]
  | .block 11 => [Reg.TIM_EVT_HOLDOVER, Reg.TIM_EVT_UNLOCKED, Reg.TIM_EVT_TIME_FAULT, Reg.TIM_EVT_TIME_DISAGREE,
    Reg.TIM_EVT_PULSE_VOID, Reg.TIM_EVT_LS_DIVERGED, Reg.TIM_EVT_LS_WAIT, Reg.TIM_EVT_LS_END, Reg.TIM_EVT_LS_REFUSED,
    Reg.TIM_EVT_LS_LOG_OVERFLOW]
  | .block 12 => [Reg.SEC_EVT_SIG_FAIL, Reg.SEC_EVT_TAG_FAIL, Reg.SEC_EVT_PARTNER_REFUSED, Reg.SEC_EVT_PROP_REFUSED,
    Reg.SEC_EVT_LOG_FOLDED, Reg.SEC_EVT_ATT_REFUSED]
  | .block 13 => [Reg.PWR_EVT_FAST_THROTTLE, Reg.PWR_EVT_THERM_WARN, Reg.PWR_EVT_THERM_THROTTLE,
    Reg.PWR_EVT_CLOCK_REFUSED, Reg.PWR_EVT_CLOCK_CHANGE]
  | _ => []

end Sys2Proof.Machine
end

