-- ==== Sys2Proof/Machine/State.lean ====
section
/-! DEFINITION. The state of the package: the queue of waiting commands, the propolis tables, and the device. The device
holds one sparse register file for all unit pages, one memory for the data space, and the state that no register shows,
grouped by the chapter of spec/ that gives it. All of it is plain data. Maps are lists with rising keys (Maps.lean). -/

namespace Sys2Proof.Machine

/-- Why the machine stops. No command of the spec stops the package: every error is an outcome in its state. The one
fault is there because the interface wants a type of faults. -/
inductive Fault where
  /-- Raised by no meaning. Safe: it would only stop the model. -/
  | stopped
  deriving DecidableEq, Repr

/-- Why a command has no meaning. -/
inductive Refusal where
  /-- Raised by an arm of `exec` whose command is not modelled yet; names the command. Safe: the model only stops. -/
  | notModelled (mnemonic : String)
  deriving DecidableEq, Repr

/-! ## Fuses (00 R3, R4; 02 R65; 19 R473, R477, R479) -/

/-- The grades of Table 00-1. -/
inductive Grade where
  | m768 | m576 | m768t | m224
  deriving DecidableEq, Repr

/-- What the fuses hold: grade, stepping, revoked root keys, the least security version per image family, and the
device's own identity (its device identity digest and certificates stand for the keys derived from the seed). -/
structure Fuses where
  grade        : Grade
  stepping     : Nat
  revokedRoots : BitVec 4
  svnMin       : Nat
  deviceId     : BitVec 256
  deriving DecidableEq, Repr

/-- Pins (R495, R504, R508, R452). -/
structure Pins where
  resetReleased : Bool
  railEn        : BitVec 6
  railPg        : BitVec 6
  alertN        : Bool         -- true: asserted
  thermtripN    : Bool         -- true: asserted
  ibi           : Bool         -- an I3C in-band interrupt is due (R515)
  ibiSent       : List Nat     -- payloads of the interrupts raised, newest first, the last 16 kept
  i3cData       : Nat          -- what the last I3C read returned (R514)
  deriving DecidableEq, Repr

/-! ## Cells and combs (03, 04) -/

/-- The static descriptor of a command stream (R97, Table 04-2). -/
structure StreamDesc where
  start     : Nat
  enable    : Bool
  triggered : Bool
  mustRun   : Bool
  trigId    : Nat
  argOffset : Nat
  deriving DecidableEq, Repr

/-- Stream states (R100, R102; the codes of CEL_STREAM). -/
inductive StrmState where
  | idle | running | waitTag | waitRes | switchedOut | done | stopped
  deriving DecidableEq, Repr

/-- A command stream of a cell in the running frame. -/
structure Strm where
  state    : StrmState
  recs     : Nat               -- records issued
  desc     : Option StreamDesc
  trigCyc  : Option Nat        -- a TRIGGERED stream that has been triggered: the cycle from which it runs
  fencedBy : List Nat          -- ids of the records a FENCE waits for
  fenceSig : Option Nat        -- tag the waiting FENCE advances
  since    : Option Nat        -- the cycle from which its next record waits for a tag (R222)
  after    : Nat               -- no record of the stream issues before this cycle (R102: a FENCE or an RLOAD has completed)
  late     : Nat               -- cycles by which the stream trails its schedule (R82, R111)
  why      : Nat               -- cause code of that lateness, 0 for none
  deriving DecidableEq, Repr

/-- A tag (R103): its count, the cycle at whose end it last advanced, what it held before that cycle's advances, and the
cause that made its last signaller late. -/
structure Tag where
  count  : Nat
  cycle  : Nat
  before : Nat
  why    : Nat
  deriving DecidableEq, Repr

/-- Execution resources of a cell (Table 04-3). -/
inductive Res where
  | xfer | array | drain | vec | net | vatq
  deriving DecidableEq, Repr

/-- The vector operations (Table 04-11). -/
inductive Vop where
  | copy | add | sub | mul | fma | max | min | scale | exp | recip | rsqrt | sum | amax
  deriving DecidableEq, Repr

/-- What a command record does: its opcode with its operands (Tables 04-2 and 04-5 to 04-11). -/
inductive RecBody where
  | nop
  | end_
  | wait
  | fence
  | load (x : XferOps)
  | store (x : XferOps)
  | fill (x : FillOps)
  | pass (x : PassOps)
  | split (x : SplitOps)
  | drain (x : DrainOps)
  | vector (op : Vop) (x : VecOps)
  | send (x : SendOps)
  | rload (x : RemOps)
  | rstore (x : RemOps)
  | ratomic (op : AtomOp) (x : AtomOps)
  | rtrig (x : TrigOps)
  | alloc (x : AllocOps)
  deriving DecidableEq, Repr

/-- A record issued and not complete: in the queue of its resource until it has started (R104), then at work. -/
structure InFl where
  id       : Nat
  stream   : Fin 8
  body     : RecBody
  sig      : Bool
  sigTag   : Fin 32
  recId    : Nat
  recIdx   : Nat               -- record index in the block
  addr     : Nat               -- address of its comb-store buffer operand, resolved at issue; 0 for none
  started  : Bool
  start    : Nat               -- the issue cycle; once started, the first cycle of occupancy
  occEnd   : Nat               -- first cycle after occupancy
  due      : Nat               -- completion cycle
  late     : Nat               -- cycles by which disturbances delay it
  why      : Nat               -- cause code of the last of them, 0 for none
  waiting  : Bool              -- started, with no completion cycle yet (lost data, a stalled read, a remote operation)
  asked    : Bool              -- an ALLOC that waits in the Vat manager (R117)
  stall    : Option Nat        -- node whose staged data a read waits for (R30)
  alloc    : Option (Nat × Nat × Nat)  -- ALLOC served: slot, handle, object
  data     : List Byte         -- a SEND's bytes on their way
  deriving DecidableEq, Repr

/-- An outstanding remote operation of a cell (R110, R111). -/
structure Rem where
  id        : Nat              -- its in-flight record
  opId      : Nat              -- index 0 to 15 used in the request identity
  kind      : Nat              -- 0 RLOAD, 1 RSTORE, 2 RATOMIC, 3 RTRIG
  node      : Nat
  frame     : Nat
  localBase : Nat
  bytes     : Nat
  got       : Nat              -- bytes answered so far
  tab       : Nat              -- cycle by which Table 04-4 has it complete
  deriving DecidableEq, Repr

/-- The engine and front end of a logical cell (03 R68 to R87, 04 R100). -/
structure CellSt where
  buffer    : List Byte        -- the record buffer: the block that the frame runs (R100)
  streams   : SMap Strm        -- stream number to its state; unlisted: idle
  tags      : SMap Tag         -- unlisted: 0
  slots     : SMap Nat         -- handle slots; unlisted 0, unbound
  inflight  : List InFl        -- oldest first
  nextId    : Nat
  remotes   : List Rem
  lags      : SMap Nat         -- lag of A lanes 0 to 127 and of B lanes, as 128 to 255; unlisted 0
  common    : Nat              -- lag of every lane from withheld cycles
  paidLane  : Nat              -- lane lag of the chain already charged (R82)
  paidCom   : Nat
  lastIssue : Nat              -- cycle after the last issue
  now       : Nat              -- latest cycle of the frame that the cell has reached
  resEnd    : SMap Nat         -- resource (XFER 0, VEC 1, NET 2, VATQ 3) to the cycle after its last occupancy; unlisted 0
  wrFrom    : Nat              -- the last stretch of cycles in which the shared port's write side was busy (R70)
  wrTo      : Nat
  passEnd   : Nat              -- cycle after the last pass's last tabulated issue cycle
  passLat   : Nat              -- its L
  passSplit : Bool
  passBcast : Bool
  final0    : Nat              -- cycle after bank 0 is final
  final1    : Nat
  drained0  : Nat              -- cycle after the last drain of bank 0
  drained1  : Nat
  drainEnd  : Nat              -- cycle after the last drain
  int0      : Bool             -- bank 0 holds INT32
  int1      : Bool
  gateRem   : Nat              -- gated element-steps not yet counted, below 128
  killed    : Bool             -- issue stopped by a kill request of the frame, or an idle or held partition (R37, R114)
  dead      : Bool             -- an uncorrectable word was found in the frame (R71)
  deriving DecidableEq, Repr

/-- A logical comb (R88, R89). -/
structure CombSt where
  busy     : Nat               -- broadcast port busy up to this cycle
  subs     : Nat               -- subscriber mask of the last broadcast
  wrFrom   : Nat               -- the last stretch of cycles in which the store was written
  wrTo     : Nat
  deriving DecidableEq, Repr

/-! ## The Vat (11) -/

/-- Buffer states (Table 11-4). -/
inductive BufState where
  | free | frame | published | held | leaving | withheld
  deriving DecidableEq, Repr

/-- A buffer of a pool. A buffer that is not listed is FREE with generation 1. -/
structure Buf where
  state   : BufState
  gen     : Nat
  part    : Nat
  ctx     : Nat
  mode2   : Bool
  queued  : Bool               -- its release takes effect at the next tick of `part`
  deriving DecidableEq, Repr

/-- A region of a pool: one per pool of Tier H, per pool and port of Tiers C and F, per pool and comb. The free list
is the run `fresh..count-1` of never issued indices, followed by `freed`. Positions from `limit` up are WITHHELD by a detached
or smaller CXL device (R445). -/
structure Region where
  base  : Nat
  count : Nat
  fresh : Nat
  freed : List Nat
  limit : Nat
  deriving DecidableEq, Repr

/-- Who presents a Vat request (R285). -/
inductive VatFrom where
  | cell (c slot id : Nat)
  | list (p pos : Nat)
  deriving DecidableEq, Repr

/-- A waiting request (R297). -/
structure VatReq where
  by_    : VatFrom
  part   : Nat
  ctx    : Nat
  tier   : Nat
  cls    : Nat
  sub    : Nat                 -- comb, or CXL port
  object : Nat
  mode2  : Bool
  since  : Nat                 -- cycle from which it waits
  met    : Bool × Bool         -- it has met an empty pool, a spent quota (R297)
  deriving DecidableEq, Repr

/-- The Vat managers' pools and quotas (R287 to R293). -/
structure VatSt where
  regions : SMap Region        -- pool * 64 + comb or port
  bufs    : SMap Buf           -- pool * 2^20 + index
  limit   : SMap Nat           -- context * 4 + tier
  used    : SMap Nat           -- context * 4 + tier
  waiting : List VatReq        -- oldest first
  carve   : SMap (Nat × Nat × Nat)  -- partition to COMB_N1M, COMB_N64K, COMB_TOP in force
  deriving DecidableEq, Repr

/-! ## Loaded images (01 R41 to R43, 04 R97, 08 R197, 10 R266, 11 R289, 13 R341) -/

/-- A handle binding of a cell block (R97): slot and object index. -/
structure Bind where
  slot   : Nat
  index  : Nat
  deriving DecidableEq, Repr

/-- A cell's block of one slice (R97). -/
structure CellBlock where
  slice   : Nat
  cell    : Nat                -- cell slot of the partition
  raw     : List Byte          -- the block as the Forager stages it
  streams : List StreamDesc
  binds   : List Bind
  deriving DecidableEq, Repr

/-- A buffer list entry (R197, Table 08-2). -/
structure BufListEntry where
  slice  : Nat
  cls    : Nat
  tier   : Nat
  comb   : Nat
  mode   : Nat
  object : Nat
  deriving DecidableEq, Repr

/-- A commit map entry (R341): target or expected source of a slice. -/
structure CommitEntry where
  slice    : Nat
  source   : Bool
  peer     : Peer
  maxBytes : Nat               -- source entries
  deriving DecidableEq, Repr

/-- A scheduled slot entry (R311, Table 12-4). -/
structure SchedSlot where
  slice    : Nat
  start    : Nat
  window   : Nat
  peer     : Peer
  cellSlot : Nat
  streams  : Nat
  maxBytes : Nat
  maxPkts  : Nat
  lane     : Nat
  deriving DecidableEq, Repr

/-- The box of a GROUP entry (R353). -/
structure GroupBox where
  localId   : Nat
  part      : Nat
  slotMask  : Nat
  trayMask  : Nat
  rackMask  : Nat
  podFirst  : Nat
  podCount  : Nat
  deriving DecidableEq, Repr

/-- A parameter record (R198). -/
structure ParamRec where
  mult   : Nat
  shift  : Nat
  group  : Nat
  outFmt : Nat
  key    : W64
  deriving DecidableEq, Repr

/-- The fields of a Swarm entry by its kind (Table 08-4). -/
inductive SwmOps where
  | score (x : ScoreFeedOps)
  | bitmap (x : BitmapFeedOps)
  | route (x : RouteReturnOps)
  | dispatch (x : MoveOps)
  | ret (x : MoveOps)
  | combine (x : CombineOps)
  | land (x : LandOps)
  | live (x : LiveTableOps)
  deriving DecidableEq, Repr

/-- What a slot table entry of a slice is (R196). -/
inductive SlotKind where
  | wgl (kind : Nat) (j : WglJob)
  | swm (c : SwmCommon) (x : SwmOps)
  | col (send : Bool) (x : ColOps)
  deriving DecidableEq, Repr

/-- A slot table entry with its index in the section and its engine instance. -/
structure SlotEnt where
  index : Nat
  inst  : Nat
  what  : SlotKind
  deriving DecidableEq, Repr

/-- A Forager entry with its index, kind and instance (Table 10-4). -/
structure FgrSlot where
  index : Nat
  kind  : Nat
  inst  : Nat
  e     : FgrEntry
  deriving DecidableEq, Repr

/-- A ream class record (R237). -/
structure ReamClass where
  phase      : Nat
  tile       : Nat
  rCap       : Nat
  chunk      : Nat
  ageStep    : Nat
  buildSlice : Nat
  startCycle : Nat
  outRef     : Nat
  notifySlot : Nat
  notifyTag  : Nat
  notifyEn   : Bool
  deriving DecidableEq, Repr

/-- A brood record (Table 09-4). -/
structure BroodRec where
  base    : Nat
  count   : Nat
  slot    : Nat
  apply_  : Nat
  classes : List ReamClass
  deriving DecidableEq, Repr

/-- An image as the loader reads it. -/
structure Image where
  bytes      : Nat
  digest     : List Byte
  cells      : Nat
  combs      : Nat
  frameExp   : Nat
  clock      : Nat
  timing     : Nat
  slices     : Nat
  loop       : Bool
  remote     : Bool
  loopStart  : Nat
  fw         : Nat
  memMask    : Nat
  portMask   : Nat
  jobId      : Nat
  frameStart : Nat
  members    : Nat
  blocks     : List CellBlock
  bufList    : List BufListEntry
  commitMap  : List CommitEntry
  sched      : List SchedSlot
  objects    : List Nat
  quotas     : List Nat        -- QUOTA_COMB, H, C, F
  n1m        : Nat
  n64k       : Nat
  combTop    : Nat
  portC      : Nat
  portF      : Nat
  wglEngines : List Nat        -- reserved Waggle instances
  swmEngines : List Nat
  forEngines : List Nat        -- entry engines on each Forager
  hRate      : Nat
  readShare  : List Nat        -- per CXL port
  writeShare : List Nat
  stageBytes : Nat             -- remote staging that the image needs (R343)
  shape      : List Nat        -- die order of the combs (Table 15-1 type 4)
  exchGroup  : Nat
  self       : Nat             -- MEMBER_INDEX
  exch       : List Peer       -- MEMBERS of the exchange group
  params     : List ParamRec
  groups     : List GroupBox
  entries    : List SlotEnt
  fgr        : List FgrSlot
  brood      : Option BroodRec
  deriving DecidableEq, Repr


/-! ## Partitions and contexts (01, 15) -/

/-- A command record in an inbox (Table 15-3), with its port and arrival number. -/
structure CmdRec where
  port    : Nat
  number  : Nat
  opcode  : Nat
  flags   : Nat
  ctx     : Nat
  tag     : W32
  arg     : List Byte
  deriving DecidableEq, Repr

/-- Context states (Table 15-2). -/
inductive CtxState where
  | free | open | loaded | ready | running | idle | halted
  deriving DecidableEq, Repr

/-- A context (R378, R380). -/
structure Ctx where
  state     : CtxState
  part      : Nat
  port      : Nat
  prio      : Nat
  pinned    : Bool
  preempted : Bool
  slice     : Nat              -- slice index x of R16
  image     : Option Image
  stopping  : Bool             -- an IMMEDIATE STOP waits for the tick that ends the killed frame (R391)
  startAt   : Option Nat       -- pinned START: the common tick, in ns (R381)
  inbox     : List CmdRec
  arrived   : Nat
  applied   : Nat
  seq       : Nat
  lastRun   : Nat
  runLen    : Nat              -- consecutive frames run, against QUANTUM
  ordinal   : Nat              -- commit ordinal: committed frames since its image was loaded (R464)
  ovRow     : Nat              -- overruns in a row on the slice (R33)
  ovHist    : List Bool        -- overruns of the last 256 frames, newest first
  poolRow   : Nat              -- overruns in a row on a pool wait (R298)
  held      : List Nat         -- object indices it holds (R379)
  fresh     : Bool             -- an image has taken effect: the step boundary of its tick is due (R232)
  deriving DecidableEq, Repr

/-- A disturbance seen in a frame: cause code and subcause (Table 01-2). -/
structure Dist where
  cause : Nat
  sub   : Nat
  deriving DecidableEq, Repr

/-- A unit command held for the tick that ends a killed frame (R55). -/
structure Deferred where
  path   : Nat
  op     : Nat
  seq    : Nat
  killed : Bool                -- the kill request has been applied to a frame that is ending
  deriving DecidableEq, Repr

/-- What a partition holds outside its registers. -/
structure PartSt where
  cutTaken  : Bool             -- the completion cut of the current frame is past
  killNow   : Option Nat       -- reason of the kill request applying to this frame (R37)
  killNext  : Option Nat
  decision  : Option Bool      -- step 3: commit or kill
  groupWait : Bool             -- the outcome waits for the group's votes (R205)
  dist      : Option Dist      -- first disturbance of the frame
  objects   : SMap Nat         -- active object table; unlisted: unbound
  named     : List (Nat × Nat) -- objects named in the frame with their handles (R100, R197, R117)
  shadow    : List (Nat × Nat) -- entries written at step 4
  drained   : List CmdRec      -- drained and not yet in effect, oldest first (R384)
  resume    : Bool             -- the scheduler's RESUME after an IMMEDIATE STOP is due at the next tick (R391)
  deferred  : List Deferred
  lastCtx   : Option Nat       -- context of the last frame that ran one
  snap      : List W64         -- snapshot words latched at step 6
  listGot   : SMap (Nat × Nat) -- buffer list entry to handle and completion cycle, this frame
  listTodo  : List (Nat × Nat) -- requests of the buffer list still to be made: cycle, entry (R197)
  before    : List (Nat × List Byte) -- what the frame's writes replaced: address and old bytes, oldest first (R23)
  wrote     : List (Nat × Nat × Nat × Nat) -- lock-step: unit, RECORD_ID, address and length written in the frame (R464)
  next      : Option (Nat × Nat)  -- context and slice index named for the next frame; none: idle
  nextByHw  : Bool             -- the hardware named it (R389)
  written   : Bool             -- the scheduler has written CTL_SCHED_NEXT since the last tick
  poolTier  : Nat              -- tier and pool of the first POOL wait (R298)
  poolPool  : Nat
  staged    : SMap (Nat × Nat) -- staging bank to the context and slice index it holds (R99, R273)
  traceArm  : Option Bool      -- trace is armed, or disarmed, at the next tick (R517)
  schedUsed : SMap (Nat × Nat) -- scheduled slot entry (its place in the list) to packets and bytes sent in the frame
  cutDone   : Bool             -- step 1: all work of the frame was done
  pendCells : Nat              -- step 1: logical cells not done
  testNow   : Bool             -- the self-tests of an unexplained overrun are due at the tick (R20)
  testEng   : List Nat         -- engines that sent units out of bounds: their self-tests are due at the tick (R224)
  deriving DecidableEq, Repr

/-! ## Remote operations (13) -/

/-- What a staged operation does at publication (R344, R346). -/
inductive StagedDo where
  | store (data : List Byte)
  | atomic (op : AtomOp) (wide : Bool) (operand compare : W64)
  /-- Part of a span-mode unit: tensor tag and block index (R221). -/
  | unit (tag block : Nat) (data : List Byte)
  deriving DecidableEq, Repr

/-- A staged store or atomic (R337, R343). -/
structure StagedOp where
  part  : Nat
  src   : Peer
  frame : Nat
  pair  : Nat
  addr  : Nat
  what  : StagedDo
  deriving DecidableEq, Repr

/-- A marker held or sent (R28 to R31). -/
structure Marker where
  part   : Nat
  peer   : Peer
  frame  : Nat
  commit : Bool
  atCut  : Bool                -- held at a completion cut that has passed (R29)
  deriving DecidableEq, Repr

/-- A request of the next frame, held from the commit window (R338). -/
inductive HeldReq where
  | rload (r : RemReq) (sectors : Nat)
  | rstore (r : RemReq) (pair : Nat) (data : List Byte)
  | ratomic (r : RemReq) (pair : Nat) (op : AtomOp) (wide : Bool) (operand compare : W64)
  | rtrig (r : RemReq) (cell : Nat) (trigId : Nat) (arg : List Byte)
  deriving DecidableEq, Repr

/-- A query of a node that has no answer yet (R348). -/
structure Query where
  part     : Nat
  node     : Nat
  why      : QueryWhy
  answered : Bool
  deriving DecidableEq, Repr

/-- Remote operations at the target and the fabric manager agent's records (13). -/
structure RmtSt where
  staging   : List StagedOp
  held      : List Marker      -- markers received
  sent      : List Marker      -- markers sent, last 16 frames
  lateAsk   : List Marker      -- markers asked for under R31
  waiting   : List HeldReq
  queries   : List Query
  members   : SMap (List Peer) -- partition to the members of its job (R339)
  stageSize : Nat              -- size of the staging region (R343)
  torn      : List (Nat × Nat) -- partition and dead node of each teardown
  remoteRow : SMap (Nat × Nat) -- partition to node and consecutive overruns charged to it (R348)
  deriving DecidableEq, Repr

/-! ## The fabric (12) -/

/-- A Bollum packet (Table 12-2). -/
structure Pkt where
  dest    : Nat
  src     : Nat
  cls     : Nat
  type    : Nat
  fence   : Bool
  bitmap  : Bool
  lane    : Nat
  deflect : Nat
  dpart   : Nat
  spart   : Nat
  frame   : Nat
  addr    : Nat
  pair    : Nat
  reqId   : Nat
  payload : List Byte
  deriving DecidableEq, Repr

/-- A packet in this device: waiting at an engine (`inPort = none`), in transit, in escape, or held by a fence. -/
structure InPkt where
  id     : Nat
  inPort : Option Nat
  second : Bool                -- on the second hop of an X detour
  pkt    : Pkt
  deriving DecidableEq, Repr

/-- What a Bollum port holds outside its registers. -/
structure BolPort where
  retry    : List Pkt          -- the retry buffer: the last 128 packets sent, oldest first (log entry 26, DESIGN CHOICE)
  refused  : Nat               -- refusals in the current frame (R319)
  retries  : List Nat          -- times of retries within the last 1 ms, newest first
  symbols  : SMap Nat          -- corrected symbols per lane in the 100 ms window
  symStart : Nat               -- start of that window
  injIndex : Nat               -- packets since the write of BOL_INJECT (R333)
  delayed  : List (Nat × Pkt)  -- REORDER: packets still to pass, packet
  role     : W32               -- BOL_SPARE_ROLE in force since the last tick (R329)
  timer    : Bool              -- DOWN: the 1 s retry is due
  credit   : SMap Bool         -- escape lane to credit used; unlisted: the buffer is free
  offset   : Int               -- last beacon offset in ns (R454)
  delay    : Int               -- path delay of the last beacon
  history  : List Int
  good     : Bool              -- the last beacon was accepted
  miswired : Bool              -- the place that the partner last showed does not match Table 12-1 (R302)
  deriving DecidableEq, Repr

/-- A UDP datagram between pods (Table 12-6): Ethernet port, 128-bit IPv6 destination, DSCP, UDP ports, and the packet. -/
structure Datagram where
  port  : Nat
  dst   : Nat
  dscp  : Nat
  sport : Nat
  dport : Nat
  pkt   : Pkt
  deriving DecidableEq, Repr

/-- The switch, the fences and the ports. -/
structure FabSt where
  nextId   : Nat
  local_   : List InPkt        -- local packets waiting to enter the fabric, oldest first
  transit  : List InPkt
  escape   : List InPkt        -- packets in escape buffers, the entry pool of 8 among them
  fences   : List InPkt        -- fenced packets held (R321)
  handed   : List Pkt          -- packets handed to their units, oldest first (log entry 27, DESIGN CHOICE)
  arrivals : SMap (List (Nat × Nat))  -- node * 16 + partition to (frame, counted arrivals), two newest frames
  pairs    : SMap (Nat × Nat)  -- source partition * 2048 + node to (frame, counted packets sent)
  ports    : SMap BolPort
  sentPkts : List (Nat × Pkt)  -- (port, packet) sent and not yet acknowledged: the link's output
  datagrams : List Datagram    -- sent between pods
  asked    : List (Nat × Nat × Nat)  -- source node, partition, frame asked for its packet count (R322)
  racks    : Nat               -- n_r in force: BOL_POD_SHAPE at the last device reset (R304)
  deriving DecidableEq, Repr


/-! ## The Waggle engines (07) -/

/-- An input block ingested for a job (R174, R175). -/
structure WglBlk where
  job  : Nat                   -- index of its entry in the slot table
  kind : Nat
  col  : Nat
  base : Nat
  raw  : List Byte
  src  : Nat                   -- source node
  done : Nat                   -- cycle in which it is ingested
  deriving DecidableEq, Repr

/-- A place of a column with its token (R180, R185). -/
structure WglRec where
  col   : Nat                  -- within the job
  slot  : Nat
  token : Nat
  score : Nat                  -- FP32 bits
  pass  : Nat
  deriving DecidableEq, Repr

/-- A running job: what it writes and counts when it completes (R172). -/
structure WglRun where
  job      : Nat
  kind     : Nat
  entry    : WglJob
  fin      : Nat               -- completion cycle
  why      : Nat               -- cause code of its lateness, 0 for none
  out      : List (Nat × List Byte)  -- device offset and bytes
  recs     : List WglRec       -- all records of the region
  picked   : Nat               -- records of this pass
  rejects  : Nat
  unfilled : Nat
  unrouted : Nat
  deriving DecidableEq, Repr

/-- A Waggle engine in the frame. -/
structure WglEng where
  blocks  : List WglBlk
  started : List Nat           -- entries started, newest first
  run     : Option WglRun
  picks   : List (Nat × List WglRec)  -- completed SELECTs, for their SECOND
  free    : Nat                -- cycle after the last job completed
  stopped : Bool               -- a job failed (R192)
  noted   : List (Nat × Nat)   -- entry and event bit already counted (R194)
  deriving DecidableEq, Repr

/-! ## The Swarm engines, exchange groups and collectives (08, 14) -/

/-- An entry that a Swarm engine runs or has run in the frame. -/
structure SwmRun where
  id      : Nat                -- index of the entry in the slot table
  what    : SlotKind
  due     : Nat                -- completion cycle
  why     : Nat × Nat          -- cause and subcause of its lateness, cause 0 for none
  fin     : Bool
  out     : List (Nat × List Byte)   -- written at completion
  dropped : Nat                -- records a COMBINE leaves out
  rows    : Nat                -- tokens it combines
  bound   : Bool               -- it broke a bound (R224)
  deriving DecidableEq, Repr

/-- A landing of the slice (R213). -/
structure Landing where
  id     : Nat                 -- its entry
  base   : Option Nat          -- device offset of row 0 once the entry has started
  src    : Nat                 -- device offset of its expectation source
  parts  : SMap (List Byte)    -- packets landed, by row * P_ROW + part
  full   : List Nat            -- rows landed in full
  peer   : Option Nat          -- node of the last packet
  last   : Nat                 -- cycle of the last packet
  deriving DecidableEq, Repr

/-- A descriptor of a DISPATCH (Table 08-7). -/
structure SwmDesc where
  localRow : Nat
  destRow  : Nat
  expert   : Nat
  slot     : Nat
  port     : Nat               -- 0, 1, or 2 for the own path
  pass     : Nat
  index    : Nat
  deriving DecidableEq, Repr

/-- A Swarm engine in the frame. -/
structure SwmEng where
  runs    : List SwmRun
  lands   : SMap Landing       -- by entry index
  stopped : Bool               -- an entry failed (R225)
  held    : List Nat           -- entries whose hold has been charged
  stalls  : List (Nat × Nat × Nat × Nat)   -- entries whose reads wait: entry, start cycle, cause and subcause (R30, R278)
  descs   : SMap (List SwmDesc)            -- descriptors formed in the frame, by entry index (R212)
  deriving DecidableEq, Repr

/-- The exchange group of a partition (R205, R206). -/
structure GroupSt where
  votes   : List (Nat × Nat × Bool)  -- frame, member, commit
  mine    : Option (Nat × Bool)      -- frame and own vote
  outcome : Option (Nat × Bool)      -- last frame with its final outcome
  split   : Option (Nat × Nat)       -- frame in which a split was found, and the node whose vote showed it
  missing : SMap Nat                 -- member to frames missing in a row
  deriving DecidableEq, Repr

/-- A collective group bound on the device (R354). -/
structure ColBind where
  gid     : Nat
  part    : Nat
  ctx     : Nat
  localId : Nat
  deriving DecidableEq, Repr

/-- A block in collective staging (R365, R366). -/
structure ColBlk where
  gid     : Nat
  phase   : Nat
  node    : Nat
  pod     : Nat
  frame   : Nat
  staged  : Bool
  pkts    : SMap (List Byte)
  ready   : Option Nat         -- hall time at which it became complete or was published
  trailer : Option (Bool × Nat)  -- level E: commit and packet count
  deriving DecidableEq, Repr

/-- A block sent at level E, kept for 4 frames (R366). -/
structure ColSent where
  gid    : Nat
  phase  : Nat
  frame  : Nat
  part   : Nat
  to_    : Nat                 -- place address of the owner's Swarm page
  pkts   : List (Nat × List Byte)
  commit : Option Bool
  deriving DecidableEq, Repr

/-- The group window of Table 14-7. -/
structure ColStat where
  slow  : Nat                  -- SWM_COL_SLOW
  frame : Nat
  late  : Nat
  gap   : Nat
  folds : Nat
  deriving DecidableEq, Repr

/-- The collectives of the device. -/
structure ColSt where
  binds : List ColBind
  blks  : List ColBlk
  sent  : List ColSent
  stats : SMap ColStat         -- engine * 4096 + GROUP_ID
  first : SMap Nat             -- engine * 2^16 + entry to the hall time of START_CYCLE in its first attempt (R369)
  deriving DecidableEq, Repr

/-! ## The brood table (09) -/

/-- A brood entry (Table 09-1). -/
structure BrdEnt where
  seqId     : W64
  kvHandle  : Nat
  kvLimit   : Nat
  position  : Nat
  promptEnd : Nat
  stopAt    : Nat
  admitSeq  : Nat
  modelSlot : Nat
  phase     : Nat
  prio      : Nat
  context   : Nat
  wait      : Nat
  inStep    : Bool
  kvFull    : Bool             -- KV_FULL_SENT
  deriving DecidableEq, Repr

/-- A brood operation (Table 09-3). -/
inductive BrdOp where
  | admitSeq (seqId : W64) (kvHandle kvLimit position promptEnd stopAt modelSlot prio : Nat) (evictEn : Bool)
  | update (seqId : W64) (entry mask kvHandle kvLimit stopAt prio : Nat)
  | hold (seqId : W64) (entry : Nat)
  | resume (seqId : W64) (entry : Nat)
  | remove (seqId : W64) (entry : Nat)
  deriving DecidableEq, Repr

/-- A brood operation that waits for its step boundary. -/
structure BrdReq where
  ctx  : Nat
  tag  : W32
  op   : BrdOp
  deriving DecidableEq, Repr

/-- A ream built in the step (R238, R240). -/
structure Ream where
  cls    : Nat
  taken  : List (Nat × Nat)    -- entry and its row count
  passed : List Nat            -- eligible entries not taken
  handle : Nat
  result : Nat                 -- byte offset of the result words
  frame  : Nat
  ok     : Bool                -- its build frame has committed
  deriving DecidableEq, Repr

/-- A build that runs. -/
structure BrdBuild where
  part   : Nat
  cls    : Nat
  due    : Nat
  done   : Bool
  ream   : Ream
  addr   : Nat                 -- device offset of the ream buffer
  deriving DecidableEq, Repr

/-- The brood block. -/
structure BrdSt where
  table_  : SMap BrdEnt        -- unlisted: FREE, all zero
  shown   : SMap BrdEnt        -- the entries as of the last boundary (BRD_WIN_DATA)
  queue   : SMap (List BrdReq) -- partition to its queued operations, oldest first
  reams   : SMap (List Ream)   -- partition to the reams of its step
  builds  : List BrdBuild      -- builds of the running frames
  free    : Nat                -- moment after the block's last build completed
  admits  : SMap Nat           -- partition to its next ADMIT_SEQ
  steps   : SMap Nat           -- partition to its step count
  lost    : SMap (Bool × Bool × Bool) -- entry to its uncorrectable copies, and whether its loss is reported (R230)
  deriving DecidableEq, Repr

/-! ## The memory tiers and the Foragers (10) -/

/-- An object descriptor (Table 10-3). -/
structure Desc where
  layout      : Nat
  mxKind      : Nat
  pack        : Bool
  poisoned    : Bool
  durable     : Bool
  maskObject  : Nat
  size        : Nat
  nodeRep     : Bool
  hostRep     : Bool
  repNode     : Nat
  repOffset   : Nat
  hostKey     : W64
  poisonOff   : Nat
  poisonFrame : Nat
  deriving DecidableEq, Repr

/-- A slot of a write-back cache (R260, R261): its chunk, the bytes of its valid sectors, and its place in the drain
order. -/
structure CacheSlot where
  port     : Nat
  chunk    : Nat               -- device offset of the 64 KiB chunk
  handle   : Nat
  valid    : List Nat          -- valid 32 B sectors, rising
  data     : SMap Byte         -- byte offset in the chunk; unlisted: 0
  part     : Nat
  frame    : Nat
  eligible : Bool              -- its frame has committed
  first    : Bool              -- drained ahead of the others (R263)
  deriving DecidableEq, Repr

/-- A FLUSH that waits for DURABLE (R263). -/
structure Flush where
  part   : Nat
  handle : Nat
  object : Nat
  deriving DecidableEq, Repr

/-- A Forager entry that is running (R269, R275, R278). -/
structure FgrRun where
  inst    : Nat
  part    : Nat
  id      : Nat
  notify  : Option (Nat × Nat) -- cell slot and tag
  start   : Nat                -- cycle in which it started
  key     : Nat                -- START_CYCLE
  fix     : Nat                -- cycles of its time beside ⌈M / RATE⌉ (R269)
  rate    : Nat
  takes   : List (Nat × Nat)   -- resources whose schedulable rate it takes, and how much (R276)
  bytes   : Nat                -- M
  why     : Nat × Nat          -- cause and subcause of a late start, cause 0 for none
  late    : Nat                -- cycles of corrections (SCRUB)
  link    : Nat                -- cycles of link retries (LINK_RETRAIN)
  slow    : Nat                -- cycles of an injected delay (R516)
  ready   : Nat                -- cycle in which the last refetched chunk arrived, 0 for none
  reason  : Nat                -- reason of Table 10-6 that holds it, 0 for none
  tier    : Nat                -- 1 H, 2 C, 3 F
  ports   : List Nat           -- CXL ports that it reads from
  stalled : List Nat           -- chunks (device offsets) whose refetch it waits for
  fin     : Bool
  deriving DecidableEq, Repr

/-- A refetch of a poisoned chunk (R278). -/
structure Refetch where
  inst   : Nat
  part   : Nat
  object : Nat
  chunk  : Nat
  start  : Nat                -- cycle in which it starts
  due    : Nat                -- cycle in which a node replica's chunk is here (R278)
  host   : Bool                -- now asked of the host replica
  deriving DecidableEq, Repr

/-- A chunk in a repair area (R279). -/
structure Repair where
  inst   : Nat
  part   : Nat
  object : Nat
  handle : Nat
  chunk  : Nat
  data   : SMap Byte
  once   : Bool                -- the area was full: it serves the frame that waits for it, and is not kept
  deriving DecidableEq, Repr

/-- A row under repair or repaired (R251, R252). -/
structure RowMap where
  row     : Nat
  copying : Bool
  deriving DecidableEq, Repr

/-- Retirement of a stack (R282). -/
inductive Retire where
  | copying (extents : List (Nat × Nat))   -- port, base
  | retired (extents : List (Nat × Nat))
  deriving DecidableEq, Repr

/-- An open preload range: whole buffers of one Tier C or F pool behind a port, for a context (R265). -/
structure Preload where
  pool    : Nat
  first   : Nat                -- index of its first buffer
  count   : Nat
  port    : Nat
  base    : Nat                -- device offset
  bytes   : Nat
  ctx     : Nat
  closing : Bool               -- closes at the next tick of the context's partition
  deriving DecidableEq, Repr

/-- An entry that cannot start: it waits for a cache slot, or for data (R30, R262). -/
structure FgrWait where
  inst  : Nat
  part  : Nat
  id    : Nat
  since : Nat
  cause : Nat
  sub   : Nat
  deriving DecidableEq, Repr

/-- The tiers (10). -/
structure TierSt where
  descs     : SMap Desc        -- partition * 2^24 + object; unlisted: all zero
  slots     : List CacheSlot
  flushes   : List Flush
  preload   : List Preload     -- open preload ranges (R265)
  runs      : List FgrRun      -- entries of the running frames, those that have completed among them
  cache     : SMap Nat         -- port to CACHE_SIZE in force since the last reset, in GiB; unlisted: 4
  waits     : List FgrWait
  stopped   : List (Nat × Nat) -- instance and partition stopped for the frame (R277)
  refetches : List Refetch
  repairs   : List Repair
  poison    : SMap (List Nat)  -- stack 0 to 7, 8 + port: device offsets of the lines listed
  tmRecord  : List Nat         -- uncorrectable lines not listed
  rows      : SMap (List RowMap)
  rowCorr   : SMap (List Nat)  -- stack to rows with a corrected line in the patrol period, one line each
  uncTimes  : SMap (List Nat)  -- stack to times of uncorrectable lines within the hour
  retire    : SMap Retire
  delayed   : SMap Nat         -- tier to injected delay in cycles (R516 MODE 3)
  roPend    : List (Nat × Nat) -- CXL_MODE values that take effect at the next tick: port, value
  done      : List (Nat × Nat × Nat) -- instance, partition, entry completed in the frame
  descCount : SMap Nat         -- partition to DESC_COUNT (R258); unlisted: 1,048,576
  absent    : SMap Nat         -- instance to transfers that named an absent block (R159)
  deriving DecidableEq, Repr

/-! ## Power (20) -/

/-- A domain that is switching (R498). -/
structure DomSwitch where
  dom  : Nat
  on   : Bool
  unit : Option Nat            -- unit whose POWER_OFF or POWER_ON it serves; none: PWR_DOM_CTL
  seq  : Nat
  deriving DecidableEq, Repr

/-- Power and thermal state outside the PWR page. -/
structure PwrSt where
  duty     : SMap Nat          -- partition to D; unlisted 16
  dutyPend : SMap Nat          -- D that takes effect at the partition's next tick
  above     : Nat               -- samples above PKG_LIMIT in a row
  calm     : Nat               -- samples at or below 0.9 x PKG_LIMIT in a row
  samples  : List Nat          -- last 100 samples, newest first
  temps    : SMap Int          -- sensor readings in 0.25 C; unlisted 0 (log entry 1, DESIGN CHOICE)
  cool     : SMap Nat          -- throttle group to 100 us samples spent below release in a row
  switches : List DomSwitch
  deriving DecidableEq, Repr

/-! ## The host link and the control complexes (15, 16) -/

/-- A completion record (Table 15-5) with the hall time at which it was queued or sent. -/
structure Cpl where
  opcode : Nat
  status : Nat
  ctx    : Nat
  tag    : W32
  frame  : Nat
  replay : Bool
  seq    : Nat
  result : List Byte
  time   : Nat
  deriving DecidableEq, Repr

/-- A Hexvan packet (Table 16-3). -/
structure HxvPkt where
  cls     : Nat
  last    : Bool
  reqId   : Nat
  addr    : Nat
  status  : Nat
  count   : Nat
  aux     : Nat
  payload : List Byte
  deriving DecidableEq, Repr

/-- An outstanding fetch of a host replica (R414). -/
structure HostFetch where
  reqId : Nat
  inst  : Nat                  -- Forager instance
  chunk : Nat                  -- device offset of the poisoned chunk
  got   : List Byte
  start : Nat                  -- hall time
  deriving DecidableEq, Repr

/-- An outstanding image pull of one chunk (R415, R434). -/
structure ImagePull where
  reqId : Nat
  chunk : Nat
  fails : Nat
  start : Nat
  got   : List Byte            -- bytes of the chunk so far
  deriving DecidableEq, Repr

/-- What a Hexvan port holds outside its registers. -/
structure HxvPort where
  queue   : List Cpl           -- completion queue, oldest first
  sent    : List Cpl           -- completions sent within 16 ms, oldest first
  out     : List HxvPkt        -- packets that wait for the link or a credit
  retry   : List (Nat × HxvPkt)  -- sent and not acknowledged: link sequence number, packet
  wire    : List HxvPkt        -- packets that have left: the link's output
  nextSeq : Nat
  credits : SMap Nat           -- credits held per class; unlisted 0
  refused : Nat
  retries : List Nat           -- times of retries within 1 ms, newest first
  symbols : SMap Nat           -- corrected symbols per lane in the 10 ms window
  symStart : Nat
  injIndex : Nat
  timer   : Bool               -- DOWN: the 1 s retry is due
  nextReq : Nat                -- REQ_ID of the next request of the device
  fetches : List HostFetch
  pulls   : List ImagePull
  deriving DecidableEq, Repr

/-- The host link and the device inbox. -/
structure HostSt where
  ports   : SMap HxvPort
  both    : SMap Bool          -- context port map in force (R383, R490); unlisted: false
  inbox   : List CmdRec        -- device inbox
  arrived : Nat
  applied : Nat
  seq     : Nat
  drained : List CmdRec        -- drained from the device inbox and not applied
  switch  : Bool               -- the standby takes over at the next grid point (R396)
  slots   : SMap (Nat × Nat × Nat × Bool)  -- model slot: handle, offset, size, registered (R241)
  deriving DecidableEq, Repr

/-- A control complex outside its registers (R392 to R399). -/
structure Cpx where
  faults   : SMap (List Nat)   -- component to times of its restarts within one hour
  versions : SMap Nat          -- CTL_COMP_VERSION per component
  digest   : List Byte         -- manifest digest of the firmware it runs
  fwNumeric : Nat
  timing   : Nat
  svn      : Nat
  comps    : SMap (List Byte)  -- digests of the components it runs (Table 19-2)
  down     : List (Nat × Nat × Bool)  -- component that is stopped, hall time at which it runs again, whether it is a restart (R394, R399)
  deriving DecidableEq, Repr

/-! ## Security (19) -/

/-- A change of the propolis table that is accepted and not yet in effect (R491, R492). -/
inductive PropChange where
  | window (i : Nat) (part : Nat) (e : Option WindowEntry)
  | trigger (i : Nat) (part : Nat) (e : Option TriggerEntry)
  | grant (i : Nat) (e : Option GrantEntry)
  | host (i : Nat) (e : Option HostWindow)
  | both (c : Nat) (part : Nat) (b : Bool)
  | key (i : Nat) (k : BitVec 384)
  | revoke (i : Nat) (id : BitVec 256)
  | policy (policy link svn : Nat)
  deriving DecidableEq, Repr

/-- The propolis table (R490, Table 19-8): what is in force, and the accepted changes, oldest first. Partition shapes stand
in the partition pages, policy in the SEC pages, and the context port map in `HostSt`. -/
structure Propolis where
  windows  : SMap WindowEntry
  triggers : SMap TriggerEntry
  grants   : SMap GrantEntry
  hosts    : SMap HostWindow
  keys     : SMap (BitVec 384) -- unlisted: empty
  revoked  : SMap (BitVec 256) -- unlisted: empty
  changes  : List PropChange
  deriving DecidableEq, Repr

/-- A watermark log (R481, R482). -/
structure SecLog where
  entries : List (List Byte)   -- kept entries of 64 bytes, oldest first
  accum   : List Byte
  fold    : List Byte
  first   : Nat                -- SEQ of the oldest entry kept
  next    : Nat                -- SEQ of the next entry
  deriving DecidableEq, Repr

/-- A report being built, or the last one (R483, R484). -/
structure Att where
  busy   : Bool
  scope  : Nat
  nonce  : List Byte
  body   : Option (List Byte)  -- captured at the grid point
  report : List Byte
  deriving DecidableEq, Repr

/-- Authentication of a port (R485 to R488). -/
structure AuthSt where
  step    : Nat                -- messages of Table 19-7 accepted in the running exchange: 0 to 3
  running : Bool
  rekey   : Bool               -- the exchange runs while traffic continues
  partner : BitVec 256
  key     : Nat                -- public key of the partner's last certificate
  mode    : Nat                -- protection mode in force
  phase   : Nat                -- key-phase bit
  tags    : List Nat           -- times of tag failures within 1 ms, newest first
  hello   : List Byte          -- the partner's HELLO of the last exchange, for T
  ct      : List Byte          -- its ciphertext
  mine    : List Byte          -- the device's own HELLO
  myCt    : List Byte          -- its ciphertext
  tx      : List Byte          -- AES key and IV salt of packets sent, 36 bytes; no register shows it (R474)
  rx      : List Byte          -- those of packets received
  deriving DecidableEq, Repr

/-- What the SEC blocks hold outside their registers. -/
structure SecSt where
  logs : SMap SecLog           -- SEC instance to its log
  att  : SMap Att
  auth : SMap AuthSt           -- port: Bollum 0 to 31, Hexvan 32 and 33, Ethernet 34 to 37
  deriving DecidableEq, Repr

/-! ## Bring-up, repair and broadcast (17) -/

/-- A journal record, as both copies hold it: its type, a number for what it describes, what it says of that (none: it is no more), and its
bytes (R447). -/
structure JRec where
  type    : Nat
  subject : Nat
  value   : Option (List Nat)
  seq     : Nat
  raw     : List Byte
  deriving DecidableEq, Repr

/-- What the journal of the configuration store holds (R446 to R449); row mappings, poison lists and retired stacks stand
in `TierSt`. -/
structure Journal where
  cells   : SMap Nat           -- spare map: logical cell to physical cell
  combs   : SMap Nat           -- spare map: logical comb to physical comb
  soft    : List Nat           -- soft-disable map: unit paths of physical cells and combs
  left    : List Nat           -- physical cells and combs that sparing has moved a logical unit off (R48)
  cleared : List Nat           -- entries cleared by CLEAR_SOFT
  trained : List Nat           -- block paths with a training record
  seq     : Nat
  bad     : Bool               -- the replay found a bad record
  records : List JRec          -- oldest first
  deriving DecidableEq, Repr

/-- A broadcast session on this device (R429 to R435). -/
structure Bcast where
  desc      : BcastDesc
  manifest  : Option Manifest
  held      : SMap (List Byte) -- chunks held and verified
  source    : Nat              -- node that serves it
  asked     : List (Nat × List (Nat × Nat))  -- children and ranges they asked for and have not received
  fails     : SMap Nat         -- chunk to failed digests
  next      : Nat              -- chunks 0 to next - 1 have been forwarded
  waiting   : Bool             -- a REQUEST waits for its HOLD
  attached  : Bool             -- the alternate parent is the source
  pulling   : Bool
  complete  : Bool
  done      : List Nat         -- nodes that have sent DONE
  timer     : Bool             -- the chunk timer runs
  deriving DecidableEq, Repr

/-- A running repair (R443). -/
structure RepairRun where
  op   : Nat
  seq  : Nat
  path : Nat
  fails : List Nat             -- level 6 numbers of the spare units that fail their test
  deriving DecidableEq, Repr

/-- The bring-up block outside its registers. -/
structure BupSt where
  warm    : Bool
  reached : Bool               -- the last bring-up reached READY
  facts   : Option BringFacts  -- what the running path finds
  journal : Journal
  repair  : Option RepairRun
  sparing : List Nat           -- logical cells and combs (unit paths) that wait for a spare (R440)
  out     : List Nat           -- logical cells and combs out of service (R442)
  retired : List Nat           -- retired sectors of comb stores, by device offset (R91)
  bcast   : Option Bcast
  sent    : List (Nat × Nat × Nat × List Byte)  -- broadcast packets sent: node, OP, chunk, payload
  deriving DecidableEq, Repr

/-! ## Hall time and lock-step (18) -/

/-- The time block outside its registers. -/
structure TimSt where
  set     : Bool               -- the counter has been set
  edge    : Option Nat         -- counter at an edge whose message is due
  good    : Nat                -- pulses with |offset| at most 10 ns in a row
  void    : Nat                -- pulses voided or missing in a row
  locked  : SMap Bool          -- Bollum port to: its partner reports LOCKED
  deriving DecidableEq, Repr

/-- A commit digest (R464, R465). -/
structure Digest where
  ctx    : Nat
  k      : Nat
  value  : W64
  frame  : Nat
  terms  : List (Nat × Nat × Nat × W64)  -- unit, record, block, term
  deriving DecidableEq, Repr

/-- A digest of the partner, with what the partner's log holds of the frame, as location reads it over ports 30 and 31 (R468). -/
structure Theirs where
  ctx    : Nat
  k      : Nat
  value  : W64
  frame  : Nat
  log    : List (Nat × Nat × Nat × W64)  -- unit, record, block, term
  level  : Nat                 -- the deepest level that the partner's log holds
  deriving DecidableEq, Repr

/-- Lock-step outside its registers. -/
structure LsSt where
  own    : List Digest         -- not yet matched, oldest first
  theirs : List Theirs
  ending : List Nat            -- reasons of Table 18-5 that wait for the next tick
  accept : Bool                -- both devices have accepted: ACTIVE from the next tick
  sent   : List (Nat × Nat × W64 × Nat)  -- digest messages sent: context, k, digest, frame
  parts  : Nat                 -- partitions compared: PARTITIONS of the arming that was accepted (R463)
  deriving DecidableEq, Repr

/-! ## The device -/

/-- An error mark on a stored word or line until it is written back or overwritten (R70, R247, R516). -/
structure Mark where
  uncorr   : Bool
  injected : Bool
  seen     : Option Nat        -- cycle of its last correction, until the corrected word or line is written back
  wrong    : List (Nat × Byte) -- tier line: bytes of its 72-byte codeword, with what is added to each (R245)
  deriving DecidableEq, Repr

/-- A unit command in progress (R52 to R54). -/
structure UnitRun where
  op      : Nat
  seq     : Nat
  parent  : Option Nat         -- who forwarded it
  prior   : Nat                -- STATE before it acted
  left    : List Nat           -- the unit itself and the members that have not completed
  results : List (Nat × Nat)   -- the unit and members completed, with their results
  fails   : List (Nat × Nat)   -- units reached whose own part was not OK, with their results
  deriving DecidableEq, Repr

/-- The device: everything but the command queue and the propolis tables. -/
structure Dev where
  fuses    : Fuses
  powered  : Bool
  pins     : Pins
  hall     : Nat               -- hall time in ns of the last grid point or tick reached
  regs     : SMap W64          -- register file: unit path * 0x1000 + offset; unlisted: the reset value
  mem      : SMap Byte         -- data space; an unlisted byte reads 0
  marks    : SMap Mark         -- word (8 B) or line (64 B) address to its mark
  acc      : SMap (SMap W32)   -- cell * 2 + bank to accumulators i * 128 + j; unlisted +0
  cells    : SMap CellSt
  combs    : SMap CombSt
  vat      : VatSt
  parts    : SMap PartSt
  ctxs     : SMap Ctx
  rmt      : RmtSt
  fab      : FabSt
  tier     : TierSt
  pwr      : PwrSt
  runs     : SMap UnitRun      -- unit path to its running command
  cellMap  : SMap Nat          -- logical cell to physical cell; unlisted: the initial map (R438)
  combMap  : SMap Nat          -- logical comb to physical comb; unlisted: the initial map
  host     : HostSt
  cpx      : SMap Cpx          -- control complexes 0 and 1
  sec      : SecSt
  wgl      : SMap WglEng       -- Waggle instance to its frame's work
  swm      : SMap SwmEng
  groups   : SMap GroupSt      -- partition to its exchange group
  col      : ColSt
  brd      : BrdSt
  bup      : BupSt
  tim      : TimSt
  ls       : LsSt
  freeSeq  : Nat               -- free values drawn so far (the model's own)
  deriving DecidableEq, Repr

/-- Pins with the package off (R495). -/
def Pins.off : Pins := ⟨false, 0, 0, false, false, false, [], 0⟩

/-- An empty journal. -/
def Journal.empty : Journal := ⟨[], [], [], [], [], [], 0, false, []⟩

/-- The device with nothing running: every register at its reset value, every queue and table empty, every buffer and store at
the value an unlisted entry has. What outlives a power loss is given: fuses and journal. -/
def Dev.blank (f : Fuses) (j : Journal) : Dev where
  fuses    := f
  powered  := false
  pins     := Pins.off
  hall     := 0
  regs     := []
  mem      := []
  marks    := []
  acc      := []
  cells    := []
  combs    := []
  vat      := ⟨[], [], [], [], [], []⟩
  parts    := []
  ctxs     := []
  rmt      := ⟨[], [], [], [], [], [], [], 0, [], []⟩
  fab      := ⟨0, [], [], [], [], [], [], [], [], [], [], [], 1⟩
  tier     := ⟨[], [], [], [], [], [], [], [], [], [], [], [], [], [], [], [], [], [], [], [], []⟩
  pwr      := ⟨[], [], 0, 0, [], [], [], []⟩
  runs     := []
  cellMap  := []
  combMap  := []
  host     := ⟨[], [], [], 0, 0, 0, [], false, []⟩
  cpx      := []
  sec      := ⟨[], [], []⟩
  wgl      := []
  swm      := []
  groups   := []
  col      := ⟨[], [], [], [], []⟩
  brd      := ⟨[], [], [], [], [], 0, [], [], []⟩
  bup      := ⟨false, false, none, j, none, [], [], [], none, []⟩
  tim      := ⟨false, none, 0, 0, []⟩
  ls       := ⟨[], [], [], false, [], 0⟩
  freeSeq  := 0

/-- The grant that the propolis table holds after reset (R490). -/
def grantZero : GrantEntry := ⟨0x1000, 0xF000, 0, 0x1FFF, true, true, false, true, false⟩

/-- The propolis table after reset (R490). -/
def Propolis.reset : Propolis := ⟨[], [], [(0, grantZero)], [], [], [], []⟩

/-- The state of the machine: the commands that wait, first in first out, the propolis table, and the device. -/
structure State where
  pending : List Instr
  prop    : Propolis
  dev     : Dev
  deriving DecidableEq, Repr

/-- The fuses of the part that the model starts from (log entry 3, DESIGN CHOICE). -/
def fuses0 : Fuses := ⟨.m768, 0, 0, 0, 0⟩

/-- The machine after VAUX has risen, with RESET_N low and an empty queue: every register at its reset value. A
POWER_ON_RESET_RELEASE starts it (R420, R495). -/
def State.reset : State := ⟨[], Propolis.reset, Dev.blank fuses0 Journal.empty⟩

end Sys2Proof.Machine
end

