-- ==== Sys2Proof/Machine/Ops.lean ====
section
/-! DEFINITION. The shared operations: unit paths and their members (02 R45 to R47), the register file and its events
(00 R9 R10, 02 R50 R56), the health summary (21 R511, R513), data-space bytes and error marks (02 R66, 21 R516), the
owner of a unit (R520), disturbances (01 R19) and kill requests (01 R37). -/

namespace Sys2Proof.Machine

/-! ## Unit paths (Table 02-2) -/

/-- Path of the device unit. -/
abbrev pDev : Nat := 0
/-- Path of a die. -/
abbrev pDie (d : Nat) : Nat := 1024 + d
/-- Path of a logical comb. -/
abbrev pComb (k : Nat) : Nat := 2048 + k
/-- Path of a logical cell. -/
abbrev pCell (c : Nat) : Nat := 3072 + c
/-- Path of a partition. -/
abbrev pPart (p : Nat) : Nat := 4096 + p
/-- Path of a block: type and instance (Table 02-3). -/
abbrev pBlock (t i : Nat) : Nat := 5120 + 32 * t + i
/-- Path of a physical cell. -/
abbrev pPhysCell (p : Nat) : Nat := 6144 + p
/-- Path of a physical comb. -/
abbrev pPhysComb (m : Nat) : Nat := 6144 + 288 + m

/-- Paths of the blocks of Table 02-3. -/
abbrev pCtl (i : Nat) : Nat := pBlock 0 i
abbrev pWgl (i : Nat) : Nat := pBlock 1 i
abbrev pSwm (i : Nat) : Nat := pBlock 2 i
abbrev pFor (i : Nat) : Nat := pBlock 3 i
abbrev pVat (i : Nat) : Nat := pBlock 4 i
abbrev pBrd : Nat := pBlock 5 0
abbrev pMem (i : Nat) : Nat := pBlock 6 i
abbrev pCxl (i : Nat) : Nat := pBlock 7 i
abbrev pBol (i : Nat) : Nat := pBlock 8 i
abbrev pHxv (i : Nat) : Nat := pBlock 9 i
abbrev pEth (i : Nat) : Nat := pBlock 10 i
abbrev pTim : Nat := pBlock 11 0
abbrev pSec (i : Nat) : Nat := pBlock 12 i
abbrev pPwr : Nat := pBlock 13 0
abbrev pBup : Nat := pBlock 14 0

/-! ## What the grade enables (Table 00-1, R4) -/

/-- Is the part a FDX-M4-224? -/
def Fuses.small (f : Fuses) : Bool := decide (f.grade = .m224)

/-- Logical cells of the grade. -/
def Fuses.nCells (f : Fuses) : Nat := if f.small then 224 else 256

/-- Logical combs of the grade. -/
def Fuses.nCombs (f : Fuses) : Nat := if f.small then 28 else 32

/-- Logical combs on each compute die. -/
def Fuses.perDie (f : Fuses) : Nat := if f.small then 7 else 8

/-- Stacks present: 3 and 7 are absent on FDX-M4-576. -/
def Fuses.stack (f : Fuses) (i : Nat) : Bool := decide (i < 8) && !(decide (f.grade = .m576) && (i == 3 || i == 7))

/-- Bollum ports present: 0 to 13, 30 and 31 on FDX-M4-768T. -/
def Fuses.bol (f : Fuses) (i : Nat) : Bool :=
  decide (i < 32) && (!decide (f.grade = .m768t) || decide (i < 14) || i == 30 || i == 31)

/-- Ethernet ports present. -/
def Fuses.eth (f : Fuses) (i : Nat) : Bool := decide (i < (if f.grade = .m768t then 2 else 4))

/-- Physical combs enabled: FDX-M4-224 fuses off one whole comb of each compute die (comb 9d + 7, R438). -/
def Fuses.physComb (f : Fuses) (m : Nat) : Bool := decide (m < 36) && !(f.small && m % 9 == 7)

/-- Physical cells enabled. -/
def Fuses.physCell (f : Fuses) (p : Nat) : Bool := decide (p < 288) && f.physComb (p / 8)

/-- Instances of a block type that are present (Table 02-3, R4). -/
def Fuses.block (f : Fuses) (t i : Nat) : Bool :=
  match t with
  | 5 | 11 | 13 | 14 => i == 0
  | 6 => f.stack i
  | 7 => decide (i < 4)
  | 8 => f.bol i
  | 10 => f.eth i
  | _ => decide (t < 15) && decide (i < 2)

/-- Does a path name a present unit (R46, R60)? -/
def present (f : Fuses) (u : Nat) : Bool :=
  match pageKind u with
  | .device | .die | .partition => true
  | .comb => decide (u % 1024 < f.nCombs)
  | .cell => decide (u % 1024 < f.nCells)
  | .block t => f.block t (u % 1024 % 32)
  | .physCell => f.physCell (u % 1024)
  | .physComb => f.physComb (u % 1024 - 288)
  | .absent => false

/-- The compute die of a logical comb (Table 02-1). -/
def dieOfComb (f : Fuses) (k : Nat) : Nat := k / f.perDie

/-- The I/O die of a block (Table 02-3). -/
def dieOfBlock (t i : Nat) : Nat :=
  match t with
  | 5 | 11 | 13 => 4
  | 14 => 5
  | 6 => if i < 4 then 4 else 5
  | 7 | 10 => if i < 2 then 4 else 5
  | 8 => if i < 16 then 4 else 5
  | _ => 4 + i

/-- Kind code of a unit (Table 02-1). -/
def kindCode (u : Nat) : Nat :=
  match pageKind u with
  | .device => 0
  | .die => if u % 1024 < 4 then 1 else 2
  | .comb => 3
  | .cell => 4
  | .partition => 5
  | .block _ => 6
  | .physCell => 7
  | .physComb => 8
  | .absent => 0

/-! ## The register file -/

/-- The value a register holds at reset (the tables of spec/; log entry 1 for the sensors). -/
def resetVal (u off : Nat) : W64 :=
  if off = Reg.UNIT_EVENT_MASK then 0x1003E
  else if off < 0x100 then 0
  else BitVec.ofNat 64 (((ownReset (pageKind u)).lookup off).getD 0)

/-- A stored register. -/
def rd (d : Dev) (u off : Nat) : W64 := (smGet d.regs (u * 4096 + off)).getD (resetVal u off)

/-- Sets a stored register. -/
def wr (d : Dev) (u off : Nat) (v : W64) : Dev :=
  { d with regs := smPutD (resetVal u off) d.regs (u * 4096 + off) v }

/-- A register as a number. -/
def rdN (d : Dev) (u off : Nat) : Nat := (rd d u off).toNat

/-- Field hi..lo of a stored register. -/
def rdF (d : Dev) (u off hi lo : Nat) : Nat := fld (rd d u off) hi lo

/-- Bit i of a stored register. -/
def rdB (d : Dev) (u off i : Nat) : Bool := bitAt (rdN d u off) i

/-- Sets field hi..lo of a stored register. -/
def wrF (d : Dev) (u off hi lo n : Nat) : Dev := wr d u off (setFld (rd d u off) hi lo n)

/-- Sets a stored register to a number. -/
def wrN (d : Dev) (u off n : Nat) : Dev := wr d u off (BitVec.ofNat 64 n)

/-- Is the register at an offset of a page 64 bits wide? -/
def isWide (u off : Nat) : Bool := (wideOffs (pageKind u)).contains off

/-- Advances a count by `n`, wrapping at its width. -/
def bump (d : Dev) (u off n : Nat) : Dev :=
  if isWide u off then wrN d u off ((rdN d u off + n) % 2 ^ 64) else wrN d u off ((rdN d u off + n) % 2 ^ 32)

/-- A W1C event: its bit is set and its count advances (R10). -/
def event (d : Dev) (u evOff bit cntOff : Nat) : Dev := bump (wrF d u evOff bit bit 1) u cntOff 1

/-! ## Members and owners -/

/-- The logical combs of a partition's shape, in ascending number. -/
def partCombs (d : Dev) (p : Nat) : List Nat := setBits (rdN d (pPart p) Reg.CTL_PART_COMBS) 32

/-- The logical cells of a partition; cell slot i is the i-th of them (R98). -/
def partCells (d : Dev) (p : Nat) : List Nat :=
  (partCombs d p).flatMap fun k => (List.range 8).map fun i => 8 * k + i

/-- The present members of a unit (Table 02-1). -/
def members (d : Dev) (u : Nat) : List Nat :=
  let f := d.fuses
  match pageKind u with
  | .device => (List.range 6).map pDie
  | .die =>
    let i := u % 1024
    if i < 4 then (List.range f.perDie).map fun j => pComb (f.perDie * i + j)
    else ((List.range 15).flatMap fun t => (List.range 32).filterMap fun b =>
      if f.block t b && dieOfBlock t b == i then some (pBlock t b) else none)
  | .comb => (List.range 8).map fun j => pCell (8 * (u % 1024) + j)
  | .partition => (partCombs d (u % 1024)).map pComb
  | .physComb => (List.range 8).map fun j => pPhysCell (8 * (u % 1024 - 288) + j)
  | _ => []

/-- Path level of the members (UNIT_INFO). -/
def memberLevel (u : Nat) : Nat :=
  match pageKind u with
  | .device => 1
  | .die => if u % 1024 < 4 then 2 else 5
  | .comb => 3
  | .partition => 2
  | .physComb => 6
  | _ => 0

/-- The units whose member a unit is. -/
def parents (d : Dev) (u : Nat) : List Nat :=
  match pageKind u with
  | .die => [pDev]
  | .comb => pDie (dieOfComb d.fuses (u % 1024)) ::
      ((List.range 16).filter fun p => (partCombs d p).contains (u % 1024)).map pPart
  | .cell => [pComb (u % 1024 / 8)]
  | .block t => [pDie (dieOfBlock t (u % 1024 % 32))]
  | .physCell => [pPhysComb (u % 1024 / 8)]
  | _ => []

/-- The physical cell that carries a logical cell (R438). -/
def physOf (d : Dev) (c : Nat) : Nat :=
  let k := c / 8
  let n := d.fuses.perDie
  smGetD (72 * (k / n) + 8 * (k % n) + c % 8) d.cellMap c

/-- The physical comb that carries a logical comb. -/
def physCombOf (d : Dev) (k : Nat) : Nat :=
  let n := d.fuses.perDie
  smGetD (9 * (k / n) + k % n) d.combMap k

/-- The partition whose shape holds a comb. -/
def combOwner (d : Dev) (k : Nat) : Option Nat := (List.range 16).find? fun p => (partCombs d p).contains k

/-- Does a partition have an image loaded (CTL_LOAD_STATUS.LOADED)? -/
def loaded (d : Dev) (p : Nat) : Bool := rdB d (pPart p) Reg.CTL_LOAD_STATUS 4

/-- A free context. -/
def Ctx.init : Ctx := ⟨.free, 0, 0, 0, false, false, 0, none, false, none, [], 0, 0, 0, 0, 0, 0, 0, [], 0, [], false⟩

/-- A context. -/
def ctxOf (d : Dev) (c : Nat) : Ctx := smGetD Ctx.init d.ctxs c

/-- Changes a context. -/
def modCtx (d : Dev) (c : Nat) (g : Ctx → Ctx) : Dev := { d with ctxs := smModD Ctx.init d.ctxs c g }

/-- The open contexts of a partition, in ascending number. -/
def ctxsOf (d : Dev) (p : Nat) : List Nat :=
  (List.range 256).filter fun c => let x := ctxOf d c; decide (x.state ≠ .free) && x.part == p

/-- The images loaded in a partition, with their contexts. -/
def images (d : Dev) (p : Nat) : List (Nat × Image) :=
  (ctxsOf d p).filterMap fun c => (ctxOf d c).image.map fun i => (c, i)

/-- The owner of a unit (R520). -/
def ownerOf (d : Dev) (u : Nat) : Option Nat :=
  match pageKind u with
  | .comb => combOwner d (u % 1024)
  | .cell => combOwner d (u % 1024 / 8)
  | .physCell => ((List.range d.fuses.nCells).find? fun c => physOf d c == u % 1024).bind fun c => combOwner d (c / 8)
  | .physComb => ((List.range d.fuses.nCombs).find? fun k => physCombOf d k == u % 1024 - 288).bind (combOwner d)
  | .block 1 => (List.range 16).find? fun p => (images d p).any fun e => e.2.wglEngines.contains (u % 32)
  | .block 2 => (List.range 16).find? fun p => (images d p).any fun e => e.2.swmEngines.contains (u % 32)
  | _ => none

/-! ## The health summary (21 R511, R513) -/

/-- The highest class whose bit is set, or 0. -/
def worst (d : Dev) : Nat :=
  ((List.range 6).filter fun i => rdB d pDev Reg.CTL_HLT_EVENTS i).foldl (fun _ i => i + 1) 0

/-- CTL_HLT_SUMMARY without SEQ, as the registers it copies stand. -/
def summaryNow (d : Dev) : Nat :=
  let st := rdF d pDev Reg.UNIT_STATE 2 0
  worst d + (if st = 2 ∨ st = 3 then 8 else 0) + 16 * rdF d pBup Reg.BUP_STATUS 3 0
    + 256 * rdF d pTim Reg.TIM_STATUS 2 0 + 2048 * b2n (rdB d pDev Reg.UNIT_EVENTS 16)

/-- Brings CTL_HLT_SUMMARY up to date; SEQ advances, and an in-band interrupt is due, when WORST, PHASE, TIME_STATE or
MEMBER_EVENT changed (R513, R515). -/
def hltSync (d : Dev) : Dev :=
  let old := rdN d pDev Reg.CTL_HLT_SUMMARY
  let new := summaryNow d
  let seq := old / 65536
  if (old % 65536) / 16 = new / 16 ∧ old % 8 = new % 8 then
    wrN d pDev Reg.CTL_HLT_SUMMARY (seq * 65536 + new)
  else
    let d := wrN d pDev Reg.CTL_HLT_SUMMARY ((seq + 1) % 65536 * 65536 + new)
    { d with pins := { d.pins with ibi := true } }

/-- The partition frame number. -/
def frameNum (d : Dev) (p : Nat) : Nat := rdF d (pPart p) Reg.CTL_FRAME_NUM 15 0

/-- The frame number that a class event of a unit records: its partition's, or 0 (R513). -/
def frameOf (d : Dev) (u : Nat) : Nat :=
  if pageKind u = .partition then frameNum d (u % 1024) else ((ownerOf d u).map (frameNum d)).getD 0

/-- A class event (R511): class, unit path, frame number (log entry 40, DEDUCED) (log entry 41, DESIGN CHOICE). -/
def classEvent (d : Dev) (c u frame : Nat) : Dev :=
  let d := event d pDev Reg.CTL_HLT_EVENTS (c - 1) (Reg.CTL_EVT_CLASS c)
  hltSync (wrN d pDev Reg.CTL_HLT_LAST (u + c * 8192 + frame % 65536 * 65536))

/-- The bits of UNIT_EVENTS (Table 02-10). -/
inductive HdrEv where
  | cmdDone | cmdFailed | errCorr | errUncorr | accessErr | stateChange
  deriving DecidableEq, Repr

/-- The bit number of a header event. -/
def HdrEv.bit : HdrEv → Nat
  | .cmdDone => 0 | .cmdFailed => 1 | .errCorr => 2 | .errUncorr => 3 | .accessErr => 4 | .stateChange => 5

/-- A header event: its bit, its count, and class 1 for a correction (R56, R510). -/
def hdrEvent (d : Dev) (u : Nat) (e : HdrEv) : Dev :=
  let d := event d u Reg.UNIT_EVENTS e.bit (Reg.UNIT_EVT_CMD_DONE + 4 * e.bit)
  if e = .errCorr then classEvent d 1 u (frameOf d u) else d

/-- A header event of a unit inside a partition: the class event records its frame number. -/
def corrEvent (d : Dev) (u frame : Nat) : Dev :=
  classEvent (event d u Reg.UNIT_EVENTS 2 Reg.UNIT_EVT_ERR_CORR) 1 u frame

/-- The groups of CTL_HLT_COUNT_MASK (R512): a selected group also sets ERR_CORR in the unit's header. -/
def noted (d : Dev) (group u : Nat) : Dev :=
  if rdB d pDev Reg.CTL_HLT_COUNT_MASK group then hdrEvent d u .errCorr else d

/-- `n` events of a group of R512. -/
def eventsG (d : Dev) (group u evOff bit cntOff n : Nat) : Dev :=
  if n = 0 then d else noted (bump (wrF d u evOff bit bit 1) u cntOff n) group u

/-- `n` events of a unit's own register. -/
def events (d : Dev) (u evOff bit cntOff n : Nat) : Dev :=
  if n = 0 then d else bump (wrF d u evOff bit bit 1) u cntOff n

/-- An event of a group of R512. -/
def eventG (d : Dev) (group u evOff bit cntOff : Nat) : Dev := noted (event d u evOff bit cntOff) group u

/-! ## Unit state (Table 02-6) -/

/-- The values of STATE. -/
inductive UState where
  | off | resetting | ready | running | quiesced | failed | spared | testing
  deriving DecidableEq, Repr

/-- The code of a unit state. -/
def UState.code : UState → Nat
  | .off => 0 | .resetting => 1 | .ready => 2 | .running => 3 | .quiesced => 4 | .failed => 5 | .spared => 6
  | .testing => 7

/-- STATE of a unit. -/
def unitState (d : Dev) (u : Nat) : Nat := rdF d u Reg.UNIT_STATE 2 0

/-- A unit's STATE is a given one. -/
def stateIs (d : Dev) (u : Nat) (s : UState) : Bool := unitState d u == s.code

/-- Moves a unit to a state; a change sets STATE_CHANGE (R56). -/
def setState (d : Dev) (u : Nat) (s : UState) : Dev :=
  if unitState d u = s.code then d
  else
    let d := hdrEvent (wrF d u Reg.UNIT_STATE 2 0 s.code) u .stateChange
    if u = pDev then hltSync d else d

/-! ## Traffic for a unit in reset (17 R437) -/

/-- The units whose reset absorbs traffic for a logical cell (Table 17-8). -/
def cellUnits (d : Dev) (c : Nat) : List Nat :=
  [pCell c, pComb (c / 8), pPhysCell (physOf d c), pPhysComb (physCombOf d (c / 8))]

/-- The units whose reset absorbs writes at an address of data space. -/
def storeUnits (d : Dev) (a : Nat) : List Nat :=
  if 0x080040000000 ≤ a then cellUnits d ((a - 0x080040000000) / 0x400000)
  else if 0x080000000000 ≤ a then
    let k := (a - 0x080000000000) / 0x1000000
    [pComb k, pPhysComb (physCombOf d k)]
  else []

/-- Traffic for a unit in reset is discarded and counted; other traffic acts (R437). -/
def absorbing (d : Dev) (us : List Nat) (act : Dev → Dev) : Dev :=
  if us.any fun u => stateIs d u .resetting then
    bump (event d pBup Reg.BUP_EVENTS 3 Reg.BUP_EVT_ABSORBED) pBup Reg.BUP_ABSORBED 1
  else act d

/-! ## Cells, combs and partitions of the state -/

/-- A cell as R100 leaves it with no stream enabled. -/
def CellSt.init : CellSt :=
  ⟨[], [], [], [], [], 0, [], [], 0, 0, 0, 0, 0, [], 0, 0, 0, 0, false, false, 0, 0, 0, 0, 0, false, false, 0, false, false⟩

/-- A comb with no broadcast. -/
def CombSt.init : CombSt := ⟨0, 0, 0, 0⟩

/-- A partition with no work. -/
def PartSt.init : PartSt :=
  ⟨false, none, none, none, false, none, [], [], [], [], false, [], none, [], [], [], [], [], none, false, false, 0, 0, [], none, [],
    false, 0, false, []⟩

/-- The state of a logical cell. -/
def cellOf (d : Dev) (c : Nat) : CellSt := smGetD CellSt.init d.cells c

/-- Changes a cell. -/
def modCell (d : Dev) (c : Nat) (g : CellSt → CellSt) : Dev := { d with cells := smModD CellSt.init d.cells c g }

/-- The state of a comb. -/
def combOf (d : Dev) (k : Nat) : CombSt := smGetD CombSt.init d.combs k

/-- Changes a comb. -/
def modComb (d : Dev) (k : Nat) (g : CombSt → CombSt) : Dev := { d with combs := smModD CombSt.init d.combs k g }

/-- The state of a partition. -/
def partOf (d : Dev) (p : Nat) : PartSt := smGetD PartSt.init d.parts p

/-- Changes a partition. -/
def modPart (d : Dev) (p : Nat) (g : PartSt → PartSt) : Dev := { d with parts := smModD PartSt.init d.parts p g }

/-- The context and slice index that run in the current frame (CTL_SCHED_NOW, CTL_SLICE_IDX); none in an idle frame. -/
def running (d : Dev) (p : Nat) : Option (Nat × Nat) :=
  let c := rdF d (pPart p) Reg.CTL_SCHED_NOW 7 0
  let x := ctxOf d c
  if rdB d (pPart p) Reg.CTL_SCHED_NOW 8 || (decide (x.state ≠ .running) && decide (x.state ≠ .halted)) || x.part != p then none
  else some (c, rdN d (pPart p) Reg.CTL_SLICE_IDX)

/-- The image slice of an index (R16). -/
def imageSlice (x count : Nat) (loop : Bool) (loopStart : Nat) : Option Nat :=
  if x < count then some x
  else if loop then some (loopStart + (x - loopStart) % (count - loopStart)) else none

/-- The arithmetic clock in MHz (R7; PWR_CLOCK_ACTIVE holds 0, 1, 2 for 940, 705, 470). -/
def clockMHz (code : Nat) : Nat := if code = 0 then 940 else if code = 1 then 705 else 470

/-- Frame length in ns (R12, R13). -/
def frameLen (exp : Nat) : Nat := 1000 * 2 ^ (exp + 3)

/-! ## Data space (Table 02-15) -/

/-- Device offset of a cell store byte. -/
abbrev cellAddr (c o : Nat) : Nat := 0x080040000000 + c * 0x400000 + o

/-- Device offset of a comb store byte. -/
abbrev combAddr (k o : Nat) : Nat := 0x080000000000 + k * 0x1000000 + o

/-- A byte of data space (log entry 4, DESIGN CHOICE). -/
def readByte (d : Dev) (a : Nat) : Byte := smGetD 0 d.mem a

/-- `n` bytes of data space. -/
def readBytes (d : Dev) (a n : Nat) : List Byte := (List.range n).map fun i => readByte d (a + i)

/-- The little-endian number in `n` bytes of data space. -/
def readLe (d : Dev) (a n : Nat) : Nat := leNat (readBytes d a n)

/-- Bytes written into sparse memory from an address up. -/
def putBytes : SMap Byte → Nat → List Byte → SMap Byte
  | m, _, [] => m
  | m, a, b :: bs => putBytes (smPutD 0 m a b) (a + 1) bs

/-- Is an address in a cell or comb store? -/
def inStore (a : Nat) : Bool := decide (0x080000000000 ≤ a)

/-- The mark key of an address: its 8-byte word in a store (R70), its 64-byte line in a tier (R245). -/
def markKey (a : Nat) : Nat := if inStore a then a / 8 * 8 else a / 64 * 64

/-- The mark keys of a range. -/
def markKeys (a n : Nat) : List Nat :=
  let w := if inStore a then 8 else 64
  if n = 0 then [] else (List.range ((a + n - 1) / w - a / w + 1)).map fun i => (a / w + i) * w

/-- Consumes an armed injection (R516). -/
def injUsed (d : Dev) : Dev :=
  let d := wrF (wrF d pDev Reg.CTL_INJ_STATUS 11 11 0) pDev Reg.CTL_INJ_STATUS 12 12 1
  bump d pDev Reg.CTL_EVT_INJECTED 1

/-- Cancels an armed injection (R516). -/
def injCancel (d : Dev) : Dev := wrF d pDev Reg.CTL_INJ_STATUS 11 11 0

/-- The marks that a read of `n` bytes at `a` meets. -/
def marksIn (d : Dev) (a n : Nat) : List (Nat × Mark) :=
  if n = 0 then []
  else d.marks.filter fun e => decide (a < e.1 + (if inStore a then 8 else 64)) && decide (e.1 < a + n)

/-- Removes the mark of a word or line that a write covers wholly; that cancels an injection. -/
def dropMark (d : Dev) (k : Nat) : Dev :=
  match smGet d.marks k with
  | none => d
  | some m =>
    let d := { d with marks := smDel d.marks k }
    if m.injected then injCancel d else d

/-- Marks of the words or lines that a write of `n` bytes at `a` covers wholly are removed; a store write covers whole
words (R516). -/
def dropMarks (d : Dev) (a n : Nat) : Dev :=
  ((marksIn d a n).filter fun e => inStore a || (decide (a ≤ e.1) && decide (e.1 + 64 ≤ a + n))).foldl
    (fun d e => dropMark d e.1) d

/-- Writes bytes into data space; a whole marked word or line is good again. -/
def writeBytes (d : Dev) (a : Nat) (bs : List Byte) : Dev :=
  dropMarks { d with mem := putBytes d.mem a bs } a bs.length

/-- The stored codeword of a tier line: that of its data, with the bytes that are wrong (R245). -/
def lineWord (d : Dev) (l : Nat) : List Byte :=
  corrupt (codeword (readBytes d l 64)) (((smGet d.marks l).map Mark.wrong).getD [])

/-- What a read makes of a marked word or line: uncorrectable when it was made so, else what its code makes of its wrong bytes. -/
def Mark.read (m : Mark) : RsRead := if m.uncorr then .lost else rsRead m.wrong

/-- Is a marked word or line uncorrectable? -/
def Mark.lost (m : Mark) : Bool := decide (m.read = .lost)

/-- A read uses a mark: an injection is consumed; a corrected word or line keeps its mark, with the cycle of the read, until it is
written back. -/
def useMark (d : Dev) (k : Nat) (m : Mark) (v : Option Nat) : Dev :=
  let d := if m.injected then injUsed d else d
  { d with marks := smPut d.marks k { m with injected := false, seen := if m.lost then none else v } }

/-! ## Disturbances and kills (01 R18, R19, R37) -/

/-- The cause codes of Table 01-2. -/
abbrev causeTier : Nat := 1
abbrev causeRemote : Nat := 2
abbrev causeLink : Nat := 3
abbrev causeScrub : Nat := 4
abbrev causePower : Nat := 5

/-- A disturbance of a partition: events and stall cycles of its cause advance, and the first of the frame is kept. -/
def disturb (d : Dev) (p cause events cycles sub : Nat) : Dev :=
  let d := bump d (pPart p) (Reg.CTL_DIST_EVENTS cause) events
  let d := bump d (pPart p) (Reg.CTL_DIST_CYCLES cause) cycles
  modPart d p fun t => if t.dist.isSome then t else { t with dist := some ⟨cause, sub⟩ }

/-- Stops issue in every cell of a partition (R37, R114). -/
def stopIssue (d : Dev) (p : Nat) : Dev :=
  (partCells d p).foldl (fun d c => modCell d c fun t => { t with killed := true }) d

/-- Files a kill request: for the current frame up to its completion cut, else for the next (R37). -/
def fileKill (d : Dev) (p reason : Nat) : Dev :=
  if (partOf d p).cutTaken then
    modPart d p fun t => { t with killNext := some (t.killNext.getD reason) }
  else
    stopIssue (modPart d p fun t => { t with killNow := some (t.killNow.getD reason) }) p

/-- Halts a partition at its last committed state: HALTED, class 4 and every context of it HALTED (R34, R380). -/
def haltPart (d : Dev) (p : Nat) : Dev :=
  let d := wrF d (pPart p) Reg.CTL_FRAME_STATUS 6 6 1
  let d := (ctxsOf d p).foldl (fun d c => modCtx d c fun x =>
    if x.image.isSome then { x with state := .halted, runLen := 0 } else x) d
  classEvent d 4 (pPart p) (frameNum d p)

/-- Is lock-step ACTIVE for a partition (R463)? -/
def lockstepOn (d : Dev) (p : Nat) : Bool :=
  rdF d pTim Reg.TIM_LS_STATUS 1 0 == 2 && bitAt d.ls.parts p

/-- Notes a write of `n` bytes at `a` for the frame's commit digest (R464). -/
def noteWrite (d : Dev) (p unit record a n : Nat) : Dev :=
  if lockstepOn d p then modPart d p fun t => { t with wrote := t.wrote ++ [(unit, record, a, n)] } else d

/-- Draws a free value number (log entry 2, DESIGN CHOICE). -/
def drawFree (d : Dev) : Dev := { d with freeSeq := d.freeSeq + 1 }

end Sys2Proof.Machine
end

