-- ==== Sys2Proof/Machine/Journal.lean ====
section
/-! DEFINITION. The journal of the configuration store (17 R446 to R449): its records with their check sum and tag (19 R475), and what a
replay makes of one that is lost (R448). -/

namespace Sys2Proof.Machine

/-- The journal key (R473). -/
def journalKey : List Byte := hkdf256 (List.replicate 32 0) ((List.range 32).map Config.seed) (ascii "FDX journal") 32

/-- Bytes 0x01 to 0x0B of a record's header (Table 17-10). -/
def journalHead (type seq key len : Nat) : List Byte := leBytes 1 type ++ leBytes 2 len ++ leBytes 4 seq ++ leBytes 4 key

/-- The TAG of a record (R475). -/
def journalTag (key head payload : List Byte) : List Byte := (hmac256 key (head ++ payload)).take 16

/-- The bytes of a record that is complete: COMMIT 0, header, payload, padding to 32 B (Table 17-10). -/
def journalBytes (type seq key : Nat) (payload : List Byte) : List Byte :=
  let head := journalHead type seq key payload.length
  let tag := journalTag journalKey head payload
  sliceBytes (leBytes 1 0 ++ head ++ leBytes 4 (crc32c (head ++ tag ++ payload)) ++ tag ++ payload) 0 (roundUp (32 + payload.length) 32)

/-- Does a record pass its CRC and its TAG under a key (R448)? -/
def journalGood (key raw : List Byte) : Bool :=
  let head := sliceBytes raw 1 11
  let payload := sliceBytes raw 32 (leAt raw 2 2)
  leAt raw 0 1 == 0 && leAt raw 12 4 == crc32c (head ++ sliceBytes raw 16 16 ++ payload)
    && sliceBytes raw 16 16 == journalTag key head payload

/-- Free segments of the journal after a record: payload layouts are the factory record's, so their sizes and the fall are free. -/
def journalUsed (d : Dev) : Dev :=
  let n := rdF d pBup Reg.BUP_JOURNAL 6 0
  drawFree (wrN d pBup Reg.BUP_JOURNAL (Config.freeValue d.freeSeq 0 % (n + 1)))

/-- The number of a row of a stack among the subjects. -/
def rowSubject (st row : Nat) : Nat := st + 8 * row

/-- A record is journalled, of a payload that the spec does not give: BUP_JOURNAL_SEQ shows its number (R447, R448). -/
def journalled (d : Dev) (type subject : Nat) (value : Option (List Nat)) : Dev :=
  let j := d.bup.journal
  let n := (j.seq + 1) % 2 ^ 32
  let payload := (List.range (Config.freeValue d.freeSeq 1 % 4065)).map (Config.freeByte d.freeSeq)
  let r : JRec := ⟨type, subject, value, n, journalBytes type n (Config.journalKey type subject % 2 ^ 32) payload⟩
  journalUsed (wrN { d with bup := { d.bup with journal := { j with seq := n, records := j.records ++ [r] } } } pBup Reg.BUP_JOURNAL_SEQ n)

/-! ## Replay (R448) -/

/-- The newest record of a type and subject. -/
def newestRec (l : List JRec) (type subject : Nat) : Option JRec := (l.filter fun r => r.type == type && r.subject == subject).getLast?

/-- What the replay makes of a type and subject, from the newest record of them. -/
def replayOne (d : Dev) (type subject : Nat) (value : Option (List Nat)) : Dev :=
  let j := d.bup.journal
  let t := d.tier
  let put := fun (j : Journal) => { d with bup := { d.bup with journal := j } }
  match type with
  | 1 =>
    let q := subject % 1024
    if q < 288 then
      let m := j.cells.filter fun e => e.2 != q
      put { j with cells := match value with
        | some (c :: _) => smPut m c q
        | _ => m }
    else
      let m := j.combs.filter fun e => e.2 != q - 288
      put { j with combs := match value with
        | some (k :: _) => smPut m k (q - 288)
        | _ => m }
  | 2 => put { j with soft := (j.soft.filter (· != subject)) ++ if value.isSome then [subject] else [] }
  | 3 =>
    let st := subject % 8
    let l := (smGetD [] t.rows st).filter fun r => r.row != subject / 8
    let n := ((value.bind List.head?).getD 0)
    { d with tier := { t with rows := smPutD [] t.rows st (l ++ List.replicate n ⟨subject / 8, false⟩) } }
  | 4 =>
    let m := t.poison.map fun e => (e.1, e.2.filter (· != subject))
    { d with tier := { t with poison := match value with
      | some (k :: _) => smModD [] m k (· ++ [subject])
      | _ => m } }
  | 5 =>
    let m := smDel t.retire subject
    { d with tier := { t with retire := match value with
      | some ex => smPut m subject (.retired (ex.zipIdx.map fun e => (e.2, e.1)))
      | none => m } }
  | 6 | 7 => put { j with trained := (j.trained.filter (· != subject)) ++ if value.isSome then [subject] else [] }
  | _ => d

/-- A record that fails in both copies is ignored: an earlier one of its type and subject holds again (R448). -/
def journalLost (d : Dev) (seq : Nat) : Dev :=
  let j := d.bup.journal
  match j.records.find? fun r => r.seq == seq with
  | none => d
  | some r =>
    let l := j.records.filter fun q => q.seq != seq
    let d' := { d with bup := { d.bup with journal := { j with records := l } } }
    if newestRec j.records r.type r.subject = some r then replayOne d' r.type r.subject ((newestRec l r.type r.subject).bind JRec.value) else d'

/-- The snapshot of a compaction: the current record of every type and subject, written again (R449). -/
def snapshot (d : Dev) : Dev :=
  let l := d.bup.journal.records
  let cur := l.filter fun r => r.type != 8 && newestRec l r.type r.subject == some r && r.value.isSome
  let d := cur.foldl (fun d r => journalled d r.type r.subject r.value) { d with bup := { d.bup with journal := { d.bup.journal with records := [] } } }
  journalled d 8 0 none

end Sys2Proof.Machine
end

