-- ==== Sys2Proof/Machine/Operands.lean ====
section
/-! DEFINITION. Operand forms: which data-space ranges exist (02 R66, 10 R253, R254), handles and the checks that the
Vat managers make of every presented handle (11 R291, R299), and the tier figures (10 R243, Table 10-2). -/

namespace Sys2Proof.Machine

/-! ## Ranges of data space -/

/-- Data capacity of a CXL port in bytes: Tier C, or Tier F (CXL_CAP). -/
def cxlBytes (d : Dev) (port : Nat) (f : Bool) : Nat :=
  (if f then rdF d (pCxl port) Reg.CXL_CAP 26 16 else rdF d (pCxl port) Reg.CXL_CAP 9 0) * 2 ^ 30

/-- Where an address lies. -/
inductive Where where
  | tierH | tierC (port : Nat) | tierF (port : Nat) | comb (k : Nat) | cell (c : Nat) | absent
  deriving DecidableEq, Repr

/-- The place of one device offset (Table 02-15, R66). -/
def whereIs (d : Dev) (a : Nat) : Where :=
  if a < 0xC000000000 then
    if d.fuses.grade = .m576 ∧ 0x9000000000 ≤ a then .absent else .tierH
  else if a < 0x10000000000 then .absent
  else if a < 0x30000000000 then
    let p := (a - 0x10000000000) / 0x8000000000
    if (a - 0x10000000000) % 0x8000000000 < cxlBytes d p false then .tierC p else .absent
  else if a < 0x40000000000 then .absent
  else if a < 0x80000000000 then
    let p := (a - 0x40000000000) / 0x10000000000
    if (a - 0x40000000000) % 0x10000000000 < cxlBytes d p true then .tierF p else .absent
  else if a < 0x80020000000 then
    let k := (a - 0x80000000000) / 0x1000000
    if k < d.fuses.nCombs then .comb k else .absent
  else if a < 0x80040000000 then .absent
  else if a < 0x80080000000 then
    let c := (a - 0x80040000000) / 0x400000
    if c < d.fuses.nCells then .cell c else .absent
  else .absent

/-- Does a whole range lie in present regions (R66)? A range within one region does; so does one of at most 256 MiB that begins and ends
in present regions, since what lies between regions is larger. -/
def rangeOk (d : Dev) (a n : Nat) : Bool :=
  decide (0 < n) && decide (whereIs d a ≠ .absent) && decide (whereIs d (a + n - 1) ≠ .absent)
    && (decide (n ≤ 2 ^ 28) || decide (whereIs d a = whereIs d (a + n - 1)))

/-- Tier number: 0 store, 1 H, 2 C, 3 F. -/
def tierOfAddr (d : Dev) (a : Nat) : Nat :=
  match whereIs d a with
  | .tierH => 1 | .tierC _ => 2 | .tierF _ => 3 | _ => 0

/-- The CXL port of an address, if it lies in Tier C or F. -/
def portOfAddr (d : Dev) (a : Nat) : Option Nat :=
  match whereIs d a with
  | .tierC p => some p | .tierF p => some p | _ => none

/-- The present stacks. -/
def stacksOf (f : Fuses) : List Nat := (List.range 8).filter f.stack

/-- The stack of a Tier H offset and its stack-local offset (R243). -/
def tierHPlace (f : Fuses) (off : Nat) : Nat × Nat :=
  let u := off / 4096
  let ps := stacksOf f
  let n := ps.length
  (ps.getD (u % n) 0, u / n * 4096 + off % 4096)

/-- Is a stack retired (R282)? -/
def retiredStack (d : Dev) (st : Nat) : Bool := match smGet d.tier.retire st with
  | some (.retired _) => true
  | _ => false

/-- A Tier H, C or F line's poison list: stack, or 8 + port; a unit of a retired stack lies behind port v mod 4 (R282). -/
def poisonKey (d : Dev) (a : Nat) : Nat :=
  match whereIs d a with
  | .tierC p => 8 + p
  | .tierF p => 8 + p
  | _ =>
    let s := tierHPlace d.fuses a
    if retiredStack d s.1 then 8 + s.2 / 4096 % 4 else s.1

/-- The unit that owns an address: MEM block, CXL port, comb or cell. -/
def memUnit (d : Dev) (a : Nat) : Nat :=
  match whereIs d a with
  | .tierH => let k := poisonKey d a; if k < 8 then pMem k else pCxl (k - 8)
  | .tierC p => pCxl p
  | .tierF p => pCxl p
  | .comb k => pComb k
  | .cell c => pCell c
  | .absent => pDev

/-! ## Handles (Table 11-3) -/

/-- POOL of a handle. -/
def hPool (h : Nat) : Nat := h / 2 ^ 28 % 16
/-- INDEX of a handle. -/
def hIndex (h : Nat) : Nat := h / 256 % 2 ^ 20
/-- GENERATION of a handle. -/
def hGen (h : Nat) : Nat := h % 256
/-- A handle from its fields. -/
def mkHandle (pool index gen : Nat) : Nat := pool * 2 ^ 28 + index * 256 + gen

/-- Bytes of a size class (Table 04-10). -/
def classBytes (cls : Nat) : Nat := 4096 * 16 ^ cls

/-- The tier of a pool (Table 11-1). -/
def poolTier (pool : Nat) : Nat := if pool < 3 then 0 else if pool < 8 then 1 else if pool < 12 then 2 else 3

/-- The size class of a pool. -/
def poolClass (pool : Nat) : Nat :=
  if pool < 3 then pool else if pool < 8 then pool - 3 else if pool < 12 then pool - 7 else pool - 11

/-- The pool of a tier and class, if there is one (R286). -/
def poolOf (tier cls : Nat) : Option Nat :=
  match tier with
  | 0 => if cls < 3 then some cls else none
  | 1 => if cls < 5 then some (3 + cls) else none
  | 2 => if 1 ≤ cls ∧ cls < 5 then some (7 + cls) else none
  | _ => if 1 ≤ cls ∧ cls < 5 then some (11 + cls) else none

/-- Bytes of a buffer of a pool. -/
def poolBytes (pool : Nat) : Nat := classBytes (poolClass pool)

/-- The comb or port an index names (Table 11-1). -/
def poolSub (pool index : Nat) : Nat := if pool < 3 then index / 2 ^ 15 else if pool < 8 then 0 else index / 2 ^ 18

/-- The position of an index in its region. -/
def poolPos (pool index : Nat) : Nat :=
  if pool < 3 then index % 2 ^ 15 else if pool < 8 then index else index % 2 ^ 18

/-- The index of a position in a region. -/
def poolIdx (pool sub pos : Nat) : Nat := if pool < 3 then sub * 2 ^ 15 + pos else if pool < 8 then pos else sub * 2 ^ 18 + pos

/-- The Vat instance that owns a pool (R285). -/
def poolInst (pool : Nat) : Nat := if pool < 8 then 0 else 1

/-- An empty region: no buffers. -/
def Region.none_ : Region := ⟨0, 0, 0, [], 0⟩

/-- The region of a pool and comb or port. -/
def regionOf (v : VatSt) (pool sub : Nat) : Region := smGetD Region.none_ v.regions (pool * 64 + sub)

/-- A buffer never issued (log entry 5, DESIGN CHOICE: first generation 1). -/
def Buf.init : Buf := ⟨.free, 1, 0, 0, false, false⟩

/-- The buffer of a pool and index. -/
def bufOf (v : VatSt) (pool index : Nat) : Buf := smGetD Buf.init v.bufs (pool * 2 ^ 20 + index)

/-- Changes a buffer. -/
def modBuf (v : VatSt) (pool index : Nat) (g : Buf → Buf) : VatSt :=
  { v with bufs := smModD Buf.init v.bufs (pool * 2 ^ 20 + index) g }

/-- Device offset of a buffer (R287). -/
def bufAddr (v : VatSt) (h : Nat) : Nat :=
  (regionOf v (hPool h) (poolSub (hPool h) (hIndex h))).base + poolPos (hPool h) (hIndex h) * poolBytes (hPool h)

/-- Is a tier of a port READ_ONLY (R264, CXL_STATUS)? -/
def tierRO (d : Dev) (tier port : Nat) : Bool :=
  (tier == 2 && rdB d (pCxl port) Reg.CXL_STATUS 2) || (tier == 3 && rdB d (pCxl port) Reg.CXL_STATUS 3)

/-- The check of a presented handle (R299, Table 11-6): 0, or the code of the first check that fails. -/
def handleCode (d : Dev) (part h off : Nat) (write : Bool) : Nat :=
  let pool := hPool h
  let sub := poolSub pool (hIndex h)
  let b := bufOf d.vat pool (hIndex h)
  let anyRegion := (List.range 64).any fun i => decide (0 < (regionOf d.vat pool i).count)
  if hGen h = 0 then 1
  else if !anyRegion then 2
  else if (regionOf d.vat pool sub).count ≤ poolPos pool (hIndex h) then 3
  else if b.gen ≠ hGen h then 4
  else if b.state = .free ∨ b.state = .withheld then 5
  else if b.part ≠ part then 6
  else if off % 32 ≠ 0 then 7
  else if write ∧ (b.state = .published ∨ b.state = .leaving ∨ b.mode2 ∨ tierRO d (poolTier pool) sub) then 8
  else 0

/-- Records a failed check: CHECK_FAIL and VAT_LAST_ERR of the instance that owns the pool (R299, Table 11-7). -/
def checkFailed (d : Dev) (part h : Nat) (write : Bool) (code : Nat) : Dev :=
  let u := pVat (poolInst (hPool h))
  let d := event d u Reg.VAT_EVENTS 3 Reg.VAT_EVT_CHECK_FAIL
  wrN d u Reg.VAT_LAST_ERR (code + 16 * hPool h + 256 * part + 4096 * b2n write)

/-- Why a handle operand does not name bytes. -/
inductive OpErr where
  | check (code : Nat)
  | range
  deriving DecidableEq, Repr

/-- A handle operand: the device offset of byte `off` of the buffer, when the handle passes the checks and `n` bytes
fit (R299; RANGE is the presenter's own check). -/
def handleOperand (d : Dev) (part h off n : Nat) (write : Bool) : Except OpErr Nat :=
  let code := handleCode d part h off write
  if code ≠ 0 then .error (.check code)
  else if poolBytes (hPool h) < off + n then .error .range
  else .ok (bufAddr d.vat h + off)

/-! ## Reading and writing through the tiers -/

/-- The cache slot of a chunk (R261). -/
def slotOf (t : TierSt) (chunk : Nat) : Option CacheSlot := t.slots.find? fun s => s.chunk == chunk

/-- A byte as a tier read delivers it: valid sectors of a write-back slot come first (R262). -/
def tierByte (d : Dev) (a : Nat) : Byte :=
  if inStore a then readByte d a
  else match slotOf d.tier (a / 65536 * 65536) with
    | some s => if s.valid.contains (a % 65536 / 32) then smGetD 0 s.data (a % 65536) else readByte d a
    | none => readByte d a

/-- Bytes as a tier read delivers them. -/
def tierBytes (d : Dev) (a n : Nat) : List Byte := (List.range n).map fun i => tierByte d (a + i)

/-- Does a range of Tier H reach into the caches at its top (R260)? -/
def inCaches (d : Dev) (a n : Nat) : Bool :=
  let top := if d.fuses.grade = .m576 then 0x9000000000 else 0xC000000000
  let gib := (List.range 4).foldl (fun m p => m + smGetD 4 d.tier.cache p) 0
  decide (a < top) && decide (top - gib * 2 ^ 30 < a + n)

/-! ## What others see of a running frame (01 R23) -/

/-- A frame's write replaces bytes outside the cell stores: others see the old ones up to the tick (R23). -/
def keepOld (d : Dev) (p a : Nat) (old : List Byte) : Dev :=
  if 0x80040000000 ≤ a then d else modPart d p fun t => { t with before := t.before ++ [(a, old)] }

/-- A byte that the frames running now have replaced. -/
def oldByte (d : Dev) (a : Nat) : Option Byte :=
  d.parts.findSome? fun t => t.2.before.findSome? fun e => if e.1 ≤ a then e.2[a - e.1]? else none

/-- Bytes as other partitions, devices and the host see them (R23, R337). -/
def pubBytes (d : Dev) (a n : Nat) : List Byte := (List.range n).map fun i => (oldByte d (a + i)).getD (tierByte d (a + i))

/-! ## Stack retirement and row repair (R251, R281, R282) -/

/-- Is a position of a region FREE? -/
def posFree (v : VatSt) (pool sub i : Nat) : Bool :=
  let r := regionOf v pool sub
  decide (i < r.limit) && decide ((bufOf v pool (poolIdx pool sub i)).state = .free) && (decide (r.fresh ≤ i) || r.freed.contains i)

/-- Takes FREE positions out of service: WITHHELD, and on no free list (R294). -/
def withholdPos (v : VatSt) (pool sub : Nat) (l : List Nat) : VatSt :=
  let r := regionOf v pool sub
  let v := { v with regions := smPut v.regions (pool * 64 + sub) { r with freed := r.freed.filter fun i => !l.contains i } }
  l.foldl (fun v i => modBuf v pool (poolIdx pool sub i) fun b => { b with state := .withheld }) v

/-- The highest run of `n` FREE positions of a region, by its first position. -/
def freeRun (v : VatSt) (pool sub n : Nat) : Option Nat :=
  let r := regionOf v pool sub
  let top := min r.limit r.count
  ((List.range (top + 1 - n)).map fun k => top - n - k).find? fun a => (List.range n).all fun i => posFree v pool sub (a + i)

/-- The extent of 24 GiB that a port's Tier C gives up: FREE buffers of one class that lie together, the largest class first, taken
from the Vat manager as WITHHELD (R282, R294) (log entry 127, DESIGN CHOICE). -/
def extentOf (v : VatSt) (port : Nat) : Option (Nat × VatSt) :=
  [4, 3, 2, 1].findSome? fun cls => (poolOf 2 cls).bind fun pool =>
    let n := 24 * 2 ^ 30 / poolBytes pool
    (freeRun v pool port n).map fun a =>
      ((regionOf v pool port).base + a * poolBytes pool, withholdPos v pool port ((List.range n).map (a + ·)))

/-- An extent of every port, with what the Vat managers hold after it; none when a port has none to give. -/
def takeExtents (v : VatSt) : Option (List (Nat × Nat) × VatSt) :=
  (List.range 4).foldl (fun acc p => acc.bind fun (a : List (Nat × Nat) × VatSt) =>
    (extentOf a.2 p).map fun e => (a.1 ++ [(p, e.1)], e.2)) (some ([], v))

/-- Live retirement starts: an extent of every port, or RETIRE_BLOCKED (R282, steps 1 and 2). -/
def startRetire (d : Dev) (st : Nat) : Dev :=
  if (smGet d.tier.retire st).isSome then d
  else
    match takeExtents d.vat with
    | none => event d (pMem st) Reg.MEM_EVENTS 4 Reg.MEM_EVT_RETIRE_BLOCKED
    | some (ex, v) =>
      let d := { d with vat := v, tier := { d.tier with retire := smPut d.tier.retire st (.copying ex) } }
      wrN (wrF d (pMem st) Reg.MEM_STATE 1 0 1) (pMem st) Reg.MEM_MIGRATE 0

/-- The row of a stack-local offset. -/
def rowOf (off : Nat) : Nat := Config.memRow (off / 64)

/-- Row mappings of a stack. -/
def rowsOf (d : Dev) (st : Nat) : List RowMap := smGetD [] d.tier.rows st

/-- A row that needs repair takes a spare row, or retires the stack when none is left (R251, R252, R281). A row already on a spare row
takes another; while one is being copied it needs none. The corrections that its lines needed were those of the old row. -/
def repairRow (d : Dev) (st row : Nat) : Dev :=
  if (rowsOf d st).any fun r => r.row == row && r.copying then d
  else if 64 ≤ (rowsOf d st).length then startRetire d st
  else
    let d := { d with tier := { d.tier with
      rows := smPut d.tier.rows st (rowsOf d st ++ [⟨row, true⟩])
      rowCorr := smPut d.tier.rowCorr st ((smGetD [] d.tier.rowCorr st).filter fun q => Config.memRow q != row) } }
    journalled (wrF d (pMem st) Reg.MEM_STATE 15 8 (64 - (rowsOf d st).length)) 3 (rowSubject st row)
      (some [((rowsOf d st).filter fun r => r.row == row).length])

/-- A correction of `bytes` bytes in a Tier H line: a row repair when it corrects 3 or 4, or when another line of its row has
been corrected in the patrol period (R251). -/
def rowCorrected (d : Dev) (l bytes : Nat) : Dev :=
  let s := tierHPlace d.fuses l
  let old := smGetD [] d.tier.rowCorr s.1
  let need := decide (3 ≤ bytes) || old.any fun q => q != s.2 / 64 && Config.memRow q == rowOf s.2
  let d := if old.contains (s.2 / 64) then d
    else { d with tier := { d.tier with rowCorr := smPut d.tier.rowCorr s.1 (old ++ [s.2 / 64]) } }
  if need then repairRow d s.1 (rowOf s.2) else d

/-- Is a line in its poison list (R249)? -/
def listedLine (d : Dev) (l : Nat) : Bool := (smGetD [] d.tier.poison (poisonKey d l)).contains l

/-- Is a line uncorrectable and kept in the tier manager's record only, because its list was full (R249)? -/
def unlistedLine (d : Dev) (l : Nat) : Bool := d.tier.tmRecord.contains l && !listedLine d l

/-- Lines of a range that are listed as poisoned or recorded uncorrectable (R249). -/
def poisonedIn (d : Dev) (a n : Nat) : List Nat :=
  if inStore a then [] else (markKeys a n).filter fun l => listedLine d l || d.tier.tmRecord.contains l

/-- Keeps the counts of poisoned lines that the MEM and CXL pages show (POISON_USED, CXL_POISON). -/
def poisonSync (d : Dev) (key : Nat) : Dev :=
  let n := (smGetD [] d.tier.poison key).length
  if key < 8 then wrF d (pMem key) Reg.MEM_STATE 25 16 n else wrN d (pCxl (key - 8)) Reg.CXL_POISON n

/-- Takes a line out of the poison list and the tier manager's record (R249). -/
def unpoison (d : Dev) (l : Nat) : Dev :=
  let k := poisonKey d l
  let t := d.tier
  let d := { d with tier := { t with
    poison := smPutD [] t.poison k ((smGetD [] t.poison k).filter (· != l)),
    tmRecord := t.tmRecord.filter (· != l) } }
  journalled (poisonSync d k) 4 l none

/-- Enters an uncorrectable line in its poison list, or in the tier manager's record when 512 lines are listed; with a full list of a
CXL port each find sets POISON_FULL (R248, R249). The controller also sets UNCORR and ERR_UNCORR. -/
def findUncorr (d : Dev) (l : Nat) : Dev :=
  let k := poisonKey d l
  let u := memUnit d l
  let list := smGetD [] d.tier.poison k
  let d :=
    if list.contains l then d
    else if list.length < 512 then
      journalled (poisonSync { d with tier := { d.tier with poison := smPutD [] d.tier.poison k (list ++ [l]) } } k) 4 l (some [k])
    else
      let d := if d.tier.tmRecord.contains l then d else { d with tier := { d.tier with tmRecord := d.tier.tmRecord ++ [l] } }
      if k < 8 then d else event d u Reg.CXL_EVENTS 6 Reg.CXL_EVT_POISON_FULL
  let d := hdrEvent d u .errUncorr
  if k < 8 then
    let d := event d u Reg.MEM_EVENTS 1 Reg.MEM_EVT_UNCORR
    let d := bump d u Reg.MEM_UNCORR_LINES 1
    let line := (tierHPlace d.fuses l).2 / 64
    let d := wrN d u Reg.MEM_ERR_ADDR (line + 2 ^ 32 + 2 ^ 33)
    let d := { d with tier := { d.tier with uncTimes := smModD [] d.tier.uncTimes k (fun ts =>
        d.hall :: ts.filter fun t => decide (d.hall < t + 3600000000000)) } }
    let d := repairRow d k (rowOf (tierHPlace d.fuses l).2)
    if 16 < (smGetD [] d.tier.uncTimes k).length ∨ 512 ≤ (smGetD [] d.tier.poison k).length then startRetire d k else d
  else
    bump (event d u Reg.CXL_EVENTS 1 Reg.CXL_EVT_UNCORR) u Reg.CXL_UNCORR_LINES 1

/-- A correction of a tier line: ERR_CORR, the counts and the address (R247). `bytes` is the number corrected. -/
def tierCorrected (d : Dev) (l bytes : Nat) : Dev :=
  let u := memUnit d l
  let d := hdrEvent d u .errCorr
  if poisonKey d l < 8 then
    let d := event d u Reg.MEM_EVENTS 0 Reg.MEM_EVT_CORR
    let d := bump (bump d u Reg.MEM_CORR_LINES 1) u Reg.MEM_CORR_BYTES bytes
    let d := wrN d u Reg.MEM_ERR_ADDR ((tierHPlace d.fuses l).2 / 64 + 2 ^ 32 + bytes % 8 * 2 ^ 36)
    rowCorrected d l bytes
  else bump (event d u Reg.CXL_EVENTS 0 Reg.CXL_EVT_CORR) u Reg.CXL_CORR_LINES 1

/-- A marked line is read: the outer code corrects it or finds it uncorrectable (R246 to R248). -/
def readMarked (d : Dev) (l : Nat) (m : Mark) : Dev :=
  let d := useMark d l m (some d.hall)
  match m.read with
  | .good => d
  | .corrected n => tierCorrected d l n
  | .lost => findUncorr d l

/-- What a read of a tier range meets: corrections, and lines that deliver nothing. A listed line is not decoded; one whose list was
full is decoded and found again (R249). -/
def tierRead (d : Dev) (a n : Nat) : Dev × Nat × List Nat :=
  let ms := if inStore a then [] else (marksIn d a n).filter fun e => !listedLine d e.1
  let again := if inStore a then [] else (markKeys a n).filter fun l => unlistedLine d l && !(ms.any fun e => e.1 == l)
  let d1 := ms.foldl (fun d e => readMarked d e.1 e.2) d
  let d1 := again.foldl findUncorr d1
  (d1, (ms.filter fun e => decide (e.2.read ≠ .good) && !e.2.lost).length, poisonedIn d1 a n)

/-- Corrected lines are written back within the reserved share (R247): the model has the write-back of a line done at the first grid
point after the correction (log entry 116, DESIGN CHOICE). -/
def writeBackLines (d : Dev) : Dev :=
  { d with marks := d.marks.filter fun e => inStore e.1 || match e.2.seen with
    | some t => decide (d.hall ≤ t)
    | none => true }

/-- A write of bytes into a tier outside the caches: whole lines leave the poison list, a part of a listed line is
discarded and sets POISON_WRITE (R249); a partial write of a marked line reads it first (R516), and so does one of an uncorrectable
line that is not listed: its bytes are lost with the line, which stays uncorrectable. -/
def tierWrite (d : Dev) (a : Nat) (bs : List Byte) : Dev :=
  let n := bs.length
  let ks := markKeys a n
  let whole := fun k => decide (a ≤ k) && decide (k + 64 ≤ a + n)
  let d := (ks.filter fun k => !whole k).foldl (fun d k =>
    if listedLine d k then d
    else match smGet d.marks k with
    | some m => readMarked d k m
    | none => if unlistedLine d k then findUncorr d k else d) d
  let listed := (poisonedIn d a n).filter fun k => !whole k
  let d := (ks.filter whole).foldl (fun d k => if (poisonedIn d k 64).isEmpty then d else unpoison d k) d
  let d := listed.foldl (fun d k =>
    if listedLine d k && decide (poisonKey d k < 8) then event d (memUnit d k) Reg.MEM_EVENTS 5 Reg.MEM_EVT_POISON_WRITE else d) d
  let keep := bs.zipIdx.filter fun e => !listed.contains (markKey (a + e.2))
  if listed.isEmpty then writeBytes d a bs
  else dropMarks { d with mem := keep.foldl (fun m e => smPutD 0 m (a + e.2) e.1) d.mem } a n

end Sys2Proof.Machine
end

