-- ==== Sys2Proof/Machine/Packet.lean ====
section
/-! DEFINITION. Places and routes of the Bollum fabric (12 R301 to R304, R314), and how a packet is formed and enters the
device's switch (R305, R306, R331). What the switch does with it is in Fabric.lean. -/

namespace Sys2Proof.Machine

/-! ## Places (R304) -/

/-- Slot of a node number. -/
def nSlot (n : Nat) : Nat := n % 8
/-- Tray of a node number. -/
def nTray (n : Nat) : Nat := n / 8 % 16
/-- Rack of a node number. -/
def nRack (n : Nat) : Nat := n / 128 % 16

/-- Node number of a place address. -/
def placeNode (p : Nat) : Nat := p / 8192 % 2048
/-- Pod of a place address. -/
def placePod (p : Nat) : Nat := p / 2 ^ 24 % 256

/-- The device's own place address, bits 12:0 zero. -/
def myPlace (d : Dev) : Nat := rdN d pDev Reg.BOL_PLACE % 2 ^ 32
/-- The device's own node number. -/
def myNode (d : Dev) : Nat := placeNode (myPlace d)
/-- The device's own pod. -/
def myPod (d : Dev) : Nat := placePod (myPlace d)
/-- Racks in the pod: the value of BOL_POD_SHAPE that the last device reset put in force (R303, R304). -/
def nRacks (d : Dev) : Nat := d.fab.racks

/-- A place address of a pod, node and unit path. -/
def mkPlace (pod node unit : Nat) : Nat := pod * 2 ^ 24 + node * 8192 + unit

/-- Direction on a ring: 1, −1, or 0 when there is no distance; ties go in the positive direction (R314). -/
def ringDir (mine theirs size : Nat) : Int :=
  let d := (theirs + size - mine % size) % size
  if d = 0 then 0 else if 2 * d ≤ size then 1 else -1

/-- Links on a ring. -/
def ringDist (mine theirs size : Nat) : Nat :=
  let d := (theirs + size - mine % size) % size
  min d (size - d)

/-- Hops of the dimension-order route between two nodes of a pod (R314). -/
def hops (d : Dev) (a b : Nat) : Nat :=
  (if nSlot a = nSlot b then 0 else 1) + ringDist (nTray a) (nTray b) 16 + ringDist (nRack a) (nRack b) (max 1 (nRacks d))

/-- The arithmetic clock in force, in MHz (PWR_STATUS.CLOCK). -/
def clockNow (d : Dev) : Nat := clockMHz (rdF d pPwr Reg.PWR_STATUS 1 0)

/-- FRAME_EXP in force. -/
def frameExp (d : Dev) (p : Nat) : Nat := rdF d (pPart p) Reg.CTL_FRAME_ACTIVE 2 0

/-- The cycle that contains the completion cut (R17). -/
def cutCycle (d : Dev) (p : Nat) : Nat := (frameLen (frameExp d p) - 1000) * clockNow d / 1000

/-- T(h) of R106 at the clock in force. -/
def remoteT (d : Dev) (h : Nat) : Nat := ceilDiv ((800 + 320 * h) * clockNow d) 1000

/-- Does a node number of the pod name a device (R305)? -/
def nodeNames (d : Dev) (node : Nat) : Bool :=
  decide (nRack node < nRacks d) && (!decide (d.fuses.grade = .m768t) || (nRack node == 0 && nTray node == 0))

/-! ## Packets -/

/-- May a packet of a type carry a fence; is it counted (Table 12-3)? -/
def typeCounted (t : Nat) : Bool := decide (t < 5) || t == 7 || t == 8

/-- The next PAIR_COUNT of a source partition and destination node in a frame (R306). -/
def pairNext (d : Dev) (sp node frame : Nat) : Nat :=
  match smGet d.fab.pairs (sp * 2048 + node) with
  | some (f, n) => if f = frame then n else 0
  | none => 0

/-- Counts a counted packet. -/
def pairBump (d : Dev) (sp node frame : Nat) : Dev :=
  { d with fab := { d.fab with pairs := smPut d.fab.pairs (sp * 2048 + node) (frame, pairNext d sp node frame + 1) } }

/-- HDR_DROP and the dropped packet (R305, R309). -/
def hdrDrop (d : Dev) : Dev := bump (eventG d 6 pDev Reg.BOL_EVENTS 4 Reg.BOL_EVT_HDR_DROP) pDev Reg.BOL_HDR_DROPPED 1

/-- A packet from this device, with PAIR_COUNT and DEFLECT still to be set. -/
def mkPkt (d : Dev) (cls type : Nat) (fence : Bool) (dest unit dpart spart frame addr reqId lane : Nat)
    (payload : List Byte) : Pkt :=
  ⟨dest, myPlace d + unit, cls, type, fence, false, lane, 0, dpart, spart, frame, addr, 0, reqId, payload⟩

/-- Ethernet ports that are up, in ascending number (R331). -/
def ethUp (d : Dev) : List Nat := (List.range 4).filter fun i => d.fuses.eth i && rdB d (pEth i) Reg.ETH_STATUS 0

/-- The datagram that carries a packet to another pod (R332, Table 12-6). -/
def datagramOf (d : Dev) (port : Nat) (p : Pkt) : Datagram :=
  let prefix_ := rdN d pDev Reg.BOL_HALL_PREFIX + 2 ^ 32 * rdN d pDev (Reg.BOL_HALL_PREFIX + 4) + 2 ^ 64 * rdN d pDev (Reg.BOL_HALL_PREFIX + 8)
  ⟨port, prefix_ * 2 ^ 32 + p.dest / 8192 * 8192, if p.cls = 0 then 46 else 34, 49152 + Config.udpHash p.src p.dest % 16384, 45079, p⟩

/-- A packet enters the fabric: refused at injection when its destination names no device (R305), over Ethernet when it
goes to another pod (R331), else it waits at its engine for an output (R318). -/
def sendPkt (d : Dev) (p : Pkt) : Dev :=
  let node := placeNode p.dest
  let other := decide (placePod p.dest ≠ myPod d)
  if !nodeNames d node then hdrDrop d
  else if other then
    if p.type ≠ 0 ∧ p.type ≠ 10 then hdrDrop d
    else
      let up := ethUp d
      match up[(placePod p.dest + node) % up.length]? with
      | none => event d pDev Reg.BOL_EVENTS 5 Reg.BOL_EVT_POD_UNREACHABLE
      | some e => bump { d with fab := { d.fab with datagrams := d.fab.datagrams ++ [datagramOf d e p] } } (pEth e) Reg.ETH_TX_PACKETS 1
  else
    let counted := typeCounted p.type
    let p := if counted then { p with pair := pairNext d p.spart node p.frame % 65536 } else p
    let d := if counted then pairBump d p.spart node p.frame else d
    { d with fab := { d.fab with local_ := d.fab.local_ ++ [⟨d.fab.nextId, none, false, p⟩], nextId := d.fab.nextId + 1 } }

/-- Splits a payload into packets of 512 bytes: (offset, bytes). -/
def chunksOf : Nat → Nat → List Byte → List (Nat × List Byte)
  | 0, _, _ => []
  | n + 1, o, l => if l.isEmpty then [] else (o, l.take 512) :: chunksOf n (o + 512) (l.drop 512)

/-- The packets of a payload. -/
def splitPayload (l : List Byte) : List (Nat × List Byte) := chunksOf (l.length / 512 + 1) 0 l

end Sys2Proof.Machine
end

