-- ==== Sys2Proof/Machine/Flags.lean ====
section
/-! DEFINITION. Number formats and rounding, to the bit (05_number_formats_and_calender.md, R119 to R137), with the flags a
rounding raises: saturation and NaN on output (R134), accumulator saturation and loss of finiteness (R124). Values are
exact dyadic numbers; each operation rounds once. -/

namespace Sys2Proof.Machine

/-- An exact value: NaN, an infinity, or ± m × 2^e. A zero keeps its sign. -/
inductive Num where
  | nan
  | inf (neg : Bool)
  | fin (neg : Bool) (m : Nat) (e : Int)
  deriving DecidableEq, Repr

/-- The value +0. -/
def Num.zero : Num := .fin false 0 0

/-- Is the value a zero of either sign? -/
def Num.isZero : Num → Bool
  | .fin _ m _ => m == 0
  | _ => false

/-- Is the value a NaN? -/
def Num.isNan : Num → Bool
  | .nan => true
  | _ => false

/-- Is the value finite? -/
def Num.isFinite : Num → Bool
  | .fin _ _ _ => true
  | _ => false

/-- The sign of a value; a NaN has none. -/
def Num.sign : Num → Bool
  | .nan => false
  | .inf s => s
  | .fin s _ _ => s

/-- The value with its sign set. -/
def Num.withSign (s : Bool) : Num → Num
  | .nan => .nan
  | .inf _ => .inf s
  | .fin _ m e => .fin s m e

/-- The value times 2^k. -/
def Num.scale (k : Int) : Num → Num
  | .fin s m e => .fin s m (e + k)
  | x => x

/-- An exact integer. -/
def Num.ofInt (i : Int) : Num := .fin (decide (i < 0)) i.natAbs 0

/-- How a format holds numbers (Table 05-2). -/
inductive FmtKind where
  /-- Two's complement. -/
  | int
  /-- Infinities and NaNs as IEEE 754. -/
  | ieee
  /-- No infinity; NaN is S.1111.111 (E4M3). -/
  | e4m3
  /-- Neither infinity nor NaN (E2M1). -/
  | finite
  deriving DecidableEq, Repr

/-- The parameters of a format (Tables 05-1 and 05-2). -/
structure Fmt where
  width : Nat
  exp   : Nat
  man   : Nat
  bias  : Nat
  kind  : FmtKind
  deriving DecidableEq, Repr

/-- The format of a code, none for the reserved codes 8 to 15 (R119, Table 05-1). -/
def fmtOf (code : Nat) : Option Fmt :=
  match code with
  | 0 => some ⟨8, 0, 0, 0, .int⟩
  | 1 => some ⟨4, 0, 0, 0, .int⟩
  | 2 => some ⟨8, 4, 3, 7, .e4m3⟩
  | 3 => some ⟨8, 5, 2, 15, .ieee⟩
  | 4 => some ⟨4, 2, 1, 1, .finite⟩
  | 5 => some ⟨16, 8, 7, 127, .ieee⟩
  | 6 => some ⟨16, 5, 10, 15, .ieee⟩
  | 7 => some ⟨32, 8, 23, 127, .ieee⟩
  | _ => none

/-- FP32, code 7. -/
def fp32 : Fmt := ⟨32, 8, 23, 127, .ieee⟩

/-- BF16, code 5. -/
def bf16 : Fmt := ⟨16, 8, 7, 127, .ieee⟩

/-- The width in bits of a format code; 0 for a reserved code. -/
def fmtWidth (code : Nat) : Nat := ((fmtOf code).map Fmt.width).getD 0

/-- Formats 0 and 1 are the integer formats. -/
def fmtIsInt (code : Nat) : Bool := code < 2

/-- Significand width including the implicit bit (R132). -/
def Fmt.prec (f : Fmt) : Nat := f.man + 1

/-- The smallest normal exponent (R132). -/
def Fmt.emin (f : Fmt) : Int := 1 - (f.bias : Int)

/-- The exact value of an encoding (R121). -/
def decodeNum (f : Fmt) (v : Nat) : Num :=
  match f.kind with
  | .int =>
    let u := v % 2 ^ f.width
    if u < 2 ^ (f.width - 1) then .fin false u 0 else .fin true (2 ^ f.width - u) 0
  | k =>
    let m := v % 2 ^ f.man
    let e := v / 2 ^ f.man % 2 ^ f.exp
    let s := bitAt v (f.width - 1)
    let top := e + 1 == 2 ^ f.exp
    if top && k == .ieee then (if m = 0 then .inf s else .nan)
    else if top && k == .e4m3 && m == 7 then .nan
    else if e = 0 then .fin s m (f.emin - f.man)
    else .fin s (m + 2 ^ f.man) ((e : Int) - f.bias - f.man)

/-- The largest finite magnitude of a floating format as m × 2^e (Table 05-2). -/
def Fmt.maxFin (f : Fmt) : Nat × Int :=
  match f.kind with
  | .int => (2 ^ (f.width - 1) - 1, 0)
  | .ieee => (2 ^ f.prec - 1, (2 ^ f.exp : Nat) - 2 - (f.bias : Int) - f.man)
  | .e4m3 => (14, 5)
  | .finite => (2 ^ f.prec - 1, (2 ^ f.exp : Nat) - 1 - (f.bias : Int) - f.man)

/-- The canonical NaN encoding (Table 05-2); a format without NaN writes +0 (Table 05-4). -/
def Fmt.canonNan (f : Fmt) : Nat :=
  match f.kind with
  | .ieee => if f.man = 2 then 0x7F else 2 ^ (f.man - 1) + (2 ^ f.exp - 1) * 2 ^ f.man
  | .e4m3 => 0x7F
  | _ => 0

/-- How a rounding decides: to nearest with ties to even, or with the draw `r` of R133. -/
inductive RoundMode where
  | rne
  | stoch (r : Nat)
  deriving DecidableEq, Repr

/-- m × 2^(-sh) split into its floor and whether to round up (R132). -/
def roundUpBit (mode : RoundMode) (m sh : Nat) : Nat × Bool :=
  let n := m / 2 ^ sh
  let rem := m % 2 ^ sh
  match mode with
  | .rne =>
    let twice := 2 * rem
    let up := decide (2 ^ sh < twice) || (decide (twice = 2 ^ sh) && n % 2 == 1)
    (n, up)
  | .stoch r => (n, decide (r < rem * 2 ^ 32 / 2 ^ sh))

/-- Rounds the magnitude m × 2^e to the format's grid: the result as an integer times 2^q (R132). -/
def roundMag (f : Fmt) (mode : RoundMode) (m : Nat) (e : Int) : Nat × Int :=
  if m = 0 then (0, 0)
  else
    let q : Int := match f.kind with
      | .int => 0
      | _ => max ((Nat.log2 m : Int) + e) f.emin - f.man
    if q ≤ e then (m * 2 ^ (e - q).toNat, q)
    else
      let r := roundUpBit mode m (q - e).toNat
      (r.1 + b2n r.2, q)

/-- Is m × 2^e larger than m' × 2^e'? -/
def magGt (m : Nat) (e : Int) (m' : Nat) (e' : Int) : Bool :=
  let b := min e e'
  decide (m' * 2 ^ (e' - b).toNat < m * 2 ^ (e - b).toNat)

/-- The encoding of a finite value that lies on the format's grid and within its range. -/
def encodeFin (f : Fmt) (s : Bool) (m : Nat) (e : Int) : Nat :=
  match f.kind with
  | .int =>
    let u := m * 2 ^ e.toNat
    if s then (2 ^ f.width - u) % 2 ^ f.width else u
  | _ =>
    let sb := b2n s * 2 ^ (f.width - 1)
    if m = 0 then sb
    else
      let lg := (Nat.log2 m : Int) + e
      if lg < f.emin then sb + m * 2 ^ (e - (f.emin - f.man)).toNat
      else
        let sh := lg - f.man
        let mant := if sh ≤ e then m * 2 ^ (e - sh).toNat else m / 2 ^ (sh - e).toNat
        sb + (mant - 2 ^ f.man) + (lg + f.bias).toNat * 2 ^ f.man

/-- The flags an output raises (R134). -/
structure OutFlags where
  sat : Bool
  nan : Bool
  deriving DecidableEq, Repr

/-- The encoding of the infinity of a format, or of its bound where it has none (Table 05-4). -/
def encodeInf (f : Fmt) (s : Bool) : Nat :=
  match f.kind with
  | .ieee => b2n s * 2 ^ (f.width - 1) + (2 ^ f.exp - 1) * 2 ^ f.man
  | .int => if s then 2 ^ (f.width - 1) else 2 ^ (f.width - 1) - 1
  | _ => encodeFin f s f.maxFin.1 f.maxFin.2

/-- Output of a value in a format: rounded, then saturated under Table 05-4, with the flags of R134 (R131 to R134).
A result of zero is +0. -/
def outputNum (f : Fmt) (mode : RoundMode) (y : Num) : Nat × OutFlags :=
  match y with
  | .nan => (f.canonNan, ⟨false, decide (f.kind = .int) || decide (f.kind = .finite)⟩)
  | .inf s => (encodeInf f s, ⟨decide (f.kind ≠ .ieee), false⟩)
  | .fin s m e =>
    let r := roundMag f mode m e
    if r.1 = 0 then (0, ⟨false, false⟩)
    else
      let lim : Nat × Int := if f.kind = .int ∧ s then (2 ^ (f.width - 1), 0) else f.maxFin
      if magGt r.1 r.2 lim.1 lim.2 then (encodeFin f s lim.1 lim.2, ⟨true, false⟩)
      else (encodeFin f s r.1 r.2, ⟨false, false⟩)

/-- Rounds to nearest even into a floating format whose overflow is an infinity: FP32 accumulation (R73, R123) and the
vector unit (R136). The sign of a zero result is kept. -/
def roundFloat (f : Fmt) (y : Num) : Nat :=
  match y with
  | .nan => f.canonNan
  | .inf s => encodeInf f s
  | .fin s m e =>
    let r := roundMag f .rne m e
    if magGt r.1 r.2 f.maxFin.1 f.maxFin.2 then encodeInf f s
    else encodeFin f s r.1 r.2

/-- The exact product; a zero operand gives +0 (R73). -/
def mulOperand (a b : Num) : Num :=
  if a.isZero || b.isZero then .zero
  else match a, b with
    | .nan, _ => .nan
    | _, .nan => .nan
    | .inf s, y => .inf (s != y.sign)
    | x, .inf s => .inf (x.sign != s)
    | .fin s m e, .fin s' m' e' => .fin (s != s') (m * m') (e + e')

/-- The signed integer m × 2^e in units of 2^b, for b at most e. -/
def unitsOf (s : Bool) (m : Nat) (e b : Int) : Int :=
  let v : Int := (m * 2 ^ (e - b).toNat : Nat)
  if s then -v else v

/-- The exact sum. The sum of opposite infinities is NaN (R123). A zero sum is +0 unless both are −0. -/
def addNum (a b : Num) : Num :=
  match a, b with
  | .nan, _ => .nan
  | _, .nan => .nan
  | .inf s, .inf s' => if s = s' then .inf s else .nan
  | .inf s, _ => .inf s
  | _, .inf s => .inf s
  | .fin s m e, .fin s' m' e' =>
    let q := min e e'
    let v := unitsOf s m e q + unitsOf s' m' e' q
    if v = 0 then .fin (s && s') 0 0 else .fin (decide (v < 0)) v.natAbs q

/-- One FP32 accumulation: the sum rounded to nearest even, −0 stored as +0 (R73, R123). -/
def accAddF (acc : W32) (x : Num) : W32 :=
  let r := roundFloat fp32 (addNum (decodeNum fp32 acc.toNat) x)
  if r = 0x80000000 then 0 else BitVec.ofNat 32 r

/-- Saturation to INT32 (R124). -/
def satI32 (v : Int) : Int := max (-(2 ^ 31)) (min (2 ^ 31 - 1) v)

/-- One INT32 accumulation and whether it saturated (R124). -/
def accAddI (acc : W32) (v : Int) : W32 × Bool :=
  let x := acc.toInt + v
  (BitVec.ofInt 32 (satI32 x), decide (satI32 x ≠ x))

/-- c / 2^k rounded to nearest, ties to even (R129). -/
def roundHalfEven (c : Int) (k : Nat) : Int :=
  let r := roundUpBit .rne c.natAbs k
  let v : Int := (r.1 + b2n r.2 : Nat)
  if c < 0 then -v else v

/-- The integer group stage: one aligned contribution of a group's exact partial sum (R129). The second result is the
saturation of R124, the third the NaN scale. -/
def groupStage (acc : W32) (p : Int) (sa sb eBase : Nat) : W32 × Bool × Bool :=
  let ea := sa / 256 % 256
  let eb := sb / 256 % 256
  if ea = 255 ∨ eb = 255 then (acc, false, true)
  else
    let c := p * ((sa % 256 * (sb % 256) : Nat) : Int)
    let d : Int := (ea : Int) + eb - eBase
    let v := if 0 ≤ d then c * 2 ^ d.toNat else roundHalfEven c (-d).toNat
    let r := accAddI acc v
    (r.1, r.2, false)

/-- The value of a group scale (R125): none for the NaN scale. -/
def scaleNum (sc : Nat) : Num :=
  let e := sc / 256 % 256
  if e = 255 then .nan else .fin false (sc % 256) ((e : Int) - 134)

/-- The contribution of step s under group scales (R128): +0 where an operand is zero or a scale is 0. Of a scale of 0 beside a NaN
scale R128 says both +0 and NaN; the model takes +0 (log entry 142, DESIGN CHOICE). -/
def scaledProduct (a b : Num) (sa sb : Num) : Num :=
  if a.isZero || b.isZero then .zero
  else mulOperand (mulOperand a b) (mulOperand sa sb)

/-- 64-bit mixing of R133. -/
def mix64 (z : W64) : W64 :=
  let z := (z ^^^ (z >>> 30)) * 0xBF58476D1CE4E5B9#64
  let z := (z ^^^ (z >>> 27)) * 0x94D049BB133111EB#64
  z ^^^ (z >>> 31)

/-- The draw of the stochastic rounding generator for accumulator (i, j) (R133). -/
def srBits (key : W64) (slice i j : Nat) : Nat :=
  let c : W64 := BitVec.ofNat 64 (slice % 2 ^ 32 * 2 ^ 14 + i % 128 * 128 + j % 128)
  (mix64 (key ^^^ mix64 (c + 0x9E3779B97F4A7C15#64)) >>> 32).toNat

/-- The Calender's exact product y = x × MULT × 2^(−SHIFT) (R131). -/
def calenderY (x : Num) (mult shift : Nat) : Num :=
  match x with
  | .nan => .nan
  | .inf s => .inf s
  | .fin s m e => .fin s (m * mult) (e - shift)

/-- FMAX as a dyadic and EMAX of an output format with group scales (Table 05-5). -/
def outScaleParams (code : Nat) : Nat × Int :=
  match code with
  | 0 => (127, 6)
  | 1 => (7, 2)
  | 2 => (448, 8)
  | 3 => (57344, 15)
  | _ => (6, 2)

/-- The larger of two finite magnitudes, as dyadics. -/
def magMax (a b : Nat × Int) : Nat × Int := if magGt b.1 b.2 a.1 a.2 then b else a

/-- The largest magnitude among the finite values of a group; zero if there is none. -/
def groupMax (ys : List Num) : Nat × Int :=
  ys.foldl (fun acc y => match y with
    | .fin _ m e => magMax acc (m, e)
    | _ => acc) (0, 0)

/-- The exponent E of an output group scale (R135, steps 2 and 3). -/
def outGroupE (code : Nat) (ys : List Num) : Nat :=
  let a := groupMax ys
  if a.1 = 0 then 127
  else
    let p := outScaleParams code
    let e0 : Int := (Nat.log2 a.1 : Int) + a.2 - p.2 + 127
    let e1 := if magGt a.1 (a.2 + 127 - e0) p.1 0 then e0 + 1 else e0
    (max 1 (min 254 e1)).toNat

/-! The vector unit (R136). -/

/-- Integer square root by bisection on the bits from `n` down. -/
def isqrtAux (v : Nat) : Nat → Nat → Nat
  | 0, r => r
  | n + 1, r =>
    let c := r + 2 ^ n
    if c * c ≤ v then isqrtAux v n c else isqrtAux v n r

/-- The integer square root: the largest r with r × r at most v. -/
def isqrt (v : Nat) : Nat := isqrtAux v (Nat.log2 v / 2 + 1) 0

/-- 1 / x rounded once; the quotient is taken to 64 bits beyond the operand and a remainder sets one more bit below. -/
def recipBits (f : Fmt) (x : Num) : Nat :=
  match x with
  | .nan => f.canonNan
  | .inf s => encodeFin f s 0 0
  | .fin s m e =>
    if m = 0 then encodeInf f s
    else
      let k := Nat.log2 m + 64
      roundFloat f (.fin s (2 * (2 ^ k / m) + b2n (decide (2 ^ k % m ≠ 0))) (-(k : Int) - e - 1))

/-- 1 / √x rounded once. -/
def rsqrtBits (f : Fmt) (x : Num) : Nat :=
  match x with
  | .nan => f.canonNan
  | .inf s => if s then f.canonNan else 0
  | .fin s m e =>
    if m = 0 then encodeInf f s
    else if s then f.canonNan
    else
      -- x = m2 × 2^(2h); 1/√x = √(2^(2k) / m2) × 2^(−k−h)
      let odd := e % 2 ≠ 0
      let m2 := if odd then 2 * m else m
      let h := (if odd then e - 1 else e) / 2
      let k := Nat.log2 m2 + 64
      let v := 2 ^ (2 * k) / m2
      let r := isqrt v
      let exact := decide (r * r = v) && decide (2 ^ (2 * k) % m2 = 0)
      roundFloat f (.fin false (2 * r + b2n (!exact)) (-(k : Int) - h - 1))

/-- Fraction bits of the fixed-point arithmetic of EXP. -/
def expBits : Nat := 512

/-- Taylor terms of exp at y × 2^(−expBits): the running sum. -/
def expTaylor (y : Int) : Nat → Nat → Int → Int → Int
  | 0, _, _, acc => acc
  | n + 1, i, t, acc =>
    let t' := t * y / (2 ^ expBits * (i : Int))
    expTaylor y n (i + 1) t' (acc + t')

/-- Squares a fixed-point number n times. -/
def expSquare : Nat → Int → Int
  | 0, v => v
  | n + 1, v => expSquare n (v * v / 2 ^ expBits)

/-- e^x rounded once (R136). For a non-zero x, e^x is no dyadic number, so no tie occurs and one bit is set below the last place;
the sum is carried to 512 fraction bits (log entry 12, DEDUCED). -/
def expBitsOf (f : Fmt) (x : Num) : Nat :=
  match x with
  | .nan => f.canonNan
  | .inf s => if s then 0 else encodeInf f false
  | .fin s m e =>
    if m = 0 then encodeFin f false 1 0
    else if magGt m e 512 0 then (if s then 0 else encodeInf f false)
    else
      -- x / 2^10 in fixed point
      let sh : Int := e - 10 + expBits
      let mag : Nat := if 0 ≤ sh then m * 2 ^ sh.toNat else m / 2 ^ (-sh).toNat
      let y : Int := if s then -(mag : Int) else mag
      let v := expSquare 10 (expTaylor y 100 1 (2 ^ expBits) (2 ^ expBits))
      roundFloat f (.fin false (2 * v.natAbs + 1) (-(expBits : Int) - 1))

/-- Is a at most b, for values that are no NaN? −0 is below +0 (R136). -/
def numLe (a b : Num) : Bool :=
  match a, b with
  | .inf true, _ => true
  | _, .inf false => true
  | .inf false, _ => false
  | _, .inf true => false
  | .fin s m e, .fin s' m' e' =>
    if m = 0 ∧ m' = 0 then s || !s'
    else
      let q := min e e'
      decide (unitsOf s m e q ≤ unitsOf s' m' e' q)
  | _, _ => false

/-- Maximum and minimum, NaN if an operand is (R136). -/
def maxNum (a b : Num) : Num := if a.isNan || b.isNan then .nan else if numLe a b then b else a
/-- Minimum, NaN if an operand is (R136). -/
def minNum (a b : Num) : Num := if a.isNan || b.isNan then .nan else if numLe a b then a else b

/-- The IEEE product: zero times infinity is NaN, a zero result keeps its sign (R136). -/
def mulNum (a b : Num) : Num :=
  match a, b with
  | .nan, _ => .nan
  | _, .nan => .nan
  | .inf s, y => if y.isZero then .nan else .inf (s != y.sign)
  | x, .inf s => if x.isZero then .nan else .inf (x.sign != s)
  | .fin s m e, .fin s' m' e' => .fin (s != s') (m * m') (e + e')

/-- The value with the opposite sign. -/
def negNum (x : Num) : Num := x.withSign (!x.sign)

end Sys2Proof.Machine
end

