-- ==== Sys2Proof/Machine/Pass.lean ====
section
/-! DEFINITION. What the array computes: the effective operands of dense, split and sparse passes (05 R120 to R129, 06 R140
to R153), accumulation in ascending step order (03 R72, R73), and the Calender's output of a drain (05 R130 to R135).
Times are in Cell.lean. -/

namespace Sys2Proof.Machine

/-- Element `i` of a run of `w`-bit elements that starts at data-space byte `a` (R120). -/
def elemRaw (d : Dev) (a w i : Nat) : Nat :=
  if w = 4 then
    let b := (readByte d (a + i / 2)).toNat
    if i % 2 = 0 then b % 16 else b / 16
  else readLe d (a + w / 8 * i) (w / 8)

/-- The value of an element of a format code. -/
def elemNum (d : Dev) (code a i : Nat) : Num :=
  match fmtOf code with
  | some f => decodeNum f (elemRaw d a f.width i)
  | none => .zero

/-- The integer that an exact integer value stands for. -/
def Num.toInt : Num → Int
  | .fin s m e => if s then -((m * 2 ^ e.toNat : Nat) : Int) else ((m * 2 ^ e.toNat : Nat) : Int)
  | _ => 0

/-- An accumulator during a pass, with the events of R124 and R129 counted so far. -/
structure AccRes where
  acc    : W32
  sat    : Nat
  nonfin : Nat
  snan   : Nat
  deriving DecidableEq, Repr

/-- One floating contribution (R73, R124). -/
def accStepF (r : AccRes) (x : Num) : AccRes :=
  let a := accAddF r.acc x
  let was := (decodeNum fp32 r.acc.toNat).isFinite
  let is_ := (decodeNum fp32 a.toNat).isFinite
  { r with acc := a, nonfin := r.nonfin + b2n (was && !is_) }

/-- One integer contribution (R124). -/
def accStepI (r : AccRes) (v : Int) : AccRes :=
  let x := accAddI r.acc v
  { r with acc := x.1, sat := r.sat + b2n x.2 }

/-- The group scales of one accumulator: group size, the scales of its row and its column by group, and E_BASE. -/
structure ElemScales where
  g     : Nat
  sa    : List Nat
  sb    : List Nat
  eBase : Nat
  deriving DecidableEq, Repr

/-- The floating steps of one accumulator, in ascending order; a step with a zero operand is gated (R84). -/
def accRunF (sc : Option ElemScales) : Nat → List (Num × Num) → AccRes → AccRes
  | _, [], r => r
  | s, (x, y) :: l, r =>
    let r' := if x.isZero || y.isZero then r
      else match sc with
        | none => accStepF r (mulOperand x y)
        | some e => accStepF r (scaledProduct x y (scaleNum (e.sa.getD (s / e.g) 0)) (scaleNum (e.sb.getD (s / e.g) 0)))
    accRunF sc (s + 1) l r'

/-- The integer steps of one accumulator without group scales. -/
def accRunI (l : List (Num × Num)) (r : AccRes) : AccRes :=
  l.foldl (fun r e => if e.1.isZero || e.2.isZero then r else accStepI r (e.1.toInt * e.2.toInt)) r

/-- The integer groups of one accumulator (R129): group number, steps left. -/
def accRunG (e : ElemScales) : Nat → Nat → List (Num × Num) → AccRes → AccRes
  | 0, _, _, r => r
  | n + 1, g, l, r =>
    let p := (l.take e.g).foldl (fun p q => p + q.1.toInt * q.2.toInt) (0 : Int)
    let x := groupStage r.acc p (e.sa.getD g 0) (e.sb.getD g 0) e.eBase
    accRunG e n (g + 1) (l.drop e.g)
      { r with acc := x.1, sat := r.sat + b2n x.2.1, snan := r.snan + b2n x.2.2 }

/-- All the steps of one accumulator. -/
def accRun (isInt : Bool) (sc : Option ElemScales) (row col : List Num) (r : AccRes) : AccRes :=
  let l := row.zip col
  match isInt, sc with
  | false, _ => accRunF sc 0 l r
  | true, none => accRunI l r
  | true, some e => accRunG e (l.length / e.g) 0 l r

/-- The operands of a tile of rows r0 .. r0 + rows.length − 1 by 128 columns: row lists and column lists of effective
values by step, with scales by row and by column if the pass has them. -/
structure Tile where
  r0    : Nat
  rows  : List (List Num)
  cols  : List (List Num)
  g     : Nat                  -- group size, 0 for none
  sa    : List (List Nat)
  sb    : List (List Nat)
  eBase : Nat
  deriving DecidableEq, Repr

/-- One accumulator of a tile. -/
def tileElem (t : Tile) (isInt : Bool) (acc0 : W32) (i j : Nat) : AccRes :=
  let sc := if t.g = 0 then none else some ⟨t.g, t.sa.getD i [], t.sb.getD j [], t.eBase⟩
  accRun isInt sc (t.rows.getD i []) (t.cols.getD j []) ⟨acc0, 0, 0, 0⟩

/-- Every accumulator of a tile: (index in the bank, result). -/
def tileRun (t : Tile) (isInt clear : Bool) (bank : SMap W32) : List (Nat × AccRes) :=
  (List.range t.rows.length).flatMap fun i => (List.range 128).map fun j =>
    let k := (t.r0 + i) * 128 + j
    (k, tileElem t isInt (if clear then 0 else smGetD 0 bank k) i j)

/-- Element-steps of a tile in which both operands are non-zero, per step; the others are gated (R84). -/
def tileLive (t : Tile) : Nat :=
  let steps := (t.cols.getD 0 []).length
  (List.range steps).foldl (fun n s =>
    let na := (t.rows.filter fun r => !(r.getD s .zero).isZero).length
    let nb := (t.cols.filter fun c => !(c.getD s .zero).isZero).length
    n + na * nb) 0

/-! ## Dense and split operands -/

/-- The scale of a lane in a group (R126): the array at `a`, `lanes` lanes. -/
def scaleAt (d : Dev) (a lanes g l : Nat) : Nat := readLe d (a + 32 + lanes * 2 * g + 2 * l) 2

/-- G of a GROUP field: 0 for none. -/
def groupSize (group : Nat) : Nat := if group = 0 then 0 else 16 * 2 ^ group

/-- A dense tile: rows at `a` (`n` lanes, live rows below `live`), columns at `b` (128 lanes), `k` steps. -/
def denseTile (d : Dev) (r0 n live k aFmt bFmt a b group sa sb : Nat) : Tile :=
  let g := groupSize group
  let groups := if g = 0 then 0 else k / g
  { r0 := r0
    rows := (List.range n).map fun i =>
      if i < live then (List.range k).map fun s => elemNum d aFmt a (n * s + i) else List.replicate k .zero
    cols := (List.range 128).map fun j => (List.range k).map fun s => elemNum d bFmt b (128 * s + j)
    g := g
    sa := (List.range n).map fun i => (List.range groups).map fun h => scaleAt d sa n h i
    sb := (List.range 128).map fun j => (List.range groups).map fun h => scaleAt d sb 128 h j
    eBase := if g = 0 then 0 else (readByte d sa).toNat + (readByte d sb).toNat }

/-! ## Sparse operands (06) -/

/-- The sparse parameter word and header of a pass (R143, R145). -/
structure SparseP where
  nOfM     : Bool
  n        : Nat
  m        : Nat
  dd       : Nat               -- walk bound D
  trans    : Bool
  p        : Nat
  stepForm : Bool
  segs     : Nat
  sNofM    : Bool              -- stored object's form, for TRANSPOSED
  sn       : Nat
  sm       : Nat
  sd       : Nat
  kLimit   : Nat
  aStride  : Nat
  bStride  : Nat
  bMeta    : Nat
  deriving DecidableEq, Repr

/-- M of an M_CODE. -/
def mOf (code : Nat) : Nat := 4 * 2 ^ code

/-- Reads SPARSE_PARAM and the sparse header (R147). Of SEGMENTS above 8,191 Table 06-3 says nothing; all 16 bits count (log entry 144,
DESIGN CHOICE). -/
def sparseP (d : Dev) (c mode : Nat) (param : BitVec 16) (metaBase : Nat) : SparseP :=
  let v := param.toNat
  let h := cellAddr c metaBase
  let sdecl := (readByte d (h + 2)).toNat
  let nOfM := mode == 1
  let n := nbits v 4 0
  let m := mOf (nbits v 6 5)
  let sn := nbits sdecl 4 0
  let sm := mOf (nbits sdecl 6 5)
  let sNofM := bitAt sdecl 7
  { nOfM := nOfM, n := n, m := m
    dd := if nOfM then n * 128 / m else nbits v 6 0 + 1
    trans := bitAt v 7
    p := nbits v 14 8 + 1
    stepForm := bitAt v 15
    segs := readLe d h 2
    sNofM := sNofM, sn := sn, sm := sm
    sd := if sNofM then sn * 128 / sm else nbits sdecl 6 0 + 1
    kLimit := readLe d (h + 4) 4
    aStride := readLe d (h + 8) 4
    bStride := readLe d (h + 12) 4
    bMeta := nbits (readLe d (h + 16) 4) 21 0 }

/-- All ones below a limit (R148). -/
def rangeMask (lim : Nat) : Nat := 2 ^ lim - 1

/-- The lowest `c` set bits among bits `t ..` of the 128 (R148). -/
def keepLowestFrom (x : Nat) : Nat → Nat → Nat → Nat
  | 0, _, _ => 0
  | n + 1, t, c =>
    if c = 0 then 0
    else if bitAt x t then 2 ^ t + keepLowestFrom x n (t + 1) (c - 1) else keepLowestFrom x n (t + 1) c

/-- The lowest `c` set bits of a 128-bit bitmap. -/
def keepLowest (x c : Nat) : Nat := keepLowestFrom x 128 0 c

/-- keep_a without the range mask: N of M or bitmap mode (R148). -/
def keepDecl (nOfM : Bool) (n m dd a : Nat) : Nat :=
  if nOfM then
    (List.range (128 / m)).foldl (fun k h => k + keepLowest (a / 2 ^ (h * m) % 2 ^ m) n * 2 ^ (h * m)) 0
  else keepLowest a dd

/-- The slot of a step among the kept ones (R149). -/
def aSlot (nOfM : Bool) (n m ka t : Nat) : Nat :=
  if nOfM then n * (t / m) + popBits (ka / 2 ^ (t / m * m)) (t % m) else popBits ka t

/-- What a segment delivers for one lane (R148 to R151): the kept bits, and the bits dropped by range and by declaration. -/
structure LaneKeep where
  keep  : Nat
  range : Nat
  decl  : Nat
  deriving DecidableEq, Repr

/-- keep_a of one lane's bitmap under a limit. -/
def laneKeep (s : SparseP) (bits lim : Nat) : LaneKeep :=
  let inr := bits % 2 ^ lim
  let k := keepDecl s.nOfM s.n s.m s.dd inr
  ⟨k, popBits bits 128 - popBits inr 128, popBits inr 128 - popBits k 128⟩

/-- Steps of segment g that exist in the operand. -/
def segLim (s : SparseP) (g : Nat) : Nat := min 128 (s.kLimit - 128 * g)

/-- A's bitmap of a lane in a segment; the transposed one where the pass walks it (Table 06-4). -/
def aBits (d : Dev) (c metaBase : Nat) (s : SparseP) (g lane : Nat) : Nat :=
  let a := cellAddr c (metaBase + 32 + g * s.aStride)
  if s.stepForm then readLe d a 16
  else if s.trans then readLe d (a + 2048 + 16 * lane) 16
  else readLe d (a + 16 * lane) 16

/-- B's bitmap of a segment (Table 06-4). -/
def bBits (d : Dev) (c : Nat) (s : SparseP) (g : Nat) : Nat := readLe d (cellAddr c (s.bMeta + g * s.bStride)) 16

/-- Kept present steps of B, and the drops by range and by P (R148, R151). -/
def bKeep (d : Dev) (c : Nat) (s : SparseP) (g : Nat) : LaneKeep :=
  let lim := segLim s g
  if s.p < 128 then
    let b := bBits d c s g
    let inr := b % 2 ^ lim
    let k := keepLowest inr s.p
    ⟨k, popBits b 128 - popBits inr 128, popBits inr 128 - popBits k 128⟩
  else ⟨rangeMask lim, 0, 0⟩

/-- Effective A of a lane in a segment: the value of each kept step, 0 elsewhere; with the transposed bits that have no
stored value (R141, R149, R150). -/
def aEffective (d : Dev) (c metaBase aBase aFmt : Nat) (s : SparseP) (g lane keep : Nat) : List Num × Nat :=
  let vals := cellAddr c (aBase + g * s.aStride)
  if s.trans then
    (List.range 128).foldl (fun acc t =>
      if bitAt keep t then
        let stored := readLe d (cellAddr c (metaBase + 32 + g * s.aStride) + 16 * t) 16
        let ks := keepDecl s.sNofM s.sn s.sm s.sd stored
        if bitAt ks lane then (acc.1 ++ [elemNum d aFmt vals (128 * aSlot s.sNofM s.sn s.sm ks lane + t)], acc.2)
        else (acc.1 ++ [.zero], acc.2 + 1)
      else (acc.1 ++ [.zero], acc.2)) ([], 0)
  else
    ((List.range 128).map fun t =>
      if bitAt keep t then elemNum d aFmt vals (128 * aSlot s.nOfM s.n s.m keep t + lane) else .zero, 0)

/-- Effective B of a column in a segment. -/
def bEffective (d : Dev) (c bBase bFmt : Nat) (s : SparseP) (g keep j : Nat) : List Num :=
  let vals := cellAddr c (bBase + g * s.bStride)
  (List.range 128).map fun t =>
    if bitAt keep t then elemNum d bFmt vals (128 * (if s.p < 128 then popBits keep t else t) + j) else .zero

/-- The cost of a segment in steps (R152, Table 06-6). -/
def segCost (s : SparseP) (width group : Nat) : Nat :=
  let da := if s.trans then s.sd else s.dd
  let feed := if s.stepForm then (if width = 16 then ceilDiv s.dd 2 else s.dd)
    else if width = 16 then ceilDiv (da + s.p) 4 else ceilDiv (da + s.p) 2
  let md :=
    if s.stepForm then (if width = 4 then 2 else 1)
    else (if width = 4 then 64 else if width = 8 then 32 else 8) * (if s.trans then 2 else 1)
  let sc := if group = 0 then 0 else (if width = 4 then 4096 else 2048) / groupSize group
  max (max s.dd feed) (max md sc)

/-- Segments that a pass of k steps walks (R153). -/
def walked (s : SparseP) (width group k : Nat) : Nat :=
  let c := segCost s width group
  (List.range s.segs).foldl (fun n g => if (g + 2) * c ≤ k then n + 1 else n) 0

/-- The drops of one segment: range, A declaration, B. -/
def segDrops (d : Dev) (c metaBase aBase aFmt : Nat) (s : SparseP) (g : Nat) : Nat × Nat × Nat :=
  let lim := segLim s g
  let b := bKeep d c s g
  let lanes := if s.stepForm then [0] else List.range 128
  let a := lanes.foldl (fun acc l =>
    let k := laneKeep s (aBits d c metaBase s g l) lim
    (acc.1 + k.range, acc.2 + k.decl + (aEffective d c metaBase aBase aFmt s g l k.keep).2)) (0, 0)
  (a.1 + b.range, a.2, b.decl)

/-- The tile of a sparse pass over its effective operands (R141). -/
def sparseTile (d : Dev) (c live k aFmt bFmt aBase bBase group sa sb metaBase : Nat) (s : SparseP) : Tile :=
  let w := walked s (fmtWidth aFmt) group k
  let g := groupSize group
  let groups := if g = 0 then 0 else 128 * w / g
  let keeps := (List.range w).map fun h => (bKeep d c s h).keep
  { r0 := 0
    rows := (List.range 128).map fun i =>
      if i < live then (List.range w).flatMap fun h =>
        (aEffective d c metaBase aBase aFmt s h i (laneKeep s (aBits d c metaBase s h i) (segLim s h)).keep).1
      else List.replicate (128 * w) .zero
    cols := (List.range 128).map fun j => (List.range w).flatMap fun h =>
      bEffective d c bBase bFmt s h (keeps.getD h 0) j
    g := g
    sa := (List.range 128).map fun i => (List.range groups).map fun h => scaleAt d sa 128 h i
    sb := (List.range 128).map fun j => (List.range groups).map fun h => scaleAt d sb 128 h j
    eBase := if g = 0 then 0 else (readByte d sa).toNat + (readByte d sb).toNat }

/-! ## The bank after a pass -/

/-- The accumulators of a bank. -/
def bankOf (d : Dev) (c b : Nat) : SMap W32 := smGetD [] d.acc (c * 2 + b)

/-- Writes the results of tiles into a bank; only values other than +0 are listed. -/
def putBank (d : Dev) (c b : Nat) (rs : List (Nat × AccRes)) : Dev :=
  let m := rs.foldl (fun m e => smPutD 0 m e.1 e.2.acc) (bankOf d c b)
  { d with acc := smPutD [] d.acc (c * 2 + b) m }

/-- The arithmetic events of a pass (R124, R129). -/
def passEvents (d : Dev) (c : Nat) (rs : List (Nat × AccRes)) : Dev :=
  let u := pCell c
  let n := rs.foldl (fun (n : Nat × Nat × Nat) e => (n.1 + e.2.sat, n.2.1 + e.2.nonfin, n.2.2 + e.2.snan)) (0, 0, 0)
  let one := fun (d : Dev) (bit cnt k : Nat) =>
    if k = 0 then d else noted (bump (wrF d u Reg.CAL_EVENTS bit bit 1) u cnt k) 0 u
  one (one (one d 0 Reg.CAL_EVT_ACC_SAT n.1) 1 Reg.CAL_EVT_ACC_NONFINITE n.2.1) 4 Reg.CAL_EVT_SCALE_NAN n.2.2

/-- Runs tiles into a bank: accumulators, arithmetic events, and the gated element-steps of `steps` steps (R84). -/
def runTiles (d : Dev) (c b : Nat) (isInt clear : Bool) (steps : Nat) (ts : List Tile) : Dev × Nat :=
  let bank := bankOf d c b
  let rs := ts.flatMap fun t => tileRun t isInt clear bank
  let live := ts.foldl (fun n t => n + tileLive t) 0
  (passEvents (putBank d c b rs) c rs, 16384 * steps - live)

/-! ## The Calender (05 R130 to R135) -/

/-- A Calender table entry (Table 05-3). -/
structure CalCfg where
  mult  : Nat
  shift : Nat
  group : Nat
  rsv   : Bool                 -- a reserved byte or bit is not 0
  deriving DecidableEq, Repr

/-- Entry n of a cell's Calender table. -/
def calCfg (d : Dev) (c n : Nat) : CalCfg :=
  let a := cellAddr c (0x3DFF00 + 16 * n)
  let b3 := (readByte d (a + 3)).toNat
  { mult := readLe d a 2, shift := (readByte d (a + 2)).toNat, group := b3 % 4
    rsv := decide (b3 / 4 ≠ 0) || (readBytes d (a + 4) 12).any fun b => decide (b ≠ 0) }

/-- The value an accumulator holds: FP32, or INT32 for an integer bank. -/
def accNum (isInt : Bool) (a : W32) : Num := if isInt then .ofInt a.toInt else decodeNum fp32 a.toNat

/-- Outputs of one row: element encodings and, with output groups, the scales; and the flags raised. -/
def drainRow (d : Dev) (c b : Nat) (isInt : Bool) (code : Nat) (f : Fmt) (cfg : CalCfg) (stoch : Bool) (key : W64)
    (slice i : Nat) : List Nat × List Nat × Nat × Nat :=
  let bank := bankOf d c b
  let ys := (List.range 128).map fun j => calenderY (accNum isInt (smGetD 0 bank (i * 128 + j))) cfg.mult cfg.shift
  let gs := groupSize cfg.group
  let es := if gs = 0 then [] else (List.range (128 / gs)).map fun h => outGroupE code ((ys.drop (gs * h)).take gs)
  let outs := ys.zipIdx.map fun e =>
    let y := if gs = 0 then e.1 else e.1.scale (127 - (es.getD (e.2 / gs) 127 : Int))
    outputNum f (if stoch then .stoch (srBits key slice i e.2) else .rne) y
  (outs.map fun o => o.1, es.map fun e => e * 256 + 128,
    (outs.filter fun o => o.2.sat).length, (outs.filter fun o => o.2.nan).length)

/-- Elements of w bits packed little-endian (R120). -/
def packElems (w : Nat) : List Nat → List Byte
  | [] => []
  | [x] => if w = 4 then [BitVec.ofNat 8 (x % 16)] else leBytes (w / 8) x
  | x :: y :: l =>
    if w = 4 then BitVec.ofNat 8 (x % 16 + 16 * (y % 16)) :: packElems w l
    else leBytes (w / 8) x ++ leBytes (w / 8) y ++ packElems w l

/-- The bytes of a drain in order from its base, with the counts of saturated and NaN elements (R74, R134, R135). -/
def drainBytes (d : Dev) (c b : Nat) (isInt raw : Bool) (code : Nat) (cfg : CalCfg) (stoch : Bool) (key : W64)
    (slice : Nat) : List Byte × Nat × Nat :=
  if raw then
    ((List.range 16384).flatMap fun k => leBytes 4 (smGetD 0 (bankOf d c b) k).toNat, 0, 0)
  else match fmtOf code with
    | none => ([], 0, 0)
    | some f =>
      let rows := (List.range 128).map fun i => drainRow d c b isInt code f cfg stoch key slice i
      (packElems f.width (rows.flatMap fun r => r.1) ++ packElems 16 (rows.flatMap fun r => r.2.1),
        rows.foldl (fun n r => n + r.2.2.1) 0, rows.foldl (fun n r => n + r.2.2.2) 0)

end Sys2Proof.Machine
end

