-- ==== Sys2Proof/Machine/Record.lean ====
section
/-! DEFINITION. Command records as bytes (04 R94, R95, R107): the 64 bytes of a record spell a header and a command with its
operands, and the other way round. The front end reads the records it issues from its record buffer (R100). -/

namespace Sys2Proof.Machine

/-- Word `n` of a record. -/
def recWord (r : List Byte) (n : Nat) : Nat := leAt r (8 * n) 8

/-- Word 0 of a record without its opcode (Table 04-1). -/
def recHdr (r : List Byte) : RecHdr :=
  let w := recWord r 0
  ⟨bitAt w 8, bitAt w 9, Fin.ofNat 32 (nbits w 20 16), Fin.ofNat 32 (nbits w 28 24), nbits w 47 32, nbits w 63 48⟩

/-- The vector operation of a VOP code (Table 04-11). -/
def vopOf : Nat → Option Vop
  | 0 => some .copy | 1 => some .add | 2 => some .sub | 3 => some .mul | 4 => some .fma | 5 => some .max | 6 => some .min
  | 7 => some .scale | 8 => some .exp | 9 => some .recip | 10 => some .rsqrt | 11 => some .sum | 12 => some .amax
  | _ => none

/-- VOP of a vector operation. -/
def vopCode : Vop → Nat
  | .copy => 0 | .add => 1 | .sub => 2 | .mul => 3 | .fma => 4 | .max => 5 | .min => 6 | .scale => 7 | .exp => 8
  | .recip => 9 | .rsqrt => 10 | .sum => 11 | .amax => 12

/-- The atomic operation of an AOP code (Table 04-10). -/
def aopOf : Nat → Option AtomOp
  | 0 => some .add | 1 => some .min | 2 => some .max | 3 => some .swap | 4 => some .cas | 5 => some .and | 6 => some .or
  | _ => none

/-- AOP of an atomic operation. -/
def aopCode : AtomOp → Nat
  | .add => 0 | .min => 1 | .max => 2 | .swap => 3 | .cas => 4 | .and => 5 | .or => 6

/-- The command that words 0 to 7 spell; none for a reserved opcode or operation code (Tables 04-2, 04-5 to 04-11). -/
def recBody (r : List Byte) : Option RecBody :=
  let w := recWord r
  let f := fun n hi lo => nbits (recWord r n) hi lo
  match f 0 7 0 with
  | 0x00 => some .nop
  | 0x01 => some .end_
  | 0x02 => some .wait
  | 0x03 => some .fence
  | 0x10 => some (.load ⟨f 1 21 0, f 1 49 32, Fin.ofNat 16 (f 2 3 0), f 2 31 4⟩)
  | 0x11 => some (.store ⟨f 1 21 0, f 1 49 32, Fin.ofNat 16 (f 2 3 0), f 2 31 4⟩)
  | 0x12 => some (.fill ⟨f 1 21 0, f 1 49 32, BitVec.ofNat 64 (w 2)⟩)
  | 0x20 => some (.pass
      { u := f 1 14 0, clear := bitAt (w 1) 15, bank := Fin.ofNat 2 (f 1 16 16), bcast := bitAt (w 1) 17, liveEn := bitAt (w 1) 18
        aFmt := Fin.ofNat 16 (f 1 23 20), bFmt := Fin.ofNat 16 (f 1 27 24), group := Fin.ofNat 4 (f 1 29 28), aBase := f 1 53 32
        bBase := f 2 21 0, bOffset := f 2 59 32, bSlot := Fin.ofNat 16 (f 2 63 60), liveAddr := f 3 21 0
        subscribers := BitVec.ofNat 8 (f 3 29 22), aScaleBase := f 3 53 32, bScaleBase := f 4 21 0
        sparseMode := Fin.ofNat 4 (f 4 23 22), metaBase := f 4 53 32, sparseParam := BitVec.ofNat 16 (f 5 15 0) })
  | 0x21 => some (.split
      { u := f 1 14 0, clear := bitAt (w 1) 15, bank := Fin.ofNat 2 (f 1 16 16), aFmt := Fin.ofNat 16 (f 1 23 20)
        bFmt := Fin.ofNat 16 (f 1 27 24), group := Fin.ofNat 4 (f 1 29 28), tableBase := f 1 53 32 })
  | 0x22 => some (.drain
      { bank := Fin.ofNat 2 (f 1 0 0), toComb := bitAt (w 1) 1, raw := bitAt (w 1) 2, outFmt := Fin.ofNat 16 (f 1 7 4)
        calCfg := Fin.ofNat 16 (f 1 11 8), stoch := bitAt (w 1) 12, destBase := f 1 53 32, destSlot := Fin.ofNat 16 (f 2 3 0)
        destOffset := f 2 31 4, tensorKey := BitVec.ofNat 64 (w 3) })
  | 0x30 => (vopOf (f 1 7 0)).map fun op => .vector op
      ⟨bitAt (w 1) 8, f 1 51 32, f 2 21 0, f 2 53 32, f 3 21 0, f 3 53 32, BitVec.ofNat 32 (f 4 31 0)⟩
  | 0x40 => some (.send ⟨f 1 21 0, f 1 43 32, f 2 7 0, Fin.ofNat 32 (f 2 12 8), f 2 53 32⟩)
  | 0x41 => some (.rload ⟨f 1 21 0, f 1 43 32, f 2 47 0, f 2 58 48⟩)
  | 0x42 => some (.rstore ⟨f 1 21 0, f 1 43 32, f 2 47 0, f 2 58 48⟩)
  | 0x43 => (aopOf (f 1 3 0)).map fun op => .ratomic op
      ⟨bitAt (w 1) 4, f 1 53 32, f 2 47 0, f 2 58 48, BitVec.ofNat 64 (w 3), BitVec.ofNat 64 (w 4)⟩
  | 0x44 => some (.rtrig ⟨f 1 15 0, Fin.ofNat 256 (f 1 23 16), f 2 47 0, f 2 58 48, sliceBytes r 32 32⟩)
  | 0x50 => some (.alloc ⟨Fin.ofNat 16 (f 1 3 0), f 1 6 4, Fin.ofNat 4 (f 1 9 8), f 1 55 32⟩)
  | _ => none

/-- A record: header and command. -/
def decodeRec (r : List Byte) : Option (RecHdr × RecBody) := (recBody r).map fun b => (recHdr r, b)

/-- A word from its fields: value and lowest bit. -/
def wordOf (fs : List (Nat × Nat)) : Nat := fs.foldl (fun n e => n + e.1 * 2 ^ e.2) 0

/-- The opcode of a command (Table 04-2). -/
def opCode : RecBody → Nat
  | .nop => 0x00 | .end_ => 0x01 | .wait => 0x02 | .fence => 0x03 | .load _ => 0x10 | .store _ => 0x11 | .fill _ => 0x12
  | .pass _ => 0x20 | .split _ => 0x21 | .drain _ => 0x22 | .vector _ _ => 0x30 | .send _ => 0x40 | .rload _ => 0x41
  | .rstore _ => 0x42 | .ratomic _ _ => 0x43 | .rtrig _ => 0x44 | .alloc _ => 0x50

/-- Words 1 to 7 of a command. -/
def operandWords : RecBody → List Nat
  | .nop | .end_ | .wait | .fence => [0, 0, 0, 0, 0, 0, 0]
  | .load x | .store x => [wordOf [(x.cellBase, 0), (x.length, 32)], wordOf [(x.slot.val, 0), (x.offset, 4)], 0, 0, 0, 0, 0]
  | .fill x => [wordOf [(x.cellBase, 0), (x.length, 32)], x.pattern.toNat, 0, 0, 0, 0, 0]
  | .pass x =>
    [wordOf [(x.u, 0), (b2n x.clear, 15), (x.bank.val, 16), (b2n x.bcast, 17), (b2n x.liveEn, 18), (x.aFmt.val, 20),
       (x.bFmt.val, 24), (x.group.val, 28), (x.aBase, 32)],
     wordOf [(x.bBase, 0), (x.bOffset, 32), (x.bSlot.val, 60)],
     wordOf [(x.liveAddr, 0), (x.subscribers.toNat, 22), (x.aScaleBase, 32)],
     wordOf [(x.bScaleBase, 0), (x.sparseMode.val, 22), (x.metaBase, 32)], x.sparseParam.toNat, 0, 0]
  | .split x =>
    [wordOf [(x.u, 0), (b2n x.clear, 15), (x.bank.val, 16), (x.aFmt.val, 20), (x.bFmt.val, 24), (x.group.val, 28),
       (x.tableBase, 32)], 0, 0, 0, 0, 0, 0]
  | .drain x =>
    [wordOf [(x.bank.val, 0), (b2n x.toComb, 1), (b2n x.raw, 2), (x.outFmt.val, 4), (x.calCfg.val, 8), (b2n x.stoch, 12),
       (x.destBase, 32)],
     wordOf [(x.destSlot.val, 0), (x.destOffset, 4)], x.tensorKey.toNat, 0, 0, 0, 0]
  | .vector op x =>
    [wordOf [(vopCode op, 0), (b2n x.bf16, 8), (x.n, 32)], wordOf [(x.src0, 0), (x.src1, 32)],
     wordOf [(x.src2, 0), (x.dst, 32)], x.scalar.toNat, 0, 0, 0]
  | .send x =>
    [wordOf [(x.src, 0), (x.length, 32)], wordOf [(x.target, 0), (x.targetTag.val, 8), (x.targetBase, 32)], 0, 0, 0, 0, 0]
  | .rload x | .rstore x =>
    [wordOf [(x.localBase, 0), (x.length, 32)], wordOf [(x.remoteOffset, 0), (x.node, 48)], 0, 0, 0, 0, 0]
  | .ratomic op x =>
    [wordOf [(aopCode op, 0), (b2n x.wide, 4), (x.result, 32)], wordOf [(x.remoteOffset, 0), (x.node, 48)],
     x.operand.toNat, x.compare.toNat, 0, 0, 0]
  | .rtrig x =>
    [wordOf [(x.trigId, 0), (x.targetCell.val, 16)], wordOf [(x.remoteOffset, 0), (x.node, 48)], 0,
     leAt x.arg 0 8, leAt x.arg 8 8, leAt x.arg 16 8, leAt x.arg 24 8]
  | .alloc x => [wordOf [(x.slot.val, 0), (x.cls, 4), (x.tier.val, 8), (x.object, 32)], 0, 0, 0, 0, 0, 0]

/-- The 64 bytes of a record. -/
def encodeRec (h : RecHdr) (b : RecBody) : List Byte :=
  (wordOf [(opCode b, 0), (b2n h.sig, 8), (b2n h.wait, 9), (h.sigTag.val, 16), (h.waitTag.val, 24), (h.waitCount, 32),
    (h.recordId, 48)] :: operandWords b).flatMap (leBytes 8)

/-- Record `i` of a block (R97). -/
def blockRec (b : List Byte) (i : Nat) : List Byte := sliceBytes b (0x100 + 64 * i) 64

/-- The resource that runs a command (Table 04-2). -/
def RecBody.res : RecBody → Option Res
  | .nop | .end_ | .wait | .fence => none
  | .load _ | .store _ | .fill _ => some .xfer
  | .pass _ | .split _ => some .array
  | .drain _ => some .drain
  | .vector _ _ => some .vec
  | .send _ | .rload _ | .rstore _ | .ratomic _ _ | .rtrig _ => some .net
  | .alloc _ => some .vatq

/-- Is a command a remote operation (R106)? -/
def RecBody.isRemote : RecBody → Bool
  | .rload _ | .rstore _ | .ratomic _ _ | .rtrig _ => true
  | _ => false

/-- The bank of a pass or a drain. -/
def RecBody.bank : RecBody → Option (Fin 2)
  | .pass x => some x.bank
  | .split x => some x.bank
  | .drain x => some x.bank
  | _ => none

/-- Is a command a sparse pass? -/
def RecBody.isSparse : RecBody → Bool
  | .pass x => decide (x.sparseMode.val ≠ 0)
  | _ => false

/-- Is a command a broadcast pass? -/
def RecBody.isBcast : RecBody → Bool
  | .pass x => x.bcast
  | _ => false

/-! ## Blocks (R97) -/

/-- A stream descriptor (Table 04-3). -/
def readStream (v : Nat) : StreamDesc :=
  ⟨nbits v 9 0, bitAt v 10, bitAt v 11, bitAt v 12, nbits v 31 16, nbits v 53 32⟩

/-- The stream descriptors of a block. -/
def blockStreams (b : List Byte) : List StreamDesc := (List.range 8).map fun s => readStream (leAt b (0x40 + 8 * s) 8)

/-- The handle bindings of a block. -/
def blockBinds (b : List Byte) : List Bind :=
  (List.range (leAt b 2 1)).map fun i =>
    let v := leAt b (0x80 + 8 * i) 8
    ⟨nbits v 3 0, nbits v 31 8⟩

/-- Bytes of a block: the header area and its records. -/
def blockBytes (b : List Byte) : Nat := 0x100 + 64 * leAt b 0 2

end Sys2Proof.Machine
end

