-- ==== Sys2Proof/Machine/Vat.lean ====
section
/-! DEFINITION. The Vat managers (11): quotas, issue with fallback, waiting requests, releases, and the carve of the
comb-store pools. -/

namespace Sys2Proof.Machine

/-- A context's quota in a tier (R289, R522). -/
def quotaLimit (d : Dev) (ctx tier : Nat) : Nat := smGetD 0 d.vat.limit (ctx * 4 + tier)

/-- Bytes charged to a context in a tier (R290). -/
def quotaUsed (d : Dev) (ctx tier : Nat) : Nat := smGetD 0 d.vat.used (ctx * 4 + tier)

/-- Sets the four quotas of a context. -/
def setQuotas (d : Dev) (ctx : Nat) (q : List Nat) : Dev :=
  { d with vat := { d.vat with
    limit := (List.range 4).foldl (fun m t => smPutD 0 m (ctx * 4 + t) (q.getD t 0)) d.vat.limit } }

/-- The first never issued position from `i` up that is FREE (withheld ones are passed over). -/
def firstFresh (v : VatSt) (pool sub : Nat) : Nat → Nat → Nat
  | 0, i => i
  | n + 1, i => if (bufOf v pool (poolIdx pool sub i)).state = .free then i else firstFresh v pool sub n (i + 1)

/-- The head of a pool's free list (R293): never issued positions in ascending order, then released ones. -/
def headFree (v : VatSt) (pool sub : Nat) : Option Nat :=
  let r := regionOf v pool sub
  let i := firstFresh v pool sub v.bufs.length r.fresh
  if i < min r.count r.limit then some i else (r.freed.filter (· < r.limit)).head?

/-- Takes the head off a free list. -/
def popFree (v : VatSt) (pool sub pos : Nat) : VatSt :=
  let r := regionOf v pool sub
  let r' := if r.fresh ≤ pos then { r with fresh := pos + 1 } else { r with freed := r.freed.erase pos }
  { v with regions := smPut v.regions (pool * 64 + sub) r' }

/-- The answer to a request. -/
inductive VatAns where
  | issued (h : Nat)
  | empty
  | quota
  deriving DecidableEq, Repr

/-- The smallest class at or above the requested one with a free buffer (R296). -/
def pickPool (d : Dev) (tier cls sub : Nat) : Option (Nat × Nat) :=
  if tierRO d tier sub then none
  else ((List.range 5).filter (cls ≤ ·)).findSome? fun c =>
    (poolOf tier c).bind fun pool => (headFree d.vat pool sub).map fun pos => (pool, pos)

/-- Serves a request (R290, R292, R296): the buffer goes to FRAME or HELD, its class is charged. -/
def vatServe (d : Dev) (part ctx tier cls sub : Nat) (mode2 : Bool) (to_ : BufState) : Dev × VatAns :=
  match pickPool d tier cls sub with
  | none => (d, .empty)
  | some (pool, pos) =>
    let n := poolBytes pool
    if quotaLimit d ctx tier < quotaUsed d ctx tier + n then (d, .quota)
    else
      let idx := poolIdx pool sub pos
      let g := (bufOf d.vat pool idx).gen
      let v := modBuf (popFree d.vat pool sub pos) pool idx fun _ => ⟨to_, g, part, ctx, mode2, false⟩
      let v := { v with used := smModD 0 v.used (ctx * 4 + tier) (· + n) }
      let u := pVat (poolInst pool)
      let d := bump { d with vat := v } u Reg.VAT_ISSUES 1
      let d := if n = classBytes cls then d
        else bump (eventG d 4 u Reg.VAT_EVENTS 0 Reg.VAT_EVT_FALLBACK) u Reg.VAT_WASTE_BYTES (n - classBytes cls)
      (d, .issued (mkHandle pool idx g))

/-- The instance that owns the pools of a tier. -/
def tierInst (tier : Nat) : Nat := if tier < 2 then 0 else 1

/-- The first time a request meets an empty pool or a spent quota (R297): its event and count. -/
def vatShort (d : Dev) (tier : Nat) (a : VatAns) : Dev :=
  let u := pVat (tierInst tier)
  match a with
  | .empty => eventG d 4 u Reg.VAT_EVENTS 1 Reg.VAT_EVT_POOL_EMPTY
  | .quota => eventG d 4 u Reg.VAT_EVENTS 2 Reg.VAT_EVT_QUOTA_WAIT
  | .issued _ => d

/-- The number of waiting requests that VAT_STATUS shows. -/
def vatSync (d : Dev) : Dev :=
  let n := fun i => (d.vat.waiting.filter fun r => tierInst r.tier == i).length
  wrN (wrN d (pVat 0) Reg.VAT_STATUS (n 0 % 65536)) (pVat 1) Reg.VAT_STATUS (n 1 % 65536)

/-- A request starts to wait: TIER_LATE with reason POOL (7), counted once (R297, R117). The subcause is
tier * 16 + reason. -/
def vatWait (d : Dev) (r : VatReq) (a : VatAns) : Dev :=
  let d := vatShort d r.tier a
  let r := { r with met := (decide (a = .empty), decide (a = .quota)) }
  let d := bump d (pVat (tierInst r.tier)) (Reg.VAT_TL_EVENTS r.tier) 1
  let first := (partOf d r.part).dist.isNone
  let d := disturb d r.part causeTier 1 0 (r.tier * 16 + 7)
  let d := if first then modPart d r.part fun t =>
      { t with poolTier := r.tier, poolPool := (poolOf r.tier r.cls).getD 0 } else d
  vatSync { d with vat := { d.vat with waiting := d.vat.waiting ++ [r] } }

/-- The stall cycles of a wait that ends at a cycle (R297). -/
def vatStalled (d : Dev) (r : VatReq) (cycle : Nat) : Dev :=
  let n := cycle - r.since
  bump (bump d (pVat (tierInst r.tier)) (Reg.VAT_TL_CYCLES r.tier) n) (pPart r.part) (Reg.CTL_DIST_CYCLES causeTier) n

/-! ## Releases (R293, R294) -/

/-- Does a buffer hold, or lie in, a 64 KiB chunk with a line listed under R249 (R294)? -/
def holdsPoison (d : Dev) (pool idx : Nat) : Bool :=
  let r := regionOf d.vat pool (poolSub pool idx)
  let a := r.base + poolPos pool idx * poolBytes pool
  if pool < 3 then false
  else ((d.tier.poison.flatMap fun e => e.2) ++ d.tier.tmRecord).any fun l =>
    decide (a / 65536 ≤ l / 65536) && decide (l / 65536 ≤ (a + poolBytes pool - 1) / 65536)

/-- Releases a buffer at a tick: generation, free list, quota, and the cache and repair slots it held. -/
def releaseBuf (d : Dev) (pool idx : Nat) : Dev :=
  let b := bufOf d.vat pool idx
  let h := mkHandle pool idx b.gen
  let wrap := b.gen = 255
  let gen := if wrap then 1 else b.gen + 1
  let bad := holdsPoison d pool idx
  let sub := poolSub pool idx
  let v := modBuf d.vat pool idx fun _ => ⟨if bad then .withheld else .free, gen, 0, 0, false, false⟩
  let r := regionOf v pool sub
  let v := if bad then v
    else { v with regions := smPut v.regions (pool * 64 + sub) { r with freed := r.freed ++ [poolPos pool idx] } }
  let v := { v with used := smModD 0 v.used (b.ctx * 4 + poolTier pool) (· - poolBytes pool) }
  let t := d.tier
  let t := { t with slots := t.slots.filter (·.handle != h), repairs := t.repairs.filter (·.handle != h) }
  let u := pVat (poolInst pool)
  let d := bump { d with vat := v, tier := t } u Reg.VAT_RELEASES 1
  if wrap then event d u Reg.VAT_EVENTS 4 Reg.VAT_EVT_GEN_WRAP else d

/-- The buffers of a partition that a predicate selects, in ascending handle order: pool and index. -/
def bufsOf (v : VatSt) (p : Nat) (sel : Buf → Bool) : List (Nat × Nat) :=
  (v.bufs.filter fun e => e.2.part == p && decide (e.2.state ≠ .free) && decide (e.2.state ≠ .withheld) && sel e.2).map
    fun e => (e.1 / 2 ^ 20, e.1 % 2 ^ 20)

/-- Releases buffers in ascending handle order. -/
def releaseAll (d : Dev) (l : List (Nat × Nat)) : Dev := l.foldl (fun d e => releaseBuf d e.1 e.2) d

/-- Sets the state of the buffer a handle names, if the handle is current. -/
def setBuf (d : Dev) (h : Nat) (s : BufState) : Dev :=
  if (bufOf d.vat (hPool h) (hIndex h)).gen = hGen h then
    { d with vat := modBuf d.vat (hPool h) (hIndex h) fun b => { b with state := s } }
  else d

/-! ## The carve of the comb stores (R288) -/

/-- Lays out the comb-store pools of the combs of a partition. -/
def carveCombs (d : Dev) (p n1m n64k top : Nat) : Dev :=
  let rest := (16 * 2 ^ 20 - top - n1m * 2 ^ 20 - n64k * 2 ^ 16) / 4096
  let v := (partCombs d p).foldl (fun v k =>
    let base := combAddr k 0
    let put := fun (m : SMap Region) (pool b n : Nat) =>
      smPut m (pool * 64 + k) ⟨b, n, 0, [], n⟩
    let m := put v.regions 2 base n1m
    let m := put m 1 (base + n1m * 2 ^ 20) n64k
    let m := put m 0 (base + n1m * 2 ^ 20 + n64k * 2 ^ 16) rest
    { v with regions := m }) d.vat
  { d with vat := { v with carve := smPut v.carve p (n1m, n64k, top) } }

/-- Is some comb-store buffer of the partition's combs in use (R288, R289)? -/
def combBufsInUse (d : Dev) (p : Nat) : Bool :=
  d.vat.bufs.any fun e => decide (e.1 / 2 ^ 20 < 3) && (partCombs d p).contains (e.1 % 2 ^ 20 / 2 ^ 15)
    && (decide (e.2.state = .frame) || decide (e.2.state = .published) || decide (e.2.state = .held)
      || decide (e.2.state = .leaving))

/-- Bytes of a tier in pools (R289). -/
def pooledBytes (d : Dev) (tier : Nat) : Nat :=
  (d.vat.regions.filter fun e => poolTier (e.1 / 64) == tier).foldl (fun n e => n + e.2.count * poolBytes (e.1 / 64)) 0

end Sys2Proof.Machine
end

