-- ==== Sys2Proof/Machine/Cell.lean ====
section
/-! DEFINITION. The cell's front end: streams, tags, resource queues and the checks of a record (04 R102 to R105, R115),
corrections in store reads (03 R70, R71, R88, R91), and what the records on the resources XFER, VEC, NET and VATQ do when they
start. The array and the drains are in Engine.lean, issue and completion in Front.lean. -/

namespace Sys2Proof.Machine

/-! ## Duty (20 R500, R502) -/

/-- The effective duty of a partition (R502). -/
def dutyEff (d : Dev) (p : Nat) : Nat :=
  let dies := (partCombs d p).map (dieOfComb d.fuses)
  let hot := rdB d pPwr Reg.PWR_STATUS 2 || rdB d pPwr Reg.PWR_STATUS 7 || rdB d pPwr Reg.PWR_STATUS 8
    || dies.any fun i => rdB d pPwr Reg.PWR_STATUS (3 + i)
  min (smGetD 16 d.pwr.duty p) (if hot then 8 else 16)

/-- The cycle of the n-th cycle from `start` that a duty does not withhold: cycle i is withheld when i mod 16 is at
least the duty (R500). -/
def activeEnd (duty start n : Nat) : Nat :=
  if n = 0 then start - 1
  else if 16 ≤ duty ∨ duty = 0 then start + n - 1
  else
    let a0 := duty - start % 16
    if n ≤ a0 then start + n - 1
    else (start / 16 + 1 + (n - a0 - 1) / duty) * 16 + (n - a0 - 1) % duty

/-! ## Streams and tags -/

/-- A stream no descriptor enables. -/
def Strm.init : Strm := ⟨.idle, 0, none, none, [], none, none, 0, 0, 0⟩

/-- A stream of a cell. -/
def strmOf (x : CellSt) (s : Nat) : Strm := smGetD Strm.init x.streams s

/-- Changes a stream. -/
def modStrm (d : Dev) (c s : Nat) (g : Strm → Strm) : Dev :=
  modCell d c fun x => { x with streams := smModD Strm.init x.streams s g }

/-- A tag at cycle 0. -/
def Tag.init : Tag := ⟨0, 0, 0, 0⟩

/-- A tag of a cell. -/
def tagOf (x : CellSt) (t : Nat) : Tag := smGetD Tag.init x.tags t

/-- A tag that advances at the end of a cycle; `why` is the cause that made its signaller late, 0 for none. -/
def Tag.up (g : Tag) (cycle why : Nat) : Tag :=
  { count := g.count + 1, cycle := max g.cycle cycle, before := if g.cycle < cycle then g.count else g.before
    why := if why = 0 then g.why else why }

/-- The first cycle at whose start a tag held a count (R103); none while it does not. -/
def Tag.reached (g : Tag) (n : Nat) : Option Nat :=
  if n ≤ g.before then some 0 else if n ≤ g.count then some (g.cycle + 1) else none

/-- Advances a tag by 1 at the end of a cycle; at 65,535 it stays, which sets TAG_SAT (R103). -/
def advTag (d : Dev) (c t cycle why : Nat) : Dev :=
  let g := tagOf (cellOf d c) t
  if g.count < 65535 then modCell d c fun x => { x with tags := smPutD Tag.init x.tags t (g.up cycle why) }
  else eventG d 7 (pCell c) Reg.CEL_FE_EVENTS 1 Reg.CEL_EVT_TAG_SAT

/-- The partition of a cell. -/
def cellPart (d : Dev) (c : Nat) : Nat := (combOwner d (c / 8)).getD 0

/-- Is a stream in a state in which its next record may issue (RUNNING, with what it waits for)? -/
def Strm.live (s : Strm) : Bool :=
  (decide (s.state = .running) || decide (s.state = .waitTag) || decide (s.state = .waitRes)) && s.fenceSig.isNone
    && s.fencedBy.isEmpty

/-- Key of a resource in `CellSt.resEnd`. -/
def resNum : Res → Nat
  | .xfer => 0 | .vec => 1 | .net => 2 | .vatq => 3 | .array => 4 | .drain => 5

/-- Records in the queue of a resource: issued and not started (R104). -/
def queued (x : CellSt) (r : Res) : Nat := (x.inflight.filter fun f => decide (f.body.res = some r) && !f.started).length

/-- Remote operations of a cell that are outstanding: issued, and neither complete nor refused (R110). -/
def outstanding (x : CellSt) : Nat :=
  x.remotes.length + (x.inflight.filter fun f => f.body.isRemote && !f.started).length

/-- Has the queue of a resource a free entry, and may a NET record issue (R102, R104)? -/
def roomFor (x : CellSt) (b : RecBody) : Bool :=
  match b.res with
  | none => true
  | some r => decide (queued x r < 4) && (!decide (r = .net) || decide (outstanding x < 16))

/-- The first cycle at which a resource other than the array and the drains is free (R104). -/
def resFree (x : CellSt) (r : Res) : Nat := smGetD 0 x.resEnd (resNum r)

/-- Why a record fails at issue (Table 04-13), with the handle when the Vat's check failed. -/
structure RecErr where
  code   : Nat
  sub    : Nat
  handle : Nat
  write  : Bool
  deriving DecidableEq, Repr

/-- Record index of a stream's next record. -/
def nextRec (s : Strm) : Nat := ((s.desc.map StreamDesc.start).getD 0) + s.recs

/-- Records a failure: the stream stops, the first failure of the frame is kept, CMD_ERR (R115). -/
def recordFail (d : Dev) (c s recIdx recId code sub : Nat) : Dev :=
  let u := pCell c
  let d := modStrm d c s fun x => { x with state := .stopped }
  let d := if rdB d u Reg.CEL_CMD_ERR 7 then d
    else wrN (wrN d u Reg.CEL_CMD_ERR (code + 16 * s + 128 + 256 * recIdx)) u Reg.CEL_CMD_ERR_ID (recId + 65536 * sub)
  event d u Reg.CEL_FE_EVENTS 0 Reg.CEL_EVT_CMD_ERR

/-! ## Store reads (R70, R71, R88, R90, R91) -/

/-- A cell or comb finds an uncorrectable word: ERR_UNCORR, the address, and it fails (R71, R91, R412). -/
def storeFails (d : Dev) (a : Nat) : Dev :=
  match whereIs d a with
  | .cell c => setState (wrN (hdrEvent d (pCell c) .errUncorr) (pCell c) Reg.CEL_ERR_ADDR
      ((a - cellAddr c 0) / 32 + 2 ^ 30 + 2 ^ 31)) (pCell c) .failed
  | .comb k => setState (wrN (hdrEvent d (pComb k) .errUncorr) (pComb k) Reg.CMB_ERR_ADDR
      ((a - combAddr k 0) / 32 + 2 ^ 30 + 2 ^ 31)) (pComb k) .failed
  | _ => d

/-- A corrected sector of a store: ERR_CORR and the address (R70, R88). -/
def storeCorr (d : Dev) (a : Nat) : Dev :=
  match whereIs d a with
  | .cell c =>
    wrN (corrEvent d (pCell c) (frameNum d (cellPart d c))) (pCell c) Reg.CEL_ERR_ADDR ((a - cellAddr c 0) / 32 + 2 ^ 30)
  | .comb k =>
    let f := ((combOwner d k).map (frameNum d)).getD 0
    wrN (corrEvent d (pComb k) f) (pComb k) Reg.CMB_ERR_ADDR ((a - combAddr k 0) / 32 + 2 ^ 30)
  | _ => d

/-- An uncorrectable sector of a store that a frame reads: the unit fails and a kill is filed (R71, R91). -/
def storeUncorr (d : Dev) (a : Nat) : Dev :=
  let d := storeFails d a
  match whereIs d a with
  | .cell c => fileKill (modCell d c fun x => { x with dead := true }) (cellPart d c) 2
  | .comb k => match combOwner d k with
    | some p => fileKill d p 2
    | none => d
  | _ => d

/-- Cycles a to b − 1 in which a write side is busy, after the stretch w of cycles known so far: one stretch is kept, the last. -/
def stretch (w : Nat × Nat) (a b : Nat) : Nat × Nat :=
  if b ≤ a then w else if a ≤ w.2 then (min w.1 a, max w.2 b) else (a, b)

/-- The shared port's write side of a cell store is busy in cycles a to b − 1. -/
def cellBusy (d : Dev) (c a b : Nat) : Dev :=
  modCell d c fun x =>
    let w := stretch (x.wrFrom, x.wrTo) a b
    { x with wrFrom := w.1, wrTo := w.2 }

/-- A comb store is written in cycles a to b − 1. -/
def combBusy (d : Dev) (k a b : Nat) : Dev :=
  modComb d k fun x =>
    let w := stretch (x.wrFrom, x.wrTo) a b
    { x with wrFrom := w.1, wrTo := w.2 }

/-- Has a word of a store that was corrected in cycle u been written back before cycle v: was the write side of its store idle in a
cycle between (R70, R88)? (log entry 102, DEDUCED) -/
def writtenBack (d : Dev) (a u v : Nat) : Bool :=
  let idle := fun (w : Nat × Nat) => decide (u + 1 < v) && !(decide (w.1 ≤ u + 1) && decide (v ≤ w.2))
  match whereIs d a with
  | .cell c => idle ((cellOf d c).wrFrom, (cellOf d c).wrTo)
  | .comb k => idle ((combOf d k).wrFrom, (combOf d k).wrTo)
  | _ => true

/-- Drops the marks of a store range whose corrected words have been written back before cycle v. -/
def heal (d : Dev) (a n v : Nat) : Dev :=
  (marksIn d a n).foldl (fun d e => match e.2.seen with
    | some u => if writtenBack d e.1 u v then { d with marks := smDel d.marks e.1 } else d
    | none => d) d

/-- The cycle that a store has reached, for a read that bears no cycle of the frame (log entry 102, DEDUCED). -/
def storeNow (d : Dev) (a : Nat) : Nat :=
  match whereIs d a with
  | .cell c => (cellOf d c).now
  | .comb k => (List.range 8).foldl (fun n i => max n (cellOf d (8 * k + i)).now) 0
  | _ => 0

/-- The sectors of a store range with marks: sector address, uncorrectable? -/
def markedSectors (d : Dev) (a n : Nat) : List (Nat × Bool) :=
  (marksIn d a n).foldl (fun l e =>
    let s := e.1 / 32 * 32
    match l.find? fun q => q.1 == s with
    | none => l ++ [(s, e.2.lost)]
    | some _ => l.map fun q => if q.1 = s then (s, q.2 || e.2.lost) else q) []

/-- A read in cycle v uses the marks of one sector: an injection is consumed, and a corrected word keeps its mark until it is
written back. -/
def useSector (d : Dev) (s v : Nat) : Dev := (marksIn d s 32).foldl (fun d e => useMark d e.1 e.2 (some v)) d

/-- The reads of a list of marked sectors in order, in cycle v: corrections up to the first uncorrectable sector. Answers the
state, the corrected sectors, and whether an uncorrectable one was met. -/
def readSectors (v : Nat) (d : Dev) : List (Nat × Bool) → Dev × List Nat × Bool
  | [] => (d, [], false)
  | (s, bad) :: l =>
    let d := useSector d s v
    if bad then (storeUncorr d s, [], true)
    else
      let r := readSectors v (storeCorr d s) l
      (r.1, s :: r.2.1, r.2.2)

/-- The corrections of reads that meet marked sectors: each sector arrives 6 cycles late (R70) and is a SCRUB disturbance of the
partition. Answers the state, the late cycles and whether data is lost. -/
def scrubbed (p : Nat) (r : Dev × List Nat × Bool) : Dev × Nat × Bool :=
  let n := r.2.1.length
  match r.2.1.head? with
  | none => (r.1, 0, r.2.2)
  | some s => (disturb r.1 p causeScrub n (6 * n) (memUnit r.1 s), 6 * n, r.2.2)

/-- A read of store ranges in cycle v. -/
def scanStores (d : Dev) (p v : Nat) (rs : List (Nat × Nat)) : Dev × Nat × Bool :=
  let d := rs.foldl (fun d e => heal d e.1 e.2 v) d
  scrubbed p (readSectors v d (rs.flatMap fun e => markedSectors d e.1 e.2))

/-- The marked sectors that a write of n bytes at a in a comb store reads for its read-modify-write: those it covers in part, with
a mark on a word that it does not write (R90). -/
def partSectors (d : Dev) (a n : Nat) : List (Nat × Bool) :=
  match whereIs d a with
  | .comb _ =>
    ((markedSectors d (a / 32 * 32) (roundUp (a + n) 32 - a / 32 * 32)).filterMap fun s =>
      let left := (marksIn d s.1 32).filter fun e => decide (e.1 + 8 ≤ a) || decide (a + n ≤ e.1)
      if left.isEmpty then none else some (s.1, left.any fun e => e.2.lost))
  | _ => []

/-- A write into a store in cycle v: what it covers of a comb-store sector in part is read, corrected and written back whole; a lost
sector takes nothing (R90, R91). -/
def writeStore (d : Dev) (p v a : Nat) (bs : List Byte) : Dev :=
  let d := heal d (a / 32 * 32) (roundUp (a + bs.length) 32 - a / 32 * 32) v
  let r := scrubbed p (readSectors v d (partSectors d a bs.length))
  if r.2.2 then r.1
  else
    let d := writeBytes r.1 a bs
    match whereIs d a with
    | .comb k => combBusy d k v (v + ceilDiv bs.length 256)
    | _ => d

/-- A cell writes bytes into a store; lock-step notes them under the record's identity (R464). -/
def cellWrite (d : Dev) (c rid a : Nat) (bs : List Byte) : Dev :=
  keepOld (noteWrite (writeBytes d a bs) (cellPart d c) (pCell c) rid a bs.length) (cellPart d c) a (readBytes d a bs.length)

/-- What the partition's Forager entries write per cycle through a comb slot's external port in a cycle (R270). -/
def combWriteRate (d : Dev) (p slot v : Nat) : Nat :=
  let open_ := d.tier.runs.filter fun r => r.part == p && decide (r.start ≤ v) && decide (v < r.start + ceilDiv r.bytes (max 1 r.rate))
  (open_.flatMap FgrRun.takes).foldl (fun n t => if t.1 = 17 + 2 * slot then n + t.2 else n) 0

/-- The first cycle from `t` on, within 64, that the windows of a comb's write port leave free (R517). -/
def freePort (d : Dev) (p slot t : Nat) : Option Nat :=
  ((List.range 64).map (t + ·)).find? fun v => decide (combWriteRate d p slot v < 256)

/-- A 16-byte trace record of a partition, written circularly into the traced region in a free cycle of the comb's write port, or dropped
(R517) (log entry 65, DEDUCED). -/
def traceBytes (d : Dev) (p t : Nat) (bs : List Byte) : Dev :=
  let u := pPart p
  if !rdB d u Reg.CTL_TRACE_STATUS 2 then d
  else match (partCombs d p)[rdF d u Reg.CTL_TRACE_CTL 12 8]? with
    | none => d
    | some k =>
      let base := rdN d u Reg.CTL_TRACE_BASE
      let head := rdN d u Reg.CTL_TRACE_HEAD
      let size := rdN d u Reg.CTL_TRACE_BYTES
      match freePort d p (rdF d u Reg.CTL_TRACE_CTL 12 8) t with
      | none => bump d u Reg.CTL_EVT_TRACE_DROP 1
      | some v => wrN (writeStore d p v (combAddr k (base + head)) bs) u Reg.CTL_TRACE_HEAD (if size ≤ head + 16 then 0 else head + 16)

/-- The trace record of an issue (R517). -/
def traceRec (d : Dev) (a : RecAt) (h : RecHdr) (t : Nat) : Dev :=
  let p := cellPart d a.cell.val
  traceBytes d p t (leBytes 16 (t % 2 ^ 32 + h.recordId % 65536 * 2 ^ 32 + a.cell.val * 2 ^ 48 + a.stream.val * 2 ^ 56
    + frameNum d p * 2 ^ 64))

/-- A record issues: its stream moves on, and the cell counts it. -/
def markIssued (d : Dev) (a : RecAt) (h : RecHdr) (t : Nat) : Dev :=
  let c := a.cell.val
  let d := bump d (pCell c) Reg.CEL_RECORDS_ISSUED 1
  let d := modCell d c fun x => { x with lastIssue := t + 1 }
  traceRec (modStrm d c a.stream.val fun s => { s with state := .running, recs := s.recs + 1, since := none }) a h t

/-- A record fails a check when it issues: it takes its issue cycle and has no other effect (R102, R115). -/
def failRec (d : Dev) (a : RecAt) (h : RecHdr) (t : Nat) (e : RecErr) : Dev :=
  let c := a.cell.val
  let d := modCell (bump d (pCell c) Reg.CEL_RECORDS_ISSUED 1) c fun x => { x with lastIssue := t + 1 }
  let d := if e.code = 4 then checkFailed d (cellPart d c) e.handle e.write e.sub else d
  recordFail d c a.stream.val (nextRec (strmOf (cellOf d c) a.stream.val)) h.recordId e.code e.sub

/-! ## Records in flight -/

/-- Changes a record in flight. -/
def modFl (d : Dev) (c id : Nat) (g : InFl → InFl) : Dev :=
  modCell d c fun x => { x with inflight := x.inflight.map fun f => if f.id = id then g f else f }

/-- Takes a record out of flight. -/
def dropFl (d : Dev) (c id : Nat) : Dev := modCell d c fun x => { x with inflight := x.inflight.filter fun f => f.id != id }

/-- A record starts: it holds its resource for `occ` cycles and completes `dur` cycles after its start, both `late` cycles later;
`lost` leaves it without a completion. -/
def beginRec (d : Dev) (c : Nat) (f : InFl) (st occ dur late why : Nat) (lost : Bool) : Dev :=
  let end_ := st + occ + late
  let d := modFl d c f.id fun g => { g with
    started := true, start := st, occEnd := end_, due := st + dur + late - 1, late := late, why := if late = 0 then 0 else why
    waiting := lost }
  match f.body.res with
  | some r => modCell d c fun x => { x with resEnd := smPutD 0 x.resEnd (resNum r) end_ }
  | none => d

/-! ## Operand checks (R115) -/

/-- The end of the part of a cell store that operands may use (R99). -/
def opTop : Nat := 0x3E0000

/-- ALIGN, then RANGE, of regions of the cell store: base and bytes (Table 04-13). -/
def localErr (l : List (Nat × Nat)) : Option RecErr :=
  if l.any fun e => decide (e.1 % 32 ≠ 0) then some ⟨1, 0, 0, false⟩
  else if l.any fun e => decide (opTop < e.1 + e.2) then some ⟨2, 0, 0, false⟩
  else none

/-- A comb-store buffer operand: slot, offset, bytes. The buffer lies in the cell's own comb store (log entry 21, DEDUCED). -/
def bufErr (d : Dev) (c slot off n : Nat) (write : Bool) : Option RecErr :=
  let h := smGetD 0 (cellOf d c).slots slot
  if off % 32 ≠ 0 then some ⟨1, 0, 0, false⟩
  else if h = 0 then some ⟨3, 0, 0, false⟩
  else
    let code := handleCode d (cellPart d c) h off write
    if code ≠ 0 then some ⟨4, code, h, write⟩
    else if 3 ≤ hPool h ∨ poolSub (hPool h) (hIndex h) ≠ c / 8 ∨ poolBytes (hPool h) < off + n then some ⟨2, 0, 0, false⟩
    else none

/-- Device offset of a comb-store buffer operand that passed its checks. -/
def slotAddr (d : Dev) (c slot off : Nat) : Nat := bufAddr d.vat (smGetD 0 (cellOf d c).slots slot) + off

/-- The first of several checks. Table 04-13 does not say which gives the code when several fail: the callers put ALIGN and RANGE of
local regions first, then a buffer's ALIGN, SLOT_UNBOUND, HANDLE_CHECK and RANGE, and FORMAT last (log entry 141, DESIGN CHOICE). -/
def firstErr (l : List (Option RecErr)) : Option RecErr := l.findSome? id

/-- Bytes that a staged operation writes. -/
def StagedOp.bytes (o : StagedOp) : Nat :=
  match o.what with
  | .store b => b.length
  | .atomic _ w _ _ => if w then 8 else 4
  | .unit _ _ b => b.length

/-- Is the abort marker of a source for a frame held? -/
def abortHeld (d : Dev) (p : Nat) (src : Peer) (frame : Nat) : Bool :=
  d.rmt.held.any fun m => m.part == p && decide (m.peer = src) && m.frame == frame && !m.commit

/-- Staged data of a range that a read waits for: its source (R30). It should have been published by now, or its source has killed
the frame whose data the read is placed for, so that data of a later frame takes its place (Table 01-4)
(log entry 103, DEDUCED). -/
def unpublished (d : Dev) (p a n : Nat) : Option Peer :=
  let now := frameNum d p
  (d.rmt.staging.find? fun o =>
    o.part == p && decide (o.addr < a + n) && decide (a < o.addr + o.bytes)
      && (decide (2 ≤ serialDiff now o.frame) || abortHeld d p o.src ((now + 65534) % 65536))).map StagedOp.src

/-! ## XFER: LOAD, STORE, FILL -/

/-- A LOAD starts (R105): comb-store buffer to cell store. A read of staged data that is not yet published waits for it (R30). -/
def startLoad (d : Dev) (c : Nat) (f : InFl) (x : XferOps) (st : Nat) : Dev :=
  let n := 32 * x.length
  let p := cellPart d c
  let occ := ceilDiv x.length 2
  match unpublished d p f.addr n with
  | some peer => modFl (beginRec (disturb d p causeRemote 1 0 peer.node) c f st occ (16 + occ) 0 0 true) c f.id fun g =>
      { g with stall := some peer.node }
  | none =>
    let r := scanStores d p st [(f.addr, n)]
    let d := if r.2.2 then r.1 else cellWrite r.1 c f.recId (cellAddr c x.cellBase) (readBytes r.1 f.addr n)
    beginRec (cellBusy d c st (st + occ + r.2.1)) c f st occ (16 + occ) r.2.1 causeScrub r.2.2

/-- A STORE starts: cell store to comb-store buffer. -/
def startStore (d : Dev) (c : Nat) (f : InFl) (x : XferOps) (st : Nat) : Dev :=
  let n := 32 * x.length
  let occ := ceilDiv x.length 2
  let r := scanStores d (cellPart d c) st [(cellAddr c x.cellBase, n)]
  let d := if r.2.2 then r.1 else cellWrite r.1 c f.recId f.addr (readBytes r.1 (cellAddr c x.cellBase) n)
  beginRec (combBusy d (c / 8) st (st + occ + r.2.1)) c f st occ (16 + occ) r.2.1 causeScrub r.2.2

/-- A byte pattern repeated. -/
def repeatBytes (l : List Byte) : Nat → List Byte
  | 0 => []
  | n + 1 => l ++ repeatBytes l n

/-- A FILL starts: a 64-bit pattern over a range (R107). -/
def startFill (d : Dev) (c : Nat) (f : InFl) (x : FillOps) (st : Nat) : Dev :=
  let occ := ceilDiv x.length 2
  let d := cellWrite d c f.recId (cellAddr c x.cellBase) (repeatBytes (leBytes 8 x.pattern.toNat) (4 * x.length))
  beginRec (cellBusy d c st (st + occ)) c f st occ (4 + occ) 0 0 false

/-! ## VEC (R108, R109, R136) -/

/-- Sources of an operation. -/
def Vop.sources : Vop → Nat
  | .fma => 3
  | .add | .sub | .mul | .max | .min => 2
  | _ => 1

/-- Does an operation write one element only? -/
def Vop.reduces : Vop → Bool
  | .sum | .amax => true
  | _ => false

/-- Elements per cycle. -/
def Vop.rate : Vop → Nat
  | .exp | .recip | .rsqrt => 64
  | _ => 256

/-- V of R109. -/
def vecCycles (op : Vop) (e n : Nat) : Nat :=
  let out := if op.reduces then 1 else n
  max (max (ceilDiv (n * e * op.sources) 128) (ceilDiv (out * e) 128)) (ceilDiv n op.rate)

/-- The format of a VECTOR record. -/
def vecFmt (isBf : Bool) : Fmt := if isBf then bf16 else fp32

/-- One elementwise result (R136). -/
def vecElem (op : Vop) (f : Fmt) (x y z : Num) (scalar : W32) : Nat :=
  match op with
  | .copy => roundFloat f x
  | .add => roundFloat f (addNum x y)
  | .sub => roundFloat f (addNum x (negNum y))
  | .mul => roundFloat f (mulNum x y)
  | .fma => roundFloat f (addNum (mulNum x y) z)
  | .max => roundFloat f (maxNum x y)
  | .min => roundFloat f (minNum x y)
  | .scale => roundFloat f (mulNum x (decodeNum fp32 scalar.toNat))
  | .exp => expBitsOf f x
  | .recip => recipBits f x
  | .rsqrt => rsqrtBits f x
  | .sum => roundFloat f x
  | .amax => roundFloat f (x.withSign false)

/-- Combines two partial results of SUM or AMAX, rounded to the format (R108, R136). -/
def vecCombine (op : Vop) (f : Fmt) (x y : Num) : Num :=
  decodeNum f (roundFloat f (if op = .sum then addNum x y else maxNum (x.withSign false) (y.withSign false)))

/-- One lane: elements l, l + 256, ... in ascending order; none for a lane without elements. -/
def laneResult (op : Vop) (f : Fmt) (l : List Num) : Option Num :=
  match l with
  | [] => none
  | x :: xs => some (xs.foldl (vecCombine op f) (if op = .amax then x.withSign false else x))

/-- One level of the pairwise tree. -/
def pairUp (op : Vop) (f : Fmt) : List (Option Num) → List (Option Num)
  | a :: b :: l =>
    (match a, b with
      | some x, some y => some (vecCombine op f x y)
      | some x, none => some x
      | none, y => y) :: pairUp op f l
  | l => l

/-- `n` levels of the tree. -/
def treeUp (op : Vop) (f : Fmt) : Nat → List (Option Num) → List (Option Num)
  | 0, l => l
  | n + 1, l => treeUp op f n (pairUp op f l)

/-- SUM or AMAX of a list: 256 lanes, then a tree of 8 levels (R108). -/
def vecReduce (op : Vop) (f : Fmt) (xs : List Num) : Nat :=
  let lanes := (List.range (min 256 xs.length)).map fun l =>
    laneResult op f ((List.range (ceilDiv (xs.length - l) 256)).map fun q => xs.getD (l + 256 * q) .zero)
  match (treeUp op f 8 (lanes ++ List.replicate (256 - lanes.length) none)).head? with
  | some (some y) => roundFloat f y
  | _ => 0

/-- The result bytes of a VECTOR record. -/
def vecResult (d : Dev) (c : Nat) (op : Vop) (x : VecOps) : List Byte :=
  let f := vecFmt x.bf16
  let e := f.width / 8
  let at_ := fun base i => decodeNum f (readLe d (cellAddr c (base + e * i)) e)
  if op.reduces then leBytes e (vecReduce op f ((List.range x.n).map (at_ x.src0)))
  else (List.range x.n).flatMap fun i =>
    leBytes e (vecElem op f (at_ x.src0 i) (if 2 ≤ op.sources then at_ x.src1 i else .zero)
      (if 3 ≤ op.sources then at_ x.src2 i else .zero) x.scalar)

/-- The source regions of a VECTOR record: base and bytes. -/
def vecSources (op : Vop) (x : VecOps) : List (Nat × Nat) :=
  let e := if x.bf16 then 2 else 4
  (List.range op.sources).map fun i => (if i = 0 then x.src0 else if i = 1 then x.src1 else x.src2, x.n * e)

/-- The result region of a VECTOR record. -/
def vecTarget (op : Vop) (x : VecOps) : Nat × Nat :=
  let e := if x.bf16 then 2 else 4
  (x.dst, if op.reduces then e else x.n * e)

/-- A VECTOR record starts: result, time V + 20, with the cycles that the power cap withholds (R108, R109, R500). -/
def startVector (d : Dev) (c : Nat) (f : InFl) (op : Vop) (x : VecOps) (st : Nat) : Dev :=
  let p := cellPart d c
  let r := scanStores d p st ((vecSources op x).map fun s => (cellAddr c s.1, s.2))
  let d := if r.2.2 then r.1 else cellWrite r.1 c f.recId (cellAddr c x.dst) (vecResult r.1 c op x)
  let v := vecCycles op (if x.bf16 then 2 else 4) x.n
  let held := activeEnd (dutyEff d p) st v - (st + v - 1)
  let d := if held = 0 then d else disturb d p causePower held held (physCombOf d (c / 8))
  let late := held + r.2.1
  beginRec (cellBusy d c st (st + v + late)) c f st v (20 + v) late (if held = 0 then causeScrub else causePower) r.2.2

/-! ## NET: SEND and remote operations (R105, R106, R110) -/

/-- The cell that a SEND names, by its slot. -/
def sendTarget (d : Dev) (c : Nat) (x : SendOps) : Nat := (partCells d (cellPart d c)).getD x.target 0

/-- S_base of Table 04-4. -/
def sendBase (d : Dev) (c tgt : Nat) : Nat :=
  if tgt / 8 = c / 8 then 32 else if dieOfComb d.fuses (tgt / 8) = dieOfComb d.fuses (c / 8) then 80 else 240

/-- A SEND starts: its data is read and leaves for the target cell; SEND_ARRIVAL writes it there (R105, R113). -/
def startSend (d : Dev) (c : Nat) (f : InFl) (x : SendOps) (st : Nat) : Dev :=
  let n := 32 * x.length
  let occ := ceilDiv x.length 2
  let r := scanStores d (cellPart d c) st [(cellAddr c x.src, n)]
  let d := beginRec r.1 c f st occ (sendBase d c (sendTarget d c x) + occ) r.2.1 causeScrub true
  if r.2.2 then d else modFl d c f.id fun g => { g with data := readBytes d (cellAddr c x.src) n }

/-- The image, context and image slice that run in a partition. -/
def runImage (d : Dev) (p : Nat) : Option (Nat × Nat × Image × Nat) :=
  (running d p).bind fun r => (ctxOf d r.1).image.bind fun i =>
    (imageSlice r.2 i.slices i.loop i.loopStart).map fun sl => (r.1, r.2, i, sl)

/-- The target partition of a node in the slice's commit map (R340). -/
def commitPart (d : Dev) (p node : Nat) : Nat :=
  match runImage d p with
  | none => 0
  | some (_, _, i, sl) =>
    ((i.commitMap.find? fun e => e.slice == sl && !e.source && e.peer.node == node).map fun e => e.peer.part.val).getD 0

/-- Class and bundle lane of a cell record's packet: scheduled while a slot entry's window is open and has room (R310,
R311); counts what the entry sends. -/
def schedClass (d : Dev) (p c stream node cycle bytes : Nat) : Dev × Nat × Nat :=
  match runImage d p with
  | none => (d, 1, 0)
  | some (_, _, i, sl) =>
    let slot := (partCells d p).idxOf c
    let used := (partOf d p).schedUsed
    match i.sched.zipIdx.find? fun e =>
        let u := smGetD (0, 0) used e.2
        e.1.slice == sl && e.1.peer.node == node && e.1.cellSlot == slot && bitAt e.1.streams stream
        && decide (e.1.start ≤ cycle) && decide (cycle < e.1.start + e.1.window)
        && decide (u.1 < e.1.maxPkts) && decide (u.2 + bytes ≤ e.1.maxBytes) with
    | none => (d, 1, 0)
    | some e =>
      (modPart d p fun t => { t with schedUsed := smModD (0, 0) t.schedUsed e.2 fun u => (u.1 + 1, u.2 + bytes) }, 0, e.1.lane)

/-- The packet types of remote operations (Table 12-3): 1 RLOAD, 2 RSTORE, 3 RATOMIC, 4 RTRIG. The request of an RLOAD
carries its sector count, of an RATOMIC its operation, width and operands, of an RTRIG its trigger and argument
(log entry 22, DEDUCED). Each packet of an RSTORE carries the offset of its bytes. -/
def sendRemote (d : Dev) (c stream opId type node off cycle : Nat) (payload : List Byte) : Dev :=
  let p := cellPart d c
  let f := frameNum d p
  let dp := commitPart d p node
  let parts := if type = 2 then splitPayload payload else [(0, payload)]
  parts.foldl (fun d e =>
    let s := schedClass d p c stream node cycle e.2.length
    sendPkt s.1 (mkPkt s.1 s.2.1 type false (mkPlace (myPod d) node (pPart dp)) (pCell c) dp p f (off + e.1)
      (c + 256 * opId) s.2.2 e.2)) d

/-- The lowest outstanding-operation number not in use. -/
def freeOp (x : CellSt) : Nat :=
  ((List.range 16).find? fun i => !(x.remotes.any fun r => r.opId == i)).getD 0

/-- A remote operation on its way: packet type, node, offset, occupancy, cycles beyond T(h), the local region that takes the
answer, what it reads, and its payload. -/
structure RemGo where
  type      : Nat
  node      : Nat
  off       : Nat
  occ       : Nat
  extra     : Nat
  localBase : Nat
  bytes     : Nat
  reads     : List (Nat × Nat)
  payload   : List Byte
  deriving DecidableEq, Repr

/-- The remote operation of a command of a cell (Tables 04-4, 04-10). -/
def remGo (d : Dev) (c : Nat) : RecBody → Option RemGo
  | .rload x => some ⟨1, x.node, x.remoteOffset, 1, ceilDiv x.length 2, x.localBase, 32 * x.length, [], leBytes 2 x.length⟩
  | .rstore x =>
    let src := cellAddr c x.localBase
    some ⟨2, x.node, x.remoteOffset, ceilDiv x.length 2, ceilDiv x.length 2, x.localBase, 32 * x.length,
      [(src, 32 * x.length)], readBytes d src (32 * x.length)⟩
  | .ratomic op x => some ⟨3, x.node, x.remoteOffset, 1, 1, x.result, 32, [],
      [BitVec.ofNat 8 (aopCode op), BitVec.ofNat 8 (b2n x.wide)] ++ leBytes 8 x.operand.toNat ++ leBytes 8 x.compare.toNat⟩
  | .rtrig x => some ⟨4, x.node, 0, 1, 1, 0, 32, [],
      leBytes 2 x.trigId ++ leBytes 1 x.targetCell.val ++ sliceBytes x.arg 0 32⟩
  | _ => none

/-- A remote operation starts: its packets leave, and it is outstanding until the reply (R106, R110). A destination that names no
device is an address refusal (R305). -/
def startRemote (d : Dev) (c : Nat) (f : InFl) (g : RemGo) (st : Nat) : Dev :=
  if !nodeNames d g.node then recordFail (hdrDrop (dropFl d c f.id)) c f.stream.val f.recIdx f.recId 6 6
  else
    let p := cellPart d c
    let r := scanStores d p st g.reads
    let op := freeOp (cellOf r.1 c)
    let dur := remoteT d (hops d (myNode d) g.node) + g.extra
    let d := beginRec r.1 c f st g.occ dur r.2.1 causeScrub true
    if r.2.2 then d
    else
      let d := modCell d c fun x => { x with remotes := x.remotes ++
        [⟨f.id, op, g.type - 1, g.node, frameNum d p, g.localBase, g.bytes, 0, st + dur + r.2.1 - 1⟩] }
      sendRemote d c f.stream.val op g.type g.node g.off st g.payload

/-! ## VATQ: ALLOC (R117) -/

/-- The comb or CXL port of an ALLOC of a cell. -/
def allocSub (c : Nat) (img : Option Image) (tier : Nat) : Nat :=
  match tier with
  | 0 => c / 8
  | 2 => (img.map Image.portC).getD 0
  | 3 => (img.map Image.portF).getD 0
  | _ => 0

/-- An ALLOC is served in a cycle: it starts there and completes 48 cycles later (R105). -/
def allocServed (d : Dev) (c id slot h object st : Nat) : Dev :=
  match (cellOf d c).inflight.find? fun f => f.id == id with
  | none => d
  | some f => modFl (beginRec d c f st 1 48 0 0 false) c id fun g => { g with alloc := some (slot, h, object), asked := false }

/-- A buffer list entry that waited is served, or an ALLOC that waited starts in this cycle (R285, R297). -/
def serveWait (d : Dev) (r : VatReq) (h cycle : Nat) : Dev :=
  let d := vatStalled d r cycle
  match r.by_ with
  | .cell c slot id => allocServed d c id slot h r.object cycle
  | .list p pos =>
    modPart d p fun t => { t with
      listGot := smPut t.listGot pos (h, cycle + 47)
      named := if r.object < 2 ^ 24 - 1 then t.named ++ [(r.object, h)] else t.named }

/-- A cycle of a partition's frame as a moment of the device: thousandths of a cycle from hall time 0. -/
def momentOf (d : Dev) (p cycle : Nat) : Nat := rdN d (pPart p) Reg.CTL_TICK_TIME * clockNow d + 1000 * cycle

/-- The cycle of a partition's frame that a moment lies in. -/
def cycleAt (d : Dev) (p m : Nat) : Nat := (m - rdN d (pPart p) Reg.CTL_TICK_TIME * clockNow d) / 1000

/-- The place of a partition's buffer list in the order of R285, after the cells: the lowest Swarm instance that it reserves, or
firmware (R197). -/
def listPlace (d : Dev) (p : Nat) : Nat := 256 + (([0, 1].find? fun i => decide (ownerOf d (pSwm i) = some p)).getD 4)

/-- The place of a waiting request in the order of R285. -/
def reqPlace (d : Dev) (r : VatReq) : Nat :=
  match r.by_ with
  | .cell c _ _ => c
  | .list p _ => listPlace d p

/-- A request meets an empty pool or a spent quota: each is counted once (R297). -/
def metReq (d : Dev) (r : VatReq) (a : VatAns) : Dev × VatReq :=
  match a with
  | .empty => (if r.met.1 then d else vatShort d r.tier a, { r with met := (true, r.met.2) })
  | .quota => (if r.met.2 then d else vatShort d r.tier a, { r with met := (r.met.1, true) })
  | .issued _ => (d, r)

/-- Presents waiting requests in order at a moment; those that fit are served (R285, R297). -/
def presentAll (m : Nat) : List VatReq → Dev → Dev
  | [], d => d
  | r :: l, d =>
    let a := vatServe d r.part r.ctx r.tier r.cls r.sub r.mode2 .frame
    match a.2 with
    | .issued h => presentAll m l (serveWait a.1 r h (cycleAt d r.part m))
    | why =>
      let q := metReq a.1 r why
      presentAll m l { q.1 with vat := { q.1.vat with waiting := q.1.vat.waiting ++ [q.2] } }

/-- A Vat instance presents its waiting requests again, in the order of R285 (log entry 109, DEDUCED). -/
def serveWaiting (d : Dev) (i m : Nat) : Dev :=
  let mine := d.vat.waiting.filter fun r => tierInst r.tier == i
  let rest := d.vat.waiting.filter fun r => tierInst r.tier != i
  if mine.isEmpty then d
  else vatSync (presentAll m (sortBy (fun a b => decide (reqPlace d a < reqPlace d b)) mine)
    { d with vat := { d.vat with waiting := rest } })

/-- A request that newly reaches its Vat instance at a moment, after those that wait (R285): the answer. -/
def vatAsk (d : Dev) (r : VatReq) (m : Nat) : Dev × VatAns :=
  vatServe (serveWaiting d (tierInst r.tier) m) r.part r.ctx r.tier r.cls r.sub r.mode2 .frame

/-- The requests of buffer lists that are due before a moment, in the order of R285: moment, place, partition, entry (R197). -/
def listsDue (d : Dev) (m : Nat) : List (Nat × Nat × Nat × Nat) :=
  sortBy (fun a b => decide (a.1 < b.1) || (a.1 == b.1 && decide (a.2.1 < b.2.1)))
    ((List.range 16).flatMap fun p => ((partOf d p).listTodo.filter fun e => decide (momentOf d p e.1 < m)).map fun e =>
      (momentOf d p e.1, listPlace d p, p, e.2))

/-- One request of a buffer list (R197). -/
def listRequest (d : Dev) (e : Nat × Nat × Nat × Nat) : Dev :=
  let p := e.2.2.1
  let pos := e.2.2.2
  let d := modPart d p fun t => { t with listTodo := t.listTodo.filter fun q => q.2 != pos }
  match runImage d p with
  | none => d
  | some (c, _, img, _) => match img.bufList[pos]? with
    | none => d
    | some b =>
      let sub := match b.tier with
        | 0 => (partCombs d p).getD b.comb 0
        | 2 => img.portC
        | 3 => img.portF
        | _ => 0
      let r : VatReq := ⟨.list p pos, p, c, b.tier, b.cls, sub, if b.mode = 1 then b.object else 2 ^ 24 - 1, false,
        cycleAt d p e.1, (false, false)⟩
      let a := vatAsk d r e.1
      match a.2 with
      | .issued h => serveWait a.1 r h (cycleAt d p e.1)
      | why => vatWait a.1 r why

/-- The buffer lists make the requests that are due before a moment. -/
def listsTo (d : Dev) (m : Nat) : Dev := (listsDue d m).foldl listRequest d

/-- The buffer lists make the requests that are due by a cycle of a partition's frame. -/
def listsBy (d : Dev) (p cycle : Nat) : Dev := listsTo d (momentOf d p (cycle + 1))

/-- An ALLOC reaches the head of VATQ: after the requests of earlier cycles and those that wait, it is served, or it holds VATQ and
waits (R117, R285, R297). -/
def startAlloc (d : Dev) (c : Nat) (f : InFl) (x : AllocOps) (st : Nat) : Dev :=
  let p := cellPart d c
  let ctx := ((running d p).map Prod.fst).getD 0
  let m := momentOf d p st
  let r : VatReq := ⟨.cell c x.slot.val f.id, p, ctx, x.tier.val, x.cls, allocSub c (ctxOf d ctx).image x.tier.val, x.object, false,
    st, (false, false)⟩
  let a := vatAsk (listsTo d m) r m
  match a.2 with
  | .issued h => allocServed a.1 c f.id x.slot.val h x.object st
  | why => vatWait (modFl a.1 c f.id fun g => { g with asked := true }) r why

end Sys2Proof.Machine
end

