-- ==== Sys2Proof/Machine/Host.lean ====
section
/-! DEFINITION. Completions to the host (15 R386, R387; 16 R410, R411), and halts of a partition that the host is told of
(01 R34, 04 R115, 10 R248, 11 R298, 13 R349). -/

namespace Sys2Proof.Machine

/-- A Hexvan port with no traffic. -/
def HxvPort.init : HxvPort := ⟨[], [], [], [], [], 0, [], 0, [], [], 0, 0, false, 0, [], []⟩

/-- A Hexvan port. -/
def hxvOf (d : Dev) (i : Nat) : HxvPort := smGetD HxvPort.init d.host.ports i

/-- Changes a Hexvan port. -/
def modHxv (d : Dev) (i : Nat) (g : HxvPort → HxvPort) : Dev :=
  { d with host := { d.host with ports := smModD HxvPort.init d.host.ports i g } }

/-- STATE of a Hexvan port (Table 16-8). -/
def hxvState (d : Dev) (i : Nat) : Nat := rdF d (pHxv i) Reg.HXV_STATUS 2 0

/-- Is a Hexvan port UP or DEGRADED? -/
def hxvUp (d : Dev) (i : Nat) : Bool := hxvState d i == 3 || hxvState d i == 4

/-- Is a packet selected for injection (R333)? -/
def injSelected (mode rateExp mask seed n cls : Nat) : Bool :=
  mode != 0 && bitAt mask cls && decide ((mix64 (BitVec.ofNat 64 (seed * 2 ^ 32 + n))).toNat % 2 ^ 32 < 2 ^ (32 - rateExp))

/-- A packet to the host (Table 16-3). -/
def hxvPkt (cls : Nat) (last : Bool) (reqId addr status count aux : Nat) (payload : List Byte) : HxvPkt :=
  ⟨cls, last, reqId, addr, status, count, aux, payload⟩

/-- Credits of a class that the port holds. -/
def hxvCredits (d : Dev) (i cls : Nat) : Nat := smGetD 0 (hxvOf d i).credits cls

/-- A packet leaves on a Hexvan port against a credit of its class: counts, the retry buffer of 256, and damage on purpose
(R403, R407, R417). -/
def hxvEmit (d : Dev) (i : Nat) (p : HxvPkt) : Dev :=
  let u := pHxv i
  let q := hxvOf d i
  let c := rd d u Reg.HXV_INJECT
  let mode := fld c 1 0
  let sel := injSelected mode (fld c 12 8) (rdF d u Reg.HXV_INJECT_CLASS 11 0) (rdN d u Reg.HXV_INJECT_SEED) q.injIndex p.cls
  let r := q.retry ++ [(q.nextSeq, p)]
  let d := modHxv d i fun q => { q with
    credits := smModD 0 q.credits p.cls (· - 1)
    retry := r.drop (r.length - 256)
    wire := q.wire ++ [p]
    nextSeq := (q.nextSeq + 1) % 65536
    injIndex := q.injIndex + b2n (mode != 0) }
  let d := bump d u Reg.HXV_TX_BYTES (32 + p.payload.length)
  if !sel then d
  else
    let d := event d u Reg.HXV_EVENTS 7 Reg.HXV_EVT_INJECTED
    if mode = 1 ∨ (mode = 2 ∧ 15 < fld c 20 16) then event d u Reg.HXV_EVENTS 0 Reg.HXV_EVT_RETRY else d

/-- Sends what waits, in order within each class, while the port is up and credits last. -/
def hxvDrain (i : Nat) : List HxvPkt → List Nat → Dev → Dev
  | [], _, d => d
  | p :: l, blocked, d =>
    if hxvUp d i && !blocked.contains p.cls && decide (0 < hxvCredits d i p.cls) then hxvDrain i l blocked (hxvEmit d i p)
    else hxvDrain i l (p.cls :: blocked) (modHxv d i fun q => { q with out := q.out ++ [p] })

/-- Sends the waiting packets of a port as far as credits allow. -/
def hxvPump (d : Dev) (i : Nat) : Dev :=
  hxvDrain i (hxvOf d i).out [] (modHxv d i fun q => { q with out := [] })

/-- A packet is sent to the host: it waits for the link and a credit of its class. -/
def hxvSend (d : Dev) (i : Nat) (p : HxvPkt) : Dev := hxvPump (modHxv d i fun q => { q with out := q.out ++ [p] }) i

/-- A port starts to train: it leaves service, and injection ends (R404, R417). -/
def hxvRetrain (d : Dev) (i : Nat) : Dev :=
  let u := pHxv i
  let d := wrF (wrN (event d u Reg.HXV_EVENTS 1 Reg.HXV_EVT_RETRAIN) u Reg.HXV_STATUS 1) u Reg.HXV_INJECT 1 0 0
  modHxv d i fun q => { q with retries := [], symbols := [], symStart := d.hall, credits := [] }

/-- A port becomes DOWN; the health agent retries it every second (R404). -/
def hxvDown (d : Dev) (i : Nat) : Dev :=
  let u := pHxv i
  modHxv (wrN (event d u Reg.HXV_EVENTS 3 Reg.HXV_EVT_DOWN) u Reg.HXV_STATUS 0) i fun q => { q with timer := true, credits := [] }

/-- A Forager instance asks the host for a replica's chunk, on its own port or the other one (R414). -/
def hostFetch (d : Dev) (inst chunk key off : Nat) : Dev :=
  let i := if hxvUp d inst then inst else 1 - inst
  let r := (hxvOf d i).nextReq
  let d := modHxv d i fun q => { q with nextReq := (r + 1) % 2 ^ 32, fetches := q.fetches ++ [⟨r, inst, chunk, [], d.hall⟩] }
  hxvSend d i (hxvPkt 8 false r key 0 0 off [])

/-- The Hexvan port for completions of a context: the one that opened it, or the other one when that is down and the context
port map grants it (R410). -/
def cplPort (d : Dev) (ctx : Nat) : Nat :=
  let home := (ctxOf d ctx).port
  if !hxvUp d home && smGetD false d.host.both ctx then 1 - home else home

/-- Queues a completion at a port; one that finds 4,096 waiting is lost (R411). -/
def pushCpl (d : Dev) (port : Nat) (c : Cpl) : Dev :=
  let u := pHxv port
  let n := (hxvOf d port).queue.length
  if 4096 ≤ n then bump (event d u Reg.HXV_EVENTS 6 Reg.HXV_EVT_CPL_OVERFLOW) u Reg.HXV_CPL_LOST 1
  else wrN (modHxv d port fun q => { q with queue := q.queue ++ [c] }) u Reg.HXV_CPL_QUEUE (n + 1)

/-- RESULT, padded to 16 bytes. -/
def result16 (l : List Byte) : List Byte := sliceBytes l 0 16

/-- A completion of a context (R386). -/
def ctxCpl (d : Dev) (ctx opcode status : Nat) (tag : W32) (res : List Byte) : Dev :=
  let x := ctxOf d ctx
  let d := modCtx d ctx fun x => { x with seq := x.seq + 1 }
  pushCpl d (cplPort d ctx)
    ⟨opcode, status, ctx, tag, if x.state = .free then 0 else frameNum d x.part, false, x.seq + 1, result16 res, d.hall⟩

/-- A completion of a device-wide command: context 256, no partition and so FRAME 0 (log entry 24, DEDUCED). -/
def devCpl (d : Dev) (port opcode status : Nat) (tag : W32) (res : List Byte) : Dev :=
  let n := d.host.seq + 1
  pushCpl { d with host := { d.host with seq := n } } port ⟨opcode, status, 256, tag, 0, false, n, result16 res, d.hall⟩

/-- An event completion of a context with a cause of Table 15-7. -/
def eventCpl (d : Dev) (ctx cause : Nat) (res : List Byte) : Dev := ctxCpl d ctx 0x80 cause 0 res

/-- The context that ran the frame that is ending, or the last one that ran. -/
def frameCtx (d : Dev) (p : Nat) : Option Nat :=
  match running d p with
  | some r => some r.1
  | none => (partOf d p).lastCtx

/-- Halts a partition and reports its context as failed (R34, R115, R248, R298) (log entry 96, DEDUCED). -/
def haltWith (d : Dev) (p cause : Nat) (res : List Byte) : Dev :=
  let c := frameCtx d p
  let d := haltPart d p
  match c with
  | some c => eventCpl d c cause res
  | none => d

end Sys2Proof.Machine
end

