-- ==== Sys2Proof/Machine/Engine.lean ====
section
/-! DEFINITION. The array and the drains: start, issue and finish times with elastic lags (03 R75 to R87, 20 R500), and what PASS,
PASS_SPLIT and DRAIN do when they start; which record of a cell starts next (04 R104), and the broadcasts of a comb (03 R89). -/

namespace Sys2Proof.Machine

/-! ## Pass timing (Table 03-3) -/

/-- I(k): issue cycles. -/
def passCycles (split : Bool) (w k : Nat) : Nat :=
  if split then (if w = 4 then 5 * k / 4 else if w = 8 then 5 * k / 2 else 5 * k)
  else (if w = 4 then k / 2 else if w = 8 then k else 4 * k)

/-- L: latency. -/
def passLatency (split : Bool) : Nat := if split then 160 else 256

/-- The largest lane lag without what is common to all lanes. -/
def maxLane (m : SMap Nat) : Nat := m.foldl (fun n e => max n e.2) 0

/-- The smallest lane lag. -/
def minLane (m : SMap Nat) : Nat := (List.range 256).foldl (fun n l => min n (smGetD 0 m l)) (maxLane m)

/-- The largest lag (R80, R82). -/
def maxLag (x : CellSt) : Nat := maxLane x.lags + x.common

/-- Is the array idle in a cycle: is no pass issuing or in its latency? Lags return to 0 only then (R82) (log entry 104,
DEDUCED). -/
def arrayIdle (x : CellSt) (r : Nat) : Bool := decide (x.passEnd = 0) || decide (x.passEnd + x.passLat + maxLag x ≤ r)

/-- The first cycle in which the array can take a pass of a mode: after the previous pass's last issue, and in the other mode after
its latency too (R77). -/
def arrayFree (x : CellSt) (split : Bool) : Nat :=
  if x.passEnd = 0 then 0 else x.passEnd + maxLag x + (if x.passSplit = split then 0 else x.passLat)

/-- The cycle in which a pass of a bank that issued in cycle t begins issue, without the broadcast condition (R77). -/
def passStart (x : CellSt) (split : Bool) (bank t : Nat) : Nat :=
  max t (max (arrayFree x split) (if bank = 0 then x.drained0 else x.drained1))

/-- t0 of a pass that begins in cycle r, from which its lags count: a pass that finds the array at work trails its t0 by the lags it
takes up (R82) (log entry 104, DEDUCED). -/
def passT0 (x : CellSt) (r : Nat) : Nat := if arrayIdle x r then r else r - maxLag x

/-- Lags at the start of a pass in cycle r. -/
def openChain (x : CellSt) (r : Nat) : CellSt :=
  if arrayIdle x r then { x with lags := [], common := 0, paidLane := 0, paidCom := 0 } else x

/-! ## Corrections and lags (R80, R81) -/

/-- A marked sector that a pass reads: its place in the order of reading, the lanes it feeds (A 0 to 127, B 128 to 255),
and whether it is uncorrectable. -/
structure Corr where
  key    : Nat
  lanes  : List Nat
  sector : Nat
  bad    : Bool
  deriving DecidableEq, Repr

/-- Inserts by key, after equal keys. -/
def corrInsert (x : Corr) : List Corr → List Corr
  | [] => [x]
  | y :: l => if x.key < y.key then x :: y :: l else y :: corrInsert x l

/-- Sorts by key; equal keys keep their order. -/
def corrSort (l : List Corr) : List Corr := l.foldl (fun acc x => corrInsert x acc) []

/-- Lanes `lo` to `lo + n − 1`. -/
def laneRun (lo n : Nat) : List Nat := (List.range n).map (lo + ·)

/-- Every lane. -/
def allLanes : List Nat := List.range 256

/-- Marked sectors of an operand whose steps are `step` bytes of `w`-bit elements and whose lanes begin at `lane0`; sectors
that feed only rows at or above `live` are not read (R80, R85, R86). -/
def operandCorrs (d : Dev) (a step steps w lane0 live : Nat) : List Corr :=
  (markedSectors d a (step * steps)).filterMap fun s =>
    let off := s.1 - a
    let lane := off % step * 8 / w
    if live ≤ lane then none
    else some ⟨off / step, laneRun (lane0 + lane) (min (256 / w) (step * 8 / w)), s.1, s.2⟩

/-- Marked sectors of a scale array of `lanes` lanes: the header feeds every lane of its side, a sector of scales 16. -/
def scaleCorrs (d : Dev) (a lanes g groups lane0 : Nat) : List Corr :=
  if g = 0 then []
  else (markedSectors d a (32 + 2 * lanes * groups)).map fun s =>
    let off := s.1 - a
    if off < 32 then ⟨0, laneRun lane0 lanes, s.1, s.2⟩
    else ⟨(off - 32) / (2 * lanes) * g, laneRun (lane0 + (off - 32) % (2 * lanes) / 2) (min 16 lanes), s.1, s.2⟩

/-- Marked sectors of a control word or table read at t0: it delays the lanes it governs (log entry 23, DEDUCED). -/
def wordCorrs (d : Dev) (a n key : Nat) (lanes : List Nat) : List Corr :=
  (markedSectors d a n).map fun s => ⟨key, lanes, s.1, s.2⟩

/-- Adds 6 cycles to lanes; when the skew passes 16 the lanes with the smallest lag hold (R81). -/
def addLag (m : SMap Nat) (lanes : List Nat) : SMap Nat × Bool :=
  let m := lanes.foldl (fun m l => smModD 0 m l (· + 6)) m
  let top := maxLane m
  if minLane m + 16 < top then
    ((List.range 256).foldl (fun m l => if smGetD 0 m l + 16 < top then smPutD 0 m l (top - 16) else m) m, true)
  else (m, false)

/-- One increase of lag by a correction: FEED_LATE, and SKEW_LIMIT for a hold. -/
def lagUp (d : Dev) (c : Nat) (lanes : List Nat) : Dev :=
  let r := addLag (cellOf d c).lags lanes
  let d := event (modCell d c fun x => { x with lags := r.1 }) (pCell c) Reg.CEL_EVENTS 0 Reg.CEL_EVT_FEED_LATE
  if r.2 then event d (pCell c) Reg.CEL_EVENTS 2 Reg.CEL_EVT_SKEW_LIMIT else d

/-- A pass meets its corrections in order, in cycle v, up to the first uncorrectable sector; answers whether one was met. A sector
that has been written back already is good again. -/
def takeCorrs (c p v : Nat) : List Corr → Dev → Dev × Bool
  | [], d => (d, false)
  | x :: l, d =>
    let d := heal d x.sector 32 v
    if (marksIn d x.sector 32).isEmpty then takeCorrs c p v l d
    else
      let d := useSector d x.sector v
      if x.bad then (storeUncorr d x.sector, true)
      else
        let d := disturb (storeCorr d x.sector) p causeScrub 1 0 (memUnit d x.sector)
        takeCorrs c p v l (lagUp d c x.lanes)

/-- Charges what the largest lag has grown by: to SCRUB for the lanes, to POWER_CAP for withheld cycles (R82). -/
def chargeLag (d : Dev) (c p : Nat) : Dev :=
  let x := cellOf d c
  let dl := maxLane x.lags - x.paidLane
  let dc := x.common - x.paidCom
  let d := bump d (pCell c) Reg.CEL_LAG_CYCLES (dl + dc)
  let d := bump d (pPart p) (Reg.CTL_DIST_CYCLES causeScrub) dl
  let d := bump d (pPart p) (Reg.CTL_DIST_CYCLES causePower) dc
  modCell d c fun x => { x with paidLane := maxLane x.lags, paidCom := x.common }

/-- The stream of a pass trails its schedule by what its lag has grown by, and by the whole lag when the pass follows its chain at once
(R82). -/
def passLate (s : Strm) (lag0 lag why : Nat) (follows : Bool) : Strm :=
  let l := s.late + (lag - lag0)
  let l := if follows then max l lag else l
  { s with late := l, why := if lag0 < lag ∨ s.why = 0 then (if l = 0 then 0 else why) else s.why }

/-- A pass of a cell as its timing sees it: mode, broadcast, bank, integer bank, widest operand, steps, the cycle it begins in, and
the largest lag it takes up. -/
structure PassRun where
  split  : Bool
  bcast  : Bool
  bank   : Fin 2
  isInt  : Bool
  w      : Nat
  k      : Nat
  r      : Nat
  t0     : Nat
  lag0   : Nat
  follow : Bool
  deriving DecidableEq, Repr

/-- The run of a pass that begins in cycle r. -/
def passRun (x : CellSt) (split bcast : Bool) (bank : Fin 2) (aFmt bFmt : Fin 16) (k r : Nat) : PassRun :=
  { split := split, bcast := bcast, bank := bank, isInt := fmtIsInt aFmt.val, w := max (fmtWidth aFmt.val) (fmtWidth bFmt.val)
    k := k, r := r, t0 := passT0 x r, lag0 := maxLag (openChain x r)
    follow := !arrayIdle x r && decide (r = arrayFree x split) }

/-- What a pass does beside its arithmetic: issue cycles that the power cap withholds, the charge of the lag, the lateness of its
stream, the times of its bank, and the counts (R76, R82, R84, R500). -/
def settlePass (d : Dev) (c : Nat) (f : InFl) (q : PassRun) (gated : Nat) (lost : Bool) : Dev :=
  let p := cellPart d c
  let n := passCycles q.split q.w q.k
  let held := activeEnd (dutyEff d p) q.r n - (q.r + n - 1)
  let d := if held = 0 then d
    else disturb (events d (pCell c) Reg.CEL_EVENTS 0 Reg.CEL_EVT_FEED_LATE held) p causePower held 0 (physCombOf d (c / 8))
  let d := modCell d c fun x => { x with common := x.common + held }
  let d := chargeLag d c p
  let lag := maxLag (cellOf d c)
  let why := if held = 0 then causeScrub else causePower
  let fin := q.t0 + n + passLatency q.split + lag
  let d := modFl d c f.id fun g => { g with
    started := true, start := q.r, occEnd := q.t0 + n + lag, due := fin - 1, late := lag, why := if lag = 0 then 0 else why
    waiting := lost }
  let d := modStrm d c f.stream.val fun s => passLate s q.lag0 lag why q.follow
  let d := bump d (pCell c) Reg.CEL_STEP_COUNT q.k
  let g := (cellOf d c).gateRem + gated
  let d := bump d (pCell c) Reg.CEL_GATED_STEPS (g / 128)
  modCell d c fun x =>
    let x := { x with gateRem := g % 128, passEnd := q.t0 + n, passLat := passLatency q.split, passSplit := q.split
                      passBcast := q.bcast }
    if q.bank.val = 0 then { x with final0 := fin, int0 := q.isInt } else { x with final1 := fin, int1 := q.isInt }

/-- The live-row count of a word, clamped to T (R86, R87). -/
def liveRows (d : Dev) (c addr top : Nat) (en : Bool) : Dev × Nat :=
  if !en then (d, top)
  else
    let n := readLe d (cellAddr c addr) 4
    if top < n then (eventG d 7 (pCell c) Reg.CEL_EVENTS 3 Reg.CEL_EVT_DECKLE_CLAMP, top) else (d, n)

/-! ## Sparse counts (R151, R153, R167) -/

/-- One kind of sparse event of a pass. -/
def sparseEvent (d : Dev) (c bit cnt : Nat) (any : Bool) : Dev :=
  if any then eventG d 1 (pCell c) Reg.CEL_SP_EVENTS bit cnt else d

/-- The counts and events of a sparse pass. -/
def sparseCounts (d : Dev) (c recId k aFmt group : Nat) (x : PassOps) (s : SparseP) : Dev :=
  let u := pCell c
  let w := walked s (fmtWidth aFmt) group k
  let drops := (List.range w).map fun g => segDrops d c x.metaBase x.aBase aFmt s g
  let nr := drops.foldl (fun n e => n + e.1) 0
  let nd := drops.foldl (fun n e => n + e.2.1) 0
  let nb := drops.foldl (fun n e => n + e.2.2) 0
  let nt := s.segs - w
  let first := ((drops.zipIdx.find? fun e => decide (e.1.1 + e.1.2.1 + e.1.2.2 ≠ 0)).map Prod.snd).getD w
  let d := bump d u Reg.CEL_SP_SEGMENTS w
  let d := bump (sparseEvent d c 0 Reg.CEL_EVT_DROP_DECL (decide (nd ≠ 0))) u Reg.CEL_SP_DROPPED_DECL nd
  let d := bump (sparseEvent d c 1 Reg.CEL_EVT_DROP_B (decide (nb ≠ 0))) u Reg.CEL_SP_DROPPED_B nb
  let d := bump (sparseEvent d c 2 Reg.CEL_EVT_DROP_RANGE (decide (nr ≠ 0))) u Reg.CEL_SP_DROPPED_RANGE nr
  let d := bump (sparseEvent d c 3 Reg.CEL_EVT_SEG_TRUNC (decide (nt ≠ 0))) u Reg.CEL_SP_TRUNC_SEGMENTS nt
  if nr + nd + nb + nt = 0 then d else wrN d u Reg.CEL_SP_LAST (recId % 65536 + first * 65536)

/-! ## PASS -/

/-- The B operand of a PASS: its comb-store address for a broadcast, else its cell-store address. -/
def passB (c : Nat) (addr : Nat) (x : PassOps) : Nat := if x.bcast then addr else cellAddr c x.bBase

/-- Stored slots per lane or step of A (D_A of R146). -/
def slotsA (s : SparseP) : Nat := if s.trans then s.sd else s.dd

/-- The bytes of a segment's regions in the cell store: base and size, by segment (Table 06-4). -/
def segRegions (s : SparseP) (x : PassOps) (w g : Nat) : List (Nat × Nat) :=
  [(x.metaBase + 32 + g * s.aStride, if s.stepForm then 16 else if s.trans then 4096 else 2048),
   (x.aBase + g * s.aStride, slotsA s * 128 * w / 8),
   (x.bBase + g * s.bStride, s.p * 128 * w / 8)] ++ (if s.p < 128 then [(s.bMeta + g * s.bStride, 16)] else [])

/-- Marked sectors of a segment's vectors of 128 elements of w bits: the vectors at the given slots, and of A only the sectors that
feed rows below `live` (R85). -/
def vectorCorrs (d : Dev) (a w key live : Nat) (slots : List Nat) : List Corr :=
  slots.flatMap fun q => (markedSectors d (a + 16 * w * q) (16 * w)).filterMap fun s =>
    if live ≤ (s.1 - (a + 16 * w * q)) * 8 / w then none else some ⟨key, allLanes, s.1, s.2⟩

/-- Marked sectors of a bitmap of 16 bytes for each lane, below `live`. -/
def laneBitCorrs (d : Dev) (a key live : Nat) : List Corr :=
  (markedSectors d a 2048).filterMap fun s => if live ≤ (s.1 - a) / 16 then none else some ⟨key, allLanes, s.1, s.2⟩

/-- The stored B steps that a fill reads: all P, or in step form those at the kept steps of A (R152). -/
def fillSteps (d : Dev) (c : Nat) (x : PassOps) (s : SparseP) (h : Nat) : List Nat :=
  if !s.stepForm then List.range s.p
  else
    let ka := (laneKeep s (aBits d c x.metaBase s h 0) (segLim s h)).keep
    let kb := (bKeep d c s h).keep
    ((List.range 128).filter fun t => bitAt ka t && bitAt kb t).map fun t => if s.p < 128 then popBits kb t else t

/-- The marked sectors that the fill of a segment reads (R152, R154): bitmaps, A slots or steps, and B steps. -/
def segCorrs (d : Dev) (c : Nat) (x : PassOps) (s : SparseP) (w live h : Nat) : List Corr :=
  let bm := cellAddr c (x.metaBase + 32 + h * s.aStride)
  let bits := if s.stepForm then wordCorrs d bm 16 h allLanes
    else if s.trans then laneBitCorrs d bm h 128 ++ laneBitCorrs d (bm + 2048) h live
    else laneBitCorrs d bm h live
  bits ++ vectorCorrs d (cellAddr c (x.aBase + h * s.aStride)) w h (if s.trans then 128 else live) (List.range (slotsA s))
    ++ (if s.p < 128 then wordCorrs d (cellAddr c (s.bMeta + h * s.bStride)) 16 h allLanes else [])
    ++ vectorCorrs d (cellAddr c (x.bBase + h * s.bStride)) w h 128 (fillSteps d c x s h)

/-- The marked sectors a PASS meets, in the order it reads them. -/
def passCorrs (d : Dev) (c addr : Nat) (x : PassOps) (live : Nat) : List Corr :=
  let wa := fmtWidth x.aFmt.val
  let wb := fmtWidth x.bFmt.val
  let k := 32 * x.u
  let g := groupSize x.group.val
  let ctl := if x.liveEn then wordCorrs d (cellAddr c x.liveAddr / 32 * 32) 32 0 (laneRun 0 128) else []
  if x.sparseMode.val = 0 then
    let groups := if g = 0 then 0 else k / g
    corrSort (ctl ++ operandCorrs d (cellAddr c x.aBase) (16 * wa) k wa 0 live
      ++ (if x.bcast then [] else operandCorrs d (passB c addr x) (16 * wb) k wb 128 128)
      ++ scaleCorrs d (cellAddr c x.aScaleBase) 128 g groups 0 ++ scaleCorrs d (cellAddr c x.bScaleBase) 128 g groups 128)
  else
    let s := sparseP d c x.sparseMode.val x.sparseParam x.metaBase
    let w := walked s wa x.group.val k
    let groups := if g = 0 then 0 else 128 * w / g
    let sc := (scaleCorrs d (cellAddr c x.aScaleBase) 128 g groups 0 ++ scaleCorrs d (cellAddr c x.bScaleBase) 128 g groups 128).map
      fun e => { e with lanes := allLanes, key := e.key / 128 }
    corrSort (ctl ++ wordCorrs d (cellAddr c x.metaBase) 32 0 allLanes ++ (List.range w).flatMap (segCorrs d c x s wa live) ++ sc)

/-- The arithmetic of a PASS: accumulators and arithmetic events; answers the gated element-steps too. -/
def passTile (d : Dev) (c recId addr : Nat) (x : PassOps) (live : Nat) : Dev × Nat :=
  let k := 32 * x.u
  let isInt := fmtIsInt x.aFmt.val
  let sa := cellAddr c x.aScaleBase
  let sb := cellAddr c x.bScaleBase
  if x.sparseMode.val = 0 then
    runTiles d c x.bank.val isInt x.clear k
      [denseTile d 0 128 live k x.aFmt.val x.bFmt.val (cellAddr c x.aBase) (passB c addr x) x.group.val sa sb]
  else
    let s := sparseP d c x.sparseMode.val x.sparseParam x.metaBase
    let r := runTiles d c x.bank.val isInt x.clear k
      [sparseTile d c live k x.aFmt.val x.bFmt.val x.aBase x.bBase x.group.val sa sb x.metaBase s]
    (sparseCounts r.1 c recId k x.aFmt.val x.group.val x s, r.2)

/-! ## PASS_SPLIT -/

/-- A quarter table entry (Table 04-7). -/
structure Quarter where
  a      : Nat
  b      : Nat
  live   : Nat
  liveEn : Bool
  sa     : Nat
  sb     : Nat
  deriving DecidableEq, Repr

/-- Entry q of the quarter table of a PASS_SPLIT. -/
def quarter (d : Dev) (c : Nat) (x : SplitOps) (q : Nat) : Quarter :=
  let e := cellAddr c (x.tableBase + 32 * q)
  { a := readLe d e 4 % 2 ^ 22, b := readLe d (e + 4) 4 % 2 ^ 22, live := readLe d (e + 8) 4 % 2 ^ 22
    liveEn := bitAt (readLe d (e + 8) 4) 31, sa := readLe d (e + 12) 4 % 2 ^ 22, sb := readLe d (e + 16) 4 % 2 ^ 22 }

/-- The marked sectors one quarter meets. -/
def quarterCorrs (d : Dev) (c : Nat) (x : SplitOps) (q : Nat) : List Corr :=
  let e := quarter d c x q
  let k := 32 * x.u
  let wa := fmtWidth x.aFmt.val
  let wb := fmtWidth x.bFmt.val
  let g := groupSize x.group.val
  let groups := if g = 0 then 0 else k / g
  let live := if e.liveEn then readLe d (cellAddr c e.live) 4 else 32
  (if e.liveEn then wordCorrs d (cellAddr c e.live / 32 * 32) 32 0 (laneRun (32 * q) 32) else [])
    ++ operandCorrs d (cellAddr c e.a) (4 * wa) k wa (32 * q) live
    ++ operandCorrs d (cellAddr c e.b) (16 * wb) k wb 128 128
    ++ scaleCorrs d (cellAddr c e.sa) 32 g groups (32 * q) ++ scaleCorrs d (cellAddr c e.sb) 128 g groups 128

/-- Live rows of the four quarters. -/
def quarterLives (d : Dev) (c : Nat) (x : SplitOps) : Dev × List Nat :=
  (List.range 4).foldl (fun r q =>
    let e := quarter r.1 c x q
    let v := liveRows r.1 c e.live 32 e.liveEn
    (v.1, r.2 ++ [v.2])) (d, [])

/-! ## DRAIN -/

/-- Width of a DRAIN's elements. -/
def drainWidth (x : DrainOps) : Nat := if x.raw then 32 else fmtWidth x.outFmt.val

/-- D of Table 03-4. -/
def drainCycles (x : DrainOps) : Nat :=
  let w := drainWidth x
  if w = 32 then (if x.toComb then 512 else 256) else if w = 16 ∧ x.toComb then 256 else 128

/-- Bytes a DRAIN writes: elements, and output scales when the Calender entry selects groups (R74, R135). -/
def drainSize (x : DrainOps) (cfg : CalCfg) : Nat :=
  if x.raw then 65536
  else 2048 * fmtWidth x.outFmt.val + (if cfg.group = 0 then 0 else 256 * (128 / groupSize cfg.group))

/-! ## Checks (R115, R122, R130, R147) -/

/-- FORMAT: the pair, and GROUP with a 16-bit operand (R122). -/
def formatErr (aFmt bFmt group : Nat) : Option RecErr :=
  let isF := fun f => decide (2 ≤ f) && decide (f ≤ 6)
  if ((fmtIsInt aFmt && fmtIsInt bFmt) || (isF aFmt && isF bFmt))
      && !(decide (group ≠ 0) && (fmtWidth aFmt == 16 || fmtWidth bFmt == 16)) then none
  else some ⟨7, 0, 0, false⟩

/-- A live-row word: ALIGN unless at a multiple of 4, RANGE in the staging area. -/
def liveErr (en : Bool) (a : Nat) : Option RecErr :=
  if !en then none else if a % 4 ≠ 0 then some ⟨1, 0, 0, false⟩ else if opTop ≤ a then some ⟨2, 0, 0, false⟩ else none

/-- Scale arrays as regions: base and bytes. -/
def scaleRegion (base lanes g groups : Nat) : List (Nat × Nat) := if g = 0 then [] else [(base, 32 + 2 * lanes * groups)]

/-- The checks that a PASS meets when it issues; those that depend on a sparse header come at t0 (R147). -/
def passErr (d : Dev) (c : Nat) (x : PassOps) : Option RecErr :=
  let k := 32 * x.u
  let wa := fmtWidth x.aFmt.val
  let wb := fmtWidth x.bFmt.val
  let g := groupSize x.group.val
  let fe := firstErr [formatErr x.aFmt.val x.bFmt.val x.group.val,
    if x.bcast ∧ !bitAt x.subscribers.toNat (c % 8) then some ⟨7, 0, 0, false⟩ else none]
  let dense := decide (x.sparseMode.val = 0)
  let groups := if g = 0 ∨ !dense then 0 else k / g
  let n := 16 * wb * k
  firstErr [localErr ([(x.aBase, if dense then 16 * wa * k else 0)]
      ++ (if x.bcast then [] else [(x.bBase, if dense then n else 0)])
      ++ scaleRegion x.aScaleBase 128 g groups ++ scaleRegion x.bScaleBase 128 g groups),
    liveErr x.liveEn x.liveAddr, if x.bcast then bufErr d c x.bSlot.val x.bOffset n false else none, fe]

/-- The checks of a sparse PASS at t0: META_BASE, and the regions of its segments and their scales (R147). -/
def sparseErr (d : Dev) (c : Nat) (x : PassOps) : Option RecErr :=
  if x.sparseMode.val = 0 then none
  else
    let g := groupSize x.group.val
    let s := sparseP d c x.sparseMode.val x.sparseParam x.metaBase
    let groups := if g = 0 then 0 else 128 * s.segs / g
    let regs := (List.range s.segs).flatMap fun h => segRegions s x (fmtWidth x.aFmt.val) h
    firstErr [localErr ([(x.metaBase, 32)] ++ scaleRegion x.aScaleBase 128 g groups ++ scaleRegion x.bScaleBase 128 g groups),
      if regs.any fun e => decide (opTop < e.1 + e.2) then some ⟨2, 0, 0, false⟩ else none]

/-- The checks of a PASS_SPLIT. -/
def splitErr (d : Dev) (c : Nat) (x : SplitOps) : Option RecErr :=
  let k := 32 * x.u
  let wa := fmtWidth x.aFmt.val
  let wb := fmtWidth x.bFmt.val
  let g := groupSize x.group.val
  let groups := if g = 0 then 0 else k / g
  let qs := (List.range 4).map (quarter d c x)
  firstErr ([localErr [(x.tableBase, 128)]]
    ++ [localErr (qs.flatMap fun e => [(e.a, 4 * wa * k), (e.b, 16 * wb * k)] ++ scaleRegion e.sa 32 g groups
        ++ scaleRegion e.sb 128 g groups)]
    ++ qs.map (fun e => liveErr e.liveEn e.live) ++ [formatErr x.aFmt.val x.bFmt.val x.group.val])

/-- The checks of a DRAIN. -/
def drainErr (d : Dev) (c : Nat) (x : DrainOps) : Option RecErr :=
  let cfg := calCfg d c x.calCfg.val
  let n := drainSize x cfg
  firstErr [if x.toComb then bufErr d c x.destSlot.val x.destOffset n true else localErr [(x.destBase, n)],
    if !x.raw && (decide (cfg.mult = 0) || decide (63 < cfg.shift) || cfg.rsv
        || (decide (cfg.group ≠ 0) && decide (8 < fmtWidth x.outFmt.val))) then some ⟨7, 0, 0, false⟩ else none]

/-! ## What passes and drains do -/

/-- A record in flight fails a check at its start: it has no effect, and its stream stops (R115, R147). -/
def failStart (d : Dev) (c : Nat) (f : InFl) (e : RecErr) : Dev :=
  recordFail (dropFl d c f.id) c f.stream.val f.recIdx f.recId e.code e.sub

/-- A PASS begins in cycle r. `pre` are the lanes that corrections of a broadcast delayed; `dead` says that a broadcast sector was
lost. Its live-row word and sparse header are read now (R86, R147). -/
def runPass (d : Dev) (c : Nat) (f : InFl) (x : PassOps) (r : Nat) (pre : List (List Nat)) (dead : Bool) : Dev :=
  match sparseErr d c x with
  | some e => failStart d c f e
  | none =>
    let p := cellPart d c
    let q := passRun (cellOf d c) false x.bcast x.bank x.aFmt x.bFmt (32 * x.u) r
    let d := modCell d c fun y => openChain y r
    let cs := passCorrs d c f.addr x (if x.liveEn then readLe d (cellAddr c x.liveAddr) 4 else 128)
    let t := takeCorrs c p r cs (pre.foldl (fun d l => lagUp d c l) d)
    let lost := t.2 || dead
    let v := liveRows t.1 c x.liveAddr 128 x.liveEn
    let y := if lost then (v.1, 0) else passTile v.1 c f.recId f.addr x v.2
    settlePass y.1 c f q y.2 lost

/-- A PASS_SPLIT begins in cycle r. -/
def runSplit (d : Dev) (c : Nat) (f : InFl) (x : SplitOps) (r : Nat) : Dev :=
  let p := cellPart d c
  let k := 32 * x.u
  let q := passRun (cellOf d c) true false x.bank x.aFmt x.bFmt k r
  let d := modCell d c fun y => openChain y r
  let cs := corrSort (((List.range 4).flatMap fun i =>
    wordCorrs d (cellAddr c (x.tableBase + 32 * i)) 32 0 (laneRun (32 * i) 32 ++ laneRun 128 128))
    ++ (List.range 4).flatMap (quarterCorrs d c x))
  let t := takeCorrs c p r cs d
  let v := quarterLives t.1 c x
  let y := if t.2 then (v.1, 0)
    else runTiles v.1 c x.bank.val (fmtIsInt x.aFmt.val) x.clear k ((List.range 4).map fun i =>
      let e := quarter v.1 c x i
      denseTile v.1 (32 * i) 32 (v.2.getD i 32) k x.aFmt.val x.bFmt.val (cellAddr c e.a) (cellAddr c e.b) x.group.val
        (cellAddr c e.sa) (cellAddr c e.sb))
  settlePass y.1 c f q y.2 t.2

/-- Adds 6 cycles to a drain lane; a skew above 32 rows holds the leading lanes (R83). -/
def drainLag (m : SMap Nat) (lane : Nat) : SMap Nat :=
  let m := smModD 0 m lane (· + 6)
  let top := maxLane m
  (List.range 4).foldl (fun m l => if smGetD 0 m l + 32 < top then smPutD 0 m l (top - 32) else m) m

/-- Corrections in the read-modify-writes of a 4-bit drain to the comb store (R83, R90), in cycle v; answers the late cycles and whether a
sector was lost. A sector that two lanes write delays the lower one, and a sector of scales lane 0 (log entry 105, DESIGN CHOICE). -/
def drainCorrs (p a w v : Nat) : List (Nat × Bool) → SMap Nat → Dev → Dev × Nat × Bool
  | [], m, d => (d, maxLane m, false)
  | (s, bad) :: l, m, d =>
    let d := useSector d s v
    if bad then (storeUncorr d s, maxLane m, true)
    else
      let d := disturb (storeCorr d s) p causeScrub 1 0 (memUnit d s)
      let off := s - a
      drainCorrs p a w v l (drainLag m (if off < 2048 * w then off % 64 / 16 else 0)) d

/-- A drain that its lanes delay sets DRAIN_LATE once and adds to the counts (R83). -/
def drainLate (d : Dev) (c p late : Nat) : Dev :=
  if late = 0 then d
  else
    let d := event d (pCell c) Reg.CEL_EVENTS 1 Reg.CEL_EVT_DRAIN_LATE
    bump (bump d (pCell c) Reg.CEL_LAG_CYCLES late) (pPart p) (Reg.CTL_DIST_CYCLES causeScrub) late

/-- The part of a drain's bytes that partial comb-store writes carry: address and bytes (R90). -/
def drainPart (x : DrainOps) (cfg : CalCfg) (a : Nat) : Nat × Nat :=
  let w := drainWidth x
  let n := drainSize x cfg
  if !x.toComb then (a, 0)
  else if w = 4 then (a, n)
  else if w < 32 ∧ cfg.group ≠ 0 then (a + 2048 * w, n - 2048 * w)
  else (a, 0)

/-- The Calender entry's sector, read in the drain's first cycle (R130): its corrections are SCRUB disturbances that delay no drain
lane (R83). Answers whether it was lost. -/
def calRead (d : Dev) (c p v : Nat) (x : DrainOps) : Dev × Bool :=
  if x.raw then (d, false)
  else
    let a := cellAddr c (0x3DFF00 + 16 * x.calCfg.val) / 32 * 32
    let d := heal d a 32 v
    let r := readSectors v d (markedSectors d a 32)
    match r.2.1.head? with
    | none => (r.1, r.2.2)
    | some s => (disturb r.1 p causeScrub 1 0 (memUnit r.1 s), r.2.2)

/-- A DRAIN starts in a cycle (R78, R130 to R135). Every element of a stochastic drain counts as rounded (R138)
(log entry 106, DESIGN CHOICE). -/
def runDrain (d : Dev) (c : Nat) (f : InFl) (x : DrainOps) (st : Nat) : Dev :=
  let p := cellPart d c
  let y := cellOf d c
  let isInt := if x.bank.val = 0 then y.int0 else y.int1
  let q := calRead d c p st x
  let d := q.1
  let cfg := calCfg d c x.calCfg.val
  let w := drainWidth x
  let a := if x.toComb then f.addr else cellAddr c x.destBase
  let part := drainPart x cfg a
  let d := heal d part.1 part.2 st
  let r := if q.2 then (d, 0, true) else drainCorrs p a w st (markedSectors d part.1 part.2) [] d
  let late := r.2.1
  let d := drainLate r.1 c p late
  let out := drainBytes d c x.bank.val isInt x.raw x.outFmt.val cfg x.stoch x.tensorKey (rdN d (pPart p) Reg.CTL_SLICE_IDX)
  let d := if r.2.2 then d
    else
      let d := cellWrite d c f.recId a out.1
      let d := eventsG d 0 (pCell c) Reg.CAL_EVENTS 2 Reg.CAL_EVT_OUT_SAT out.2.1
      let d := eventsG d 0 (pCell c) Reg.CAL_EVENTS 3 Reg.CAL_EVT_NAN_OUT out.2.2
      if x.raw then d
      else bump (bump d (pCell c) Reg.CAL_DRAINS 1) (pCell c) Reg.CAL_STOCH_ELEMENTS (if x.stoch then 16384 else 0)
  let e := st + drainCycles x + late
  let d := if x.toComb then combBusy d (c / 8) st e else d
  let d := modFl d c f.id fun g => { g with
    started := true, start := st, occEnd := e, due := e - 1, late := late, why := if late = 0 then 0 else causeScrub, waiting := r.2.2 }
  modCell d c fun y =>
    let y := { y with drainEnd := e }
    if x.bank.val = 0 then { y with drained0 := e } else { y with drained1 := e }

/-! ## Which record starts next (R104) -/

/-- The records of a cell that were issued before one and have not started. -/
def waitingBefore (x : CellSt) (f : InFl) : List InFl := (x.inflight.takeWhile fun g => g.id != f.id).filter fun g => !g.started

/-- Must a record wait for an earlier one that has not started: one of its resource, or of its bank (R77, R78)? -/
def blocks (g f : InFl) : Bool :=
  decide (g.body.res = f.body.res) || (g.body.bank.isSome && decide (g.body.bank = f.body.bank))

/-- The cycle in which a record that nothing blocks starts, a broadcast pass without its broadcast. -/
def startCycle (x : CellSt) (f : InFl) : Nat :=
  match f.body with
  | .pass o => passStart x false o.bank.val f.start
  | .split o => passStart x true o.bank.val f.start
  | .drain o => max f.start (max (if o.bank.val = 0 then x.final0 else x.final1) x.drainEnd)
  | b => max f.start ((b.res.map (resFree x)).getD 0)

/-- The start cycle of a record that waits for no other record. -/
def startOf (x : CellSt) (f : InFl) : Option Nat :=
  if f.started || f.asked || (waitingBefore x f).any fun g => blocks g f then none else some (startCycle x f)

/-- The record that starts next, at or before a cycle, with its start: the earliest start, then the earliest issue. Broadcast passes
start by themselves in no cycle. -/
def nextStart (x : CellSt) (t : Nat) : Option (InFl × Nat) :=
  x.inflight.foldl (fun best f =>
    match startOf x f with
    | none => best
    | some r =>
      if t < r || f.body.isBcast then best
      else match best with
        | none => some (f, r)
        | some b => if r < b.2 then some (f, r) else best) none

/-- A record starts in a cycle. -/
def startRec (d : Dev) (c : Nat) (f : InFl) (r : Nat) : Dev :=
  match f.body with
  | .load x => startLoad d c f x r
  | .store x => startStore d c f x r
  | .fill x => startFill d c f x r
  | .pass x => runPass d c f x r [] false
  | .split x => runSplit d c f x r
  | .drain x => runDrain d c f x r
  | .vector op x => startVector d c f op x r
  | .send x => startSend d c f x r
  | .alloc x => startAlloc d c f x r
  | b => match remGo d c b with
    | some g => startRemote d c f g r
    | none => d

/-- Starts what starts at or before a cycle, at most so many records. -/
def startAll (c t : Nat) : Nat → Dev → Dev
  | 0, d => d
  | n + 1, d => match nextStart (cellOf d c) t with
    | none => d
    | some s => startAll c t n (startRec d c s.1 s.2)

/-- A cell reaches a cycle of its frame: every record that starts by then has started. -/
def advanceCell (d : Dev) (c t : Nat) : Dev :=
  modCell (startAll c t ((cellOf d c).inflight.filter fun f => !f.started).length d) c fun x => { x with now := max x.now t }

/-- The cells of a partition reach a cycle. -/
def advancePart (d : Dev) (p t : Nat) : Dev := (partCells d p).foldl (fun d c => advanceCell d c t) d

/-! ## Broadcasts (R89) -/

/-- The broadcast pass at which a cell stands, with the cycle in which the cell has reached it. -/
def bcastHead (x : CellSt) : Option (InFl × PassOps × Nat) :=
  (x.inflight.find? fun f => f.body.isBcast && !f.started).bind fun f =>
    match f.body with
    | .pass o => (startOf x f).map fun r => (f, o, r)
    | _ => none

/-- A subscriber that stands at its broadcast: cell, record, operands and the cycle in which it has reached it. -/
structure Sub where
  cell  : Nat
  fl    : InFl
  ops   : PassOps
  ready : Nat
  deriving DecidableEq, Repr

/-- The subscribers of the broadcast at which a cell stands, when each of them stands at a broadcast of the same cells. -/
def subsOf (d : Dev) (k c : Nat) : Option (List Sub) :=
  (bcastHead (cellOf d c)).bind fun e =>
    let cells := ((List.range 8).map fun i => 8 * k + i).filter fun q => bitAt e.2.1.subscribers.toNat (q % 8)
    let l := cells.filterMap fun q => (bcastHead (cellOf d q)).bind fun h =>
      if h.2.1.subscribers = e.2.1.subscribers then some (⟨q, h.1, h.2.1, h.2.2⟩ : Sub) else none
    if l.length = cells.length then some l else none

/-- The first cycle in which every subscriber has reached the pass and the port is free (R89). -/
def bcastT0 (d : Dev) (k : Nat) (l : List Sub) : Nat := l.foldl (fun n e => max n e.ready) (combOf d k).busy

/-- The broadcast of a comb that starts first among those whose subscribers all stand at it. -/
def bcastReady (d : Dev) (k : Nat) : Option (List Sub) :=
  (((List.range 8).filterMap fun i => subsOf d k (8 * k + i)).foldl (fun best l =>
    match best with
    | none => some l
    | some b => if bcastT0 d k l < bcastT0 d k b then some l else best) none)

/-- The cause that delayed the subscriber that reached the broadcast last. -/
def bcastCause (d : Dev) (l : List Sub) : Nat :=
  ((l.foldl (fun (b : Option Sub) e => match b with
    | none => some e
    | some q => if q.ready < e.ready then some e else b) none).map fun e => (strmOf (cellOf d e.cell) e.fl.stream.val).why).getD 0

/-- Waiting subscribers: BCAST_WAIT, its cycles, their lateness, and the charge to the cause that delayed the last (R89). -/
def bcastWait (d : Dev) (k t0 : Nat) (l : List Sub) : Dev :=
  let n := l.foldl (fun n e => n + (t0 - e.ready)) 0
  if n = 0 then d
  else
    let cause := bcastCause d l
    let d := event d (pComb k) Reg.CMB_EVENTS 0 Reg.CMB_EVT_BCAST_WAIT
    let d := bump d (pComb k) Reg.CMB_BCAST_WAIT_CYCLES n
    let d := if cause = 0 then d else bump d (pPart ((combOwner d k).getD 0)) (Reg.CTL_DIST_CYCLES cause) n
    l.foldl (fun d e =>
      let w := t0 - e.ready
      if w = 0 then d
      else modStrm (bump d (pCell e.cell) Reg.CEL_LAG_CYCLES w) e.cell e.fl.stream.val fun s =>
        { s with late := s.late + w, why := if s.why = 0 then cause else s.why }) d

/-- The corrections of a broadcast B operand, in cycle v: the lanes of each, and whether a sector was lost. -/
def bcastCorrs (p v : Nat) : List Corr → Dev → Dev × List (List Nat) × Bool
  | [], d => (d, [], false)
  | x :: l, d =>
    let d := heal d x.sector 32 v
    if (marksIn d x.sector 32).isEmpty then bcastCorrs p v l d
    else
      let d := useSector d x.sector v
      if x.bad then (storeUncorr d x.sector, [], true)
      else
        let r := bcastCorrs p v l (disturb (storeCorr d x.sector) p causeScrub 1 0 (memUnit d x.sector))
        (r.1, x.lanes :: r.2.1, r.2.2)

/-- A comb's broadcast starts, when the given cycle has reached its start; the port is busy to the last issue cycle of it (R89). -/
def startBroadcast (d : Dev) (k cycle : Nat) : Dev :=
  let cells := (List.range 8).map fun i => 8 * k + i
  let d := cells.foldl (fun d c => advanceCell d c cycle) d
  match bcastReady d k with
  | none => d
  | some l =>
    let t0 := bcastT0 d k l
    match l.head? with
    | none => d
    | some e0 =>
      if cycle < t0 then d
      else
        let d := bcastWait d k t0 l
        let w := fmtWidth e0.ops.bFmt.val
        let b := bcastCorrs ((combOwner d k).getD 0) t0 (operandCorrs d e0.fl.addr (16 * w) (32 * e0.ops.u) w 128 128) d
        let d := l.foldl (fun d e => runPass d e.cell e.fl e.ops t0 b.2.1 b.2.2) b.1
        let last := l.foldl (fun n e => max n ((cellOf d e.cell).passEnd + maxLag (cellOf d e.cell))) t0
        let d := modComb d k fun s => { s with busy := last, subs := e0.ops.subscribers.toNat }
        l.foldl (fun d e => advanceCell d e.cell cycle) d

end Sys2Proof.Machine
end

