-- ==== Sys2Proof/Machine/Slots.lean ====
section
/-! DEFINITION. What the engines of a partition share: buffer references of the slot table (08 R197), READY and NOTIFY tags
(07 R172, 08 R200), reads of buffers that meet corrections, lost lines and poisoned objects (10 R247, R248, R278), and the
landings that hold their consumers (08 R222). -/

namespace Sys2Proof.Machine

/-- The partition an engine's page serves, with its running image: partition, slice index, image, image slice. -/
def engineImage (d : Dev) (u : Nat) : Option (Nat × Nat × Image × Nat) :=
  (ownerOf d u).bind fun p => (runImage d p).map fun r => (p, r.2.1, r.2.2.1, r.2.2.2)

/-- The handle of a buffer reference and the cycle by which it is allocated; none while it waits, or when the buffer belongs
to another slice (R197). A MODE 2 buffer is the object's handle in the active table, 0 when unbound. -/
def refOf (d : Dev) (p : Nat) (i : Image) (slice ref : Nat) : Option (Nat × Nat) :=
  (i.bufList[ref]?).bind fun b =>
    if b.mode = 2 then some (smGetD 0 (partOf d p).objects b.object, 0)
    else if b.slice = slice then smGet (partOf d p).listGot ref
    else some (0, 0)

/-- Handles of several references with the cycle after the last is allocated; none while one waits. -/
def refsOf (d : Dev) (p : Nat) (i : Image) (slice : Nat) (refs : List Nat) : Option (List Nat × Nat) :=
  refs.foldl (fun acc r => acc.bind fun a => (refOf d p i slice r).map fun h => (a.1 ++ [h.1], max a.2 (if h.2 = 0 then 0 else h.2 + 1)))
    (some ([], 0))

/-- A cell of the partition by its slot. -/
def slotCell (d : Dev) (p slot : Nat) : Option Nat := (partCells d p)[slot]?

/-- Advances a NOTIFY tag at the end of a cycle (R172); `why` is the cause that made the entry late, 0 for none. -/
def notify (d : Dev) (p slot tag cycle why : Nat) : Dev :=
  match slotCell d p slot with
  | some c => advTag d c tag cycle why
  | none => d

/-- Does a READY tag hold its count at the start of a cycle (R103, R200)? -/
def tagReady (d : Dev) (p slot tag count cycle : Nat) : Bool :=
  match slotCell d p slot with
  | some c => match (tagOf (cellOf d c) tag).reached count with
    | some r => decide (r ≤ cycle)
    | none => false
  | none => false

/-! ## Reads of buffers -/

/-- Changes the tier state. -/
def modTier (d : Dev) (g : TierSt → TierSt) : Dev := { d with tier := g d.tier }

/-- The copy of a chunk that a refetch brought (R279). -/
def repairOf (d : Dev) (a : Nat) : Option Repair := d.tier.repairs.find? fun r => r.chunk == a / 65536 * 65536

/-- A byte as an engine reads it: a chunk in a repair area is read there. -/
def engByte (d : Dev) (a : Nat) : Byte :=
  if inStore a then readByte d a
  else match repairOf d a with
    | some r => smGetD 0 r.data (a % 65536)
    | none => tierByte d a

/-- Bytes as an engine reads them. -/
def engBytes (d : Dev) (a n : Nat) : List Byte := (List.range n).map fun i => engByte d (a + i)

/-- The little-endian number in `n` bytes, as an engine reads them. -/
def engLe (d : Dev) (a n : Nat) : Nat := leNat (engBytes d a n)

/-- The published object of a partition whose buffer holds an address: object and handle. -/
def objectAt (d : Dev) (p a : Nat) : Option (Nat × Nat) :=
  (partOf d p).objects.find? fun e =>
    let h := e.2
    let b := bufOf d.vat (hPool h) (hIndex h)
    decide (h ≠ 0) && decide (b.gen = hGen h) && decide (b.state = .published)
      && decide (bufAddr d.vat h ≤ a) && decide (a < bufAddr d.vat h + poolBytes (hPool h))

/-- An all-zero descriptor (R258). -/
def Desc.init : Desc := ⟨0, 0, false, false, false, 0, 0, false, false, 0, 0, 0, 0, 0⟩

/-- DESC_COUNT of a partition's descriptor table. -/
def descCount (d : Dev) (p : Nat) : Nat := smGetD 1048576 d.tier.descCount p

/-- The descriptor of an object: all zero at or beyond DESC_COUNT (R258). -/
def descOf (d : Dev) (p obj : Nat) : Desc :=
  if obj < descCount d p then smGetD Desc.init d.tier.descs (p * 2 ^ 24 + obj) else Desc.init

/-- Changes a descriptor; an index at or beyond DESC_COUNT has none to change. -/
def modDesc (d : Dev) (p obj : Nat) (g : Desc → Desc) : Dev :=
  if obj < descCount d p then { d with tier := { d.tier with descs := smModD Desc.init d.tier.descs (p * 2 ^ 24 + obj) g } } else d

/-- A chunk is read from the node replica, in 128 loads of 512 bytes (R278 step 3). -/
def nodeFetch (d : Dev) (inst p node off : Nat) : Dev :=
  (List.range 128).foldl (fun d k =>
    sendPkt d (mkPkt d 1 1 false (mkPlace (myPod d) node (pPart p)) (pFor inst) p p (frameNum d p) (off + 512 * k) k 0 (leBytes 2 16))) d

/-- Poisons an object with a replica and starts the refetch of its chunk in the next cycle (R278): descriptor, event, record, and reads
from the node replica, or from the host replica where the object has no other. -/
def poisonObject (d : Dev) (inst p obj h line cycle : Nat) : Dev :=
  let off := line - bufAddr d.vat h
  let d := if (descOf d p obj).poisoned then d
    else
      let d := modDesc d p obj fun x => { x with poisoned := true, poisonOff := off, poisonFrame := frameNum d p }
      let d := event d (pFor inst) Reg.FOR_EVENTS 1 Reg.FOR_EVT_POISON
      let d := wrN d (pFor inst) Reg.FOR_LAST_POISON (obj + p * 2 ^ 24)
      match frameCtx d p with
      | some c => eventCpl d c 8 (leBytes 4 obj ++ leBytes 8 off)
      | none => d
  let chunk := line / 65536 * 65536
  if d.tier.refetches.any fun r => r.chunk == chunk && r.inst == inst then d
  else
    let x := descOf d p obj
    let due := if x.nodeRep then cycle + remoteT d (hops d (myNode d) x.repNode) + 1024 else 0
    let d := { d with tier := { d.tier with refetches := d.tier.refetches ++ [⟨inst, p, obj, chunk, cycle + 1, due, !x.nodeRep⟩] } }
    if x.nodeRep then nodeFetch d inst p x.repNode (x.repOffset + (chunk - bufAddr d.vat h)) else hostFetch d inst chunk x.hostKey.toNat (chunk - bufAddr d.vat h)

/-- The owner of a lost line (R248): kill, refetch or halt. Answers the state and the chunk that a stalled entry waits for. -/
def lineLost (d : Dev) (inst p line cycle : Nat) : Dev × Option Nat :=
  match objectAt d p line with
  | none => (fileKill d p 2, none)
  | some (obj, h) =>
    let x := descOf d p obj
    if x.nodeRep || x.hostRep then (poisonObject d inst p obj h line cycle, some (line / 65536 * 65536))
    else (haltWith d p 3 (leBytes 4 obj), none)

/-- What a read by an engine meets. -/
structure EngRead where
  dev     : Dev
  late    : Nat                -- cycles by which corrections delay it
  lost    : Bool               -- it gets no data
  stalled : List Nat           -- poisoned chunks it waits for
  remote  : Option Nat         -- the node of staged data that it waits for (R30)
  deriving DecidableEq, Repr

/-- The reads of an engine entry: stores and tiers, in order (R70, R88, R247, R248). Corrections are SCRUB disturbances. `clock` gives the
cycle in which a byte of the data, counted from the first read's `pos`, is met (log entry 121, DEDUCED). `once`: copies that are not
kept serve the read. -/
def engReadAt (d : Dev) (inst p : Nat) (clock : Nat → Nat) (once : Bool) (pos : Nat) : List (Nat × Nat) → EngRead
  | [] => ⟨d, 0, false, [], none⟩
  | (a, n) :: l =>
    if n = 0 then engReadAt d inst p clock once pos l
    else if inStore a then
      let r := scanStores d p (clock pos) [(a, n)]
      if r.2.2 then ⟨r.1, r.2.1, true, [], none⟩
      else
        let q := engReadAt r.1 inst p clock once (pos + n) l
        { q with late := r.2.1 + q.late }
    else
      match unpublished d p a n with
      | some peer => ⟨disturb d p causeRemote 1 0 peer.node, 0, true, [], some peer.node⟩
      | none =>
        let r := tierRead d a n
        let k := r.2.1
        let d := if k = 0 then r.1 else disturb r.1 p causeScrub k (48 * k) (memUnit r.1 a)
        let bad := r.2.2.filter fun x => ((repairOf d x).filter fun q => once || !q.once).isNone
        let o := bad.foldl (fun s x =>
          let y := lineLost s.1 inst p x (clock (pos + (x - a)))
          (y.1, s.2.1 ++ (y.2.map fun c => [c]).getD [], s.2.2 || y.2.isNone)) (d, ([] : List Nat), false)
        if o.2.2 then ⟨o.1, 48 * k, true, [], none⟩
        else
          let q := engReadAt o.1 inst p clock once (pos + n) l
          { q with late := 48 * k + q.late, stalled := o.2.1 ++ q.stalled }

/-- Reads that are all met in one cycle. -/
def engRead (d : Dev) (inst p cycle : Nat) (l : List (Nat × Nat)) : EngRead := engReadAt d inst p (fun _ => cycle) true 0 l

/-- May an entry of a partition start or complete in a cycle: by the cut, which has not passed (R22)? -/
def inFrame (d : Dev) (p cycle : Nat) : Bool := decide (cycle ≤ cutCycle d p) && !(partOf d p).cutTaken

/-- An engine writes bytes into a buffer of a partition in a cycle; lock-step notes them (R464). -/
def engWrite (d : Dev) (p unit record cycle a : Nat) (bs : List Byte) : Dev :=
  absorbing d (storeUnits d a) fun d =>
    keepOld (noteWrite (if inStore a then writeStore d p cycle a bs else tierWrite d a bs) p unit record a bs.length) p a
      (tierBytes d a bs.length)

/-- The owner of an uncorrectable line that no engine reads: a frame's buffer is killed for, a published object is
refetched or lost (R248). -/
def ownerLost (d : Dev) (line : Nat) : Dev :=
  let inBuf := fun (e : Nat × Buf) =>
    let h := mkHandle (e.1 / 2 ^ 20) (e.1 % 2 ^ 20) e.2.gen
    decide (bufAddr d.vat h ≤ line) && decide (line < bufAddr d.vat h + poolBytes (hPool h))
  match d.vat.bufs.find? fun e => decide (3 ≤ e.1 / 2 ^ 20) && decide (e.2.state ≠ .free) && decide (e.2.state ≠ .withheld) && inBuf e with
  | none => d
  | some e =>
    if e.2.state = .frame then fileKill d e.2.part 2
    else if e.2.state = .published then (lineLost d (e.2.part % 2) e.2.part line 0).1
    else d

/-- Charges late cycles of an entry to a cause (R82, R177, R222); cause 0 charges nothing. -/
def charge (d : Dev) (p cause cycles sub : Nat) : Dev := if cause = 0 ∨ cycles = 0 then d else disturb d p cause 1 cycles sub

/-- The cause that delays a partition's own data: its first disturbance of the frame (log entry 30, DEDUCED). -/
def localCause (d : Dev) (p : Nat) : Nat × Nat := ((partOf d p).dist.map fun x => (x.cause, x.sub)).getD (0, 0)

/-! ## Swarm engines, landings and those they hold (08 R196, R213, R222) -/

/-- A Swarm engine with no work. -/
def SwmEng.init : SwmEng := ⟨[], [], false, [], [], []⟩

/-- A Swarm engine. -/
def swmOf (d : Dev) (i : Nat) : SwmEng := smGetD SwmEng.init d.swm i

/-- Changes a Swarm engine. -/
def modSwm (d : Dev) (i : Nat) (g : SwmEng → SwmEng) : Dev := { d with swm := smModD SwmEng.init d.swm i g }

/-- Slice of a slot table entry. -/
def SlotKind.slice : SlotKind → Nat
  | .wgl _ j => j.slice
  | .swm c _ => c.slice
  | .col _ x => x.slice

/-- A Swarm event (R227); COMBINE_DROP and LAND_DROP are of group 3 of R512. -/
def swmEvent (d : Dev) (i bit n : Nat) : Dev :=
  let u := pSwm i
  if bit = 0 ∨ bit = 5 then eventsG d 3 u Reg.SWM_EVENTS bit (Reg.SWM_EVT_LAND_DROP + 4 * bit) n
  else events d u Reg.SWM_EVENTS bit (Reg.SWM_EVT_LAND_DROP + 4 * bit) n

/-- A consumer is held for n cycles by a unit of a node that has not landed (R222). -/
def heldOn (d : Dev) (i p n node : Nat) : Dev :=
  if n = 0 then d
  else disturb (swmEvent (bump d (pSwm i) Reg.SWM_LATE_CYCLES n) i 2 1) p causeRemote 1 n node

/-- How late a LAND is: the cycle of its completion, 2^32 before it. -/
def landLate (d : Dev) (e : SlotEnt) : Nat :=
  match (swmOf d e.inst).runs.find? fun r => r.id == e.index with
  | some r => if r.fin then r.due else 2 ^ 32
  | none => 2 ^ 32

/-- The LANDs of a slice, on either engine, whose NOTIFY is a tag of a cell slot: the one that is latest, as its engine and the node
that sends it units (R222). -/
def landNotifying (d : Dev) (img : Image) (sl slot tag : Nat) : Option (Nat × Nat) :=
  let l := img.entries.filterMap fun e => match e.what with
    | .swm c (.land _) =>
      if c.slice = sl ∧ c.notifyEn ∧ c.notifySlot = slot ∧ c.notifyTag.val = tag then
        some (landLate d e, e.inst, ((smGet (swmOf d e.inst).lands e.index).bind Landing.peer).getD c.peer.node)
      else none
    | _ => none
  (l.foldl (fun (m : Option (Nat × Nat × Nat)) e => match m with
    | none => some e
    | some q => if q.1 < e.1 then some e else some q) none).map Prod.snd

/-- A cell of a partition is held on a tag for n cycles: when a LAND of the slice advances it, the hold is the LAND's (R222). -/
def heldCell (d : Dev) (c tag n : Nat) : Dev :=
  let p := cellPart d c
  match runImage d p with
  | none => d
  | some (_, _, img, sl) => match landNotifying d img sl ((partCells d p).idxOf c) tag with
    | some (i, node) => heldOn d i p n node
    | none => d

end Sys2Proof.Machine
end

