-- ==== Sys2Proof/Machine/Remote.lean ====
section
/-! DEFINITION. Remote operations at their target (13): windows, checks and refusals, staging, publication, triggers, markers
(01 R28 to R31), queries and teardown (R348, R349). -/

namespace Sys2Proof.Machine

/-! ## Windows and refusals -/

/-- Does a window cover a range? -/
def covers (w : WindowEntry) (a n : Nat) : Bool := decide (w.base ≤ a) && decide (a + n ≤ w.base + w.length)

/-- The first window that covers a range (log entry 78, DEDUCED). -/
def windowOf (pr : Propolis) (a n : Nat) : Option WindowEntry :=
  (pr.windows.find? fun e => covers e.2 a n).map Prod.snd

/-- Members of the job of a partition (R339) (log entry 81, DEDUCED). -/
def jobMembers (d : Dev) (p : Nat) : List Peer := smGetD [] d.rmt.members p

/-- Is a source granted by node range and partition bits? -/
def srcIn (lo hi : Nat) (parts : BitVec 16) (s : Peer) : Bool :=
  decide (lo ≤ s.node) && decide (s.node ≤ hi) && bitAt parts.toNat s.part.val

/-- The rights of a window by request type: 1 RLOAD, 2 RSTORE, 3 RATOMIC. -/
def windowRight (w : WindowEntry) (type : Nat) : Bool :=
  if type = 1 then w.load else if type = 2 then w.store else w.atomic

/-- Is a comb store out of reach: its comb is QUIESCED or being reset (Table 13-3)? -/
def combAway (d : Dev) (a : Nat) : Bool :=
  match whereIs d a with
  | .comb k => stateIs d (pComb k) .quiesced || stateIs d (pComb k) .resetting
  | _ => false

/-- Sources that the commit map of the running slice lists (R341). -/
def commitSource (d : Dev) (p : Nat) (s : Peer) : Bool :=
  match runImage d p with
  | none => false
  | some (_, _, i, sl) => i.commitMap.any fun e => e.slice == sl && e.source && decide (e.peer = s)

/-- The checks of Table 13-3 from order 2 on: 0, or the refusal code; the write-back caches give no right (R260)
(log entry 112, DESIGN CHOICE). -/
def requestCode (d : Dev) (pr : Propolis) (r : RemReq) (type n : Nat) : Nat :=
  match windowOf pr r.addr n with
  | none => 1
  | some w =>
    let own := w.owner.val
    if !srcIn w.srcLo w.srcHi w.srcParts r.src || (!w.replica && !(jobMembers d own).contains r.src) then 2
    else if !windowRight w type then 3
    else if inCaches d r.addr n then 3
    else if type ≠ 1 ∧ r.destPart.val ≠ own then 4
    else if type = 3 ∧ r.addr % n ≠ 0 then 5
    else if !rangeOk d r.addr n || combAway d r.addr then 6
    else if type ≠ 1 ∧ !commitSource d own r.src then 7
    else 0

/-- The partition whose frame a request is checked against: for an RLOAD the owner of its window, else DEST_PART; none for a
replica window (R338, R339). -/
def framePart (pr : Propolis) (r : RemReq) (type n : Nat) : Option Nat :=
  if type ≠ 1 then some r.destPart.val
  else match windowOf pr r.addr n with
    | some w => if w.replica then none else some w.owner.val
    | none => none

/-- What R338 makes of a request's frame. -/
inductive FrameAns where
  | go | hold | stale
  deriving DecidableEq, Repr

/-- The frame check (R338). -/
def frameAns (d : Dev) (p : Option Nat) (frame : Nat) : FrameAns :=
  match p with
  | none => .go
  | some p =>
    let now := frameNum d p
    if frame = now then .go
    else if frame = (now + 1) % 65536 ∧ (partOf d p).cutTaken then .hold
    else .stale

/-- The unit path and identity that a reply carries back (R306, R337). -/
def reply (d : Dev) (r : RemReq) (p type off : Nat) (payload : List Byte) : Dev :=
  sendPkt d (mkPkt d 1 type false (mkPlace (myPod d) r.src.node (pCell (r.reqId.toNat % 256))) (pPart p) r.src.part.val p r.frame
    off r.reqId.toNat 0 payload)

/-- A refusal: event, record and REFUSE packet (R340). -/
def refuse (d : Dev) (r : RemReq) (p code : Nat) : Dev :=
  let u := pPart p
  let d := event d u Reg.CTL_RMT_EVENTS 1 Reg.CTL_EVT_REFUSED
  let d := wrN d u Reg.CTL_RMT_LAST_REFUSE (code + 16 * (r.src.node % 2048) + 2 ^ 15 * r.src.part.val)
  reply d r p 6 0 [BitVec.ofNat 8 code]

/-- A stale request is dropped (R338). -/
def staleRequest (d : Dev) (p : Nat) : Dev := event d (pPart p) Reg.CTL_RMT_EVENTS 0 Reg.CTL_EVT_STALE_REQUEST

/-- Runs a request past the frame check: held, dropped, refused or served. -/
def admitRequest (d : Dev) (pr : Propolis) (r : RemReq) (type n : Nat) (hold : HeldReq) (act : Dev → Nat → Dev) : Dev :=
  let fp := framePart pr r type n
  absorbing d [pPart (fp.getD r.destPart.val)] fun d =>
  match frameAns d fp r.frame with
  | .stale => staleRequest d (fp.getD 0)
  | .hold => { d with rmt := { d.rmt with waiting := d.rmt.waiting ++ [hold] } }
  | .go =>
    let p := match windowOf pr r.addr n with
      | some w => if type = 1 then w.owner.val else r.destPart.val
      | none => r.destPart.val
    match requestCode d pr r type n with
    | 0 => act d p
    | c => refuse d r p c

/-- The RLOAD data leaves in packets of 512 bytes, each with its offset (log entry 22, DEDUCED). -/
def sendData (d : Dev) (r : RemReq) (p : Nat) (l : List Byte) : Dev :=
  (splitPayload l).foldl (fun d e => reply d r p 5 e.1 e.2) d

/-- A read of a partition's published state: a corrected sector or line is late and a SCRUB disturbance; a poisoned or uncorrectable one
gives no data, and its owner is treated (R70, R88, R247 to R249). -/
def readPublished (d : Dev) (p a n : Nat) : Dev × Bool :=
  if inStore a then
    let r := scanStores d p (storeNow d a) [(a, n)]
    (r.1, !r.2.2)
  else
    let r := tierRead d a n
    let d := if r.2.1 = 0 then r.1 else disturb r.1 p causeScrub r.2.1 (48 * r.2.1) (memUnit r.1 a)
    let bad := r.2.2.filter fun x => (repairOf d x).isNone
    (bad.foldl ownerLost d, bad.isEmpty)

/-- The data of a published range: what a repair area holds is read there (R279). -/
def publishedBytes (d : Dev) (a n : Nat) : List Byte :=
  (pubBytes d a n).zipIdx.map fun e => match repairOf d (a + e.2) with
    | some r => if inStore a then e.1 else smGetD 0 r.data ((a + e.2) % 65536)
    | none => e.1

/-- A data error (R248): a REFUSE packet with code 6, which is no refusal of R340 (log entry 112, DESIGN CHOICE). -/
def dataError (d : Dev) (r : RemReq) (p : Nat) : Dev := reply d r p 6 0 [6]

/-- RLOAD at the target (R337). -/
def targetLoad (d : Dev) (pr : Propolis) (r : RemReq) (sectors : Nat) : Dev :=
  let n := 32 * sectors
  admitRequest d pr r 1 n (.rload r sectors) fun d p =>
    let v := readPublished d p r.addr n
    if v.2 then bump (sendData v.1 r p (publishedBytes v.1 r.addr n)) (pPart p) Reg.CTL_RMT_LOADS_SERVED 1 else dataError v.1 r p

/-! ## Staging (R343) -/

/-- Payload bytes of a staged operation; an atomic counts 32 (R341). -/
def stagedBytes (o : StagedOp) : Nat :=
  match o.what with
  | .store l => l.length
  | .atomic _ _ _ _ => 32
  | .unit _ _ l => l.length

/-- Staging reserved for a source: three times the largest MAX_BYTES that a slice of a loaded image gives it (R343). -/
def stagingFor (d : Dev) (p : Nat) (s : Peer) : Nat :=
  3 * (images d p).foldl (fun n e => e.2.commitMap.foldl (fun n c =>
    if c.source && decide (c.peer = s) then max n c.maxBytes else n) n) 0

/-- Stages an operation and acknowledges it, or drops it when the source's staging is full. -/
def stage (d : Dev) (r : RemReq) (p pair : Nat) (what : StagedDo) (ack : Dev → Dev) : Dev :=
  let o : StagedOp := ⟨p, r.src, r.frame, pair, r.addr, what⟩
  let used := (d.rmt.staging.filter fun q => q.part == p && decide (q.src = r.src)).foldl (fun n q => n + stagedBytes q) 0
  if stagingFor d p r.src < used + stagedBytes o then
    event d (pPart p) Reg.CTL_RMT_EVENTS 2 Reg.CTL_EVT_STAGE_FULL
  else
    let d := { d with rmt := { d.rmt with staging := d.rmt.staging ++ [o] } }
    ack (bump d (pPart p) Reg.CTL_RMT_STAGED_BYTES (stagedBytes o))

/-- RSTORE at the target: into staging for its source and frame. -/
def targetStore (d : Dev) (pr : Propolis) (r : RemReq) (pair : Nat) (data : List Byte) : Dev :=
  admitRequest d pr r 2 data.length (.rstore r pair data) fun d p =>
    stage d r p pair (.store data) fun d => reply d r p 5 0 []

/-- RATOMIC at the target: it answers the published word and stages the operation (R346). -/
def targetAtomic (d : Dev) (pr : Propolis) (r : RemReq) (pair : Nat) (op : AtomOp) (wide : Bool)
    (operand compare : W64) : Dev :=
  let n := if wide then 8 else 4
  admitRequest d pr r 3 n (.ratomic r pair op wide operand compare) fun d p =>
    let v := readPublished d p r.addr n
    if v.2 then stage v.1 r p pair (.atomic op wide operand compare) fun d => reply d r p 5 0 (publishedBytes d r.addr n)
    else dataError v.1 r p

/-! ## Triggers (R112, R347) -/

/-- Does a trigger entry match? -/
def triggerMatch (e : TriggerEntry) (p c id : Nat) (s : Peer) : Bool :=
  decide (e.targetPart.val = p) && decide (e.targetCell.val = c) && decide (e.idLo ≤ id) && decide (id ≤ e.idHi)
    && srcIn e.srcLo e.srcHi e.srcParts s

/-- The triggered stream of a cell with a trigger number. -/
def trigStream (x : CellSt) (id : Nat) : Option Nat :=
  (List.range 8).find? fun s => match (strmOf x s).desc with
    | some e => e.enable && e.triggered && e.trigId == id
    | none => false

/-- Why the argument of a triggered stream cannot be written (Table 04-13): code 1 ALIGN, 2 RANGE; 0 when it can. -/
def argCode (off : Nat) : Nat := if off % 32 ≠ 0 then 1 else if opTop < off + 32 then 2 else 0

/-- A stream whose argument has no place fails at its first record (R115). -/
def argFail (d : Dev) (c s code : Nat) : Dev :=
  let x := cellOf d c
  let i := nextRec (strmOf x s)
  recordFail d c s i (((decodeRec (blockRec x.buffer i)).map fun e => e.1.recordId).getD 0) code 0

/-- RTRIG at the target: its argument is written and its stream starts in the fourth cycle after arrival, or at cycle 0 when
it arrived before it. -/
def targetTrig (d : Dev) (pr : Propolis) (r : RemReq) (c id : Nat) (arg : List Byte) (cycle : Nat) (early : Bool) : Dev :=
  let p := r.destPart.val
  absorbing d (pPart p :: cellUnits d c) fun d =>
  match frameAns d (some p) r.frame with
  | .stale => staleRequest d p
  | .hold => { d with rmt := { d.rmt with waiting := d.rmt.waiting ++ [.rtrig r c id arg] } }
  | .go =>
    if !(pr.triggers.any fun e => triggerMatch e.2 p c id r.src) then refuse d r p 8
    else match trigStream (cellOf d c) id with
      | none => refuse d r p 9
      | some s =>
        if (partOf d p).cutTaken then refuse (event d (pCell c) Reg.CEL_FE_EVENTS 2 Reg.CEL_EVT_TRIGGER_LATE) r p 10
        else
          let x := strmOf (cellOf d c) s
          if x.trigCyc.isSome then refuse (event d (pCell c) Reg.CEL_FE_EVENTS 3 Reg.CEL_EVT_TRIGGER_DUP) r p 11
          else
            let off := (x.desc.map StreamDesc.argOffset).getD 0
            if argCode off ≠ 0 then argFail d c s (argCode off)
            else
            let d := cellWrite d c 0xFFFF (cellAddr c off) (sliceBytes arg 0 32)
            let d := modStrm d c s fun x => { x with state := .running, trigCyc := some (if early then 0 else cycle + 4) }
            reply d r p 5 0 []

/-- Requests held from the commit window are handled at cycle 0 of their frame (R338). -/
def releaseHeld (pr : Propolis) (p : Nat) : List HeldReq → Dev → Dev
  | [], d => d
  | h :: l, d =>
    let part := match h with
      | .rload r n => (framePart pr r 1 (32 * n)).getD r.destPart.val
      | .rstore r _ _ => r.destPart.val
      | .ratomic r _ _ _ _ _ => r.destPart.val
      | .rtrig r _ _ _ => r.destPart.val
    if part ≠ p then releaseHeld pr p l { d with rmt := { d.rmt with waiting := d.rmt.waiting ++ [h] } }
    else releaseHeld pr p l (match h with
      | .rload r n => targetLoad d pr r n
      | .rstore r k b => targetStore d pr r k b
      | .ratomic r k o w x y => targetAtomic d pr r k o w x y
      | .rtrig r c i b => targetTrig d pr r c i b 0 true)

/-- HELD_REQUEST_RELEASE of a partition, once its tick is past. -/
def heldRelease (d : Dev) (pr : Propolis) (p : Nat) : Dev :=
  if (partOf d p).cutTaken then d
  else releaseHeld pr p d.rmt.waiting { d with rmt := { d.rmt with waiting := [] } }

/-! ## Markers and publication (R28 to R31, R344, R345) -/

/-- A marker arrives: an abort discards the staging of its frame, a commit is held; a duplicate is ignored (R29, R31). -/
def markerIn (d : Dev) (p : Nat) (src : Peer) (frame : Nat) (commit : Bool) : Dev :=
  if d.rmt.held.any fun m => m.part == p && decide (m.peer = src) && m.frame == frame then d
  else
    let r := d.rmt
    let r := { r with held := r.held ++ [⟨p, src, frame, commit, false⟩]
                      lateAsk := r.lateAsk.filter fun m => !(m.part == p && decide (m.peer = src) && m.frame == frame) }
    let r := if commit then r
      else { r with staging := r.staging.filter fun o => !(o.part == p && decide (o.src = src) && o.frame == frame) }
    let gone := fun (b : ColBlk) => !commit && b.staged && b.ready.isNone && b.node == src.node && b.pod == myPod d && b.frame == frame
      && d.col.binds.any fun q => q.gid == b.gid && q.part == p
    { d with rmt := r, col := { d.col with blks := d.col.blks.filter fun b => !gone b } }

/-- At a completion cut the partition holds the markers received so far. -/
def markersAtCut (d : Dev) (p : Nat) : Dev :=
  { d with rmt := { d.rmt with held := d.rmt.held.map fun m => if m.part = p then { m with atCut := true } else m } }

/-- Does a commit map of a partition's images name a source (R31, R341)? -/
def mapNames (d : Dev) (p : Nat) (src : Peer) : Bool :=
  (images d p).any fun e => e.2.commitMap.any fun m => m.source && decide (m.peer = src)

/-- Has the completion cut of the tick that ends frame F + n passed in a partition? -/
def cutPast (d : Dev) (p frame n : Nat) : Bool :=
  let k := serialDiff (frameNum d p) frame
  decide ((n : Int) < k) || (decide (k = n) && (partOf d p).cutTaken)

/-- A marker named in the commit map is not held at the completion cut of the tick that ends F + 2: MARKER_LATE, and the agent is asked
to query its source (R31). -/
def markerMissing (d : Dev) (p : Nat) (src : Peer) (frame : Nat) : Dev :=
  if d.rmt.held.any (fun m => m.part == p && decide (m.peer = src) && m.frame == frame && m.atCut)
      || !mapNames d p src || !cutPast d p frame 2 then d
  else
    let d := event d (pPart p) Reg.CTL_FRAME_STATUS 4 Reg.CTL_EVT_MARKER_LATE
    { d with rmt := { d.rmt with lateAsk := d.rmt.lateAsk ++ [⟨p, src, frame, true, false⟩] } }

/-- The sort key of R344: frame, node, partition, PAIR_COUNT. -/
def publishKey (now : Nat) (o : StagedOp) : Nat :=
  let f := (o.frame + 32768 + 65536 - now % 65536) % 65536
  ((f * 2048 + o.src.node) * 16 + o.src.part.val) * 65536 + o.pair

/-- Inserts a staged operation by its key. -/
def stagedInsert (now : Nat) (o : StagedOp) : List StagedOp → List StagedOp
  | [] => [o]
  | q :: l => if publishKey now o < publishKey now q then o :: q :: l else q :: stagedInsert now o l

/-- Staged operations in the order of R344. -/
def stagedSort (now : Nat) (l : List StagedOp) : List StagedOp := l.foldl (fun acc o => stagedInsert now o acc) []

/-- The new value of a word (Table 13-5), on `n` bits. -/
def atomicNew (op : AtomOp) (n : Nat) (w operand compare : Nat) : Nat :=
  let sg := fun (v : Nat) => if v % 2 ^ n < 2 ^ (n - 1) then ((v % 2 ^ n : Nat) : Int) else ((v % 2 ^ n : Nat) : Int) - 2 ^ n
  let o := operand % 2 ^ n
  match op with
  | .add => (w + o) % 2 ^ n
  | .min => if sg w ≤ sg o then w else o
  | .max => if sg w ≤ sg o then o else w
  | .swap => o
  | .cas => if w = compare % 2 ^ n then o else w
  | .and => w &&& o
  | .or => w ||| o

/-- Has a staged operation a window, and its receive buffer still PUBLISHED (R345)? -/
def publishable (d : Dev) (pr : Propolis) (o : StagedOp) (n : Nat) : Bool :=
  pr.windows.any fun e =>
    let w := e.2
    let h := smGetD 0 (partOf d o.part).objects w.recvObject
    let b := bufOf d.vat (hPool h) (hIndex h)
    covers w o.addr n && w.owner.val == o.part && (match o.what with
      | .store _ => w.store
      | .atomic _ _ _ _ => w.atomic
      | .unit _ _ _ => false)
      && decide (h ≠ 0) && decide (b.gen = hGen h) && decide (b.state = .published)
      && decide (bufAddr d.vat h ≤ o.addr) && decide (o.addr + n ≤ bufAddr d.vat h + poolBytes (hPool h))

/-- Writes bytes in a tier or a store. -/
def writeAnywhere (d : Dev) (a : Nat) (bs : List Byte) : Dev :=
  absorbing d (storeUnits d a) fun d => if inStore a then writeBytes d a bs else tierWrite d a bs

/-- Applies one staged store or atomic in place (R345, R346). -/
def publishOp (pr : Propolis) (d : Dev) (o : StagedOp) : Dev :=
  let n := o.bytes
  if !publishable d pr o n then event d (pPart o.part) Reg.CTL_RMT_EVENTS 3 Reg.CTL_EVT_PUBLISH_DROP
  else
    let d := noteWrite d o.part (pPart o.part) 0xFFFF o.addr n
    let d := match o.what with
      | .store l => writeAnywhere d o.addr l
      | .atomic op _ x y =>
        writeAnywhere d o.addr (leBytes n (atomicNew op (8 * n) (leNat (tierBytes d o.addr n)) x.toNat y.toNat))
      | .unit _ _ _ => d
    bump d (pPart o.part) Reg.CTL_RMT_PUBLISHED_BYTES (stagedBytes o)

/-- The LAND entry of a staged tag in a partition's images (R221). -/
def stagedLand (d : Dev) (p tag : Nat) (src : Peer) : Option (Image × SwmCommon × LandOps) :=
  (images d p).findSome? fun e => e.2.entries.findSome? fun x => match x.what with
    | .swm c (.land l) => if c.tag = tag ∧ c.delivery.val = 2 ∧ c.peer = src then some (e.2, c, l) else none
    | _ => none

/-- Is the publication of an operation due at the tick that ends frame `now` (R29)? -/
def publishDue (d : Dev) (now : Nat) (o : StagedOp) : Bool :=
  decide (1 ≤ serialDiff now o.frame) && d.rmt.held.any fun m =>
    m.part == o.part && decide (m.peer = o.src) && m.frame == o.frame && m.commit && m.atCut

/-- Is a staged operation part of a span-mode unit? -/
def StagedOp.isUnit (o : StagedOp) : Bool :=
  match o.what with
  | .unit _ _ _ => true
  | _ => false

/-- The staged operations of a partition that are due at the tick that ends frame `now`, in the order of R344: units, or the others. -/
def stagedDue (d : Dev) (p now : Nat) (units : Bool) : List StagedOp :=
  stagedSort now (d.rmt.staging.filter fun o => o.part == p && o.isUnit == units && publishDue d now o)

/-- Step 7: publishes the stores and atomics that are due, in order, and forgets what was staged and the markers older than 16 frames
(R31, R344); units go with their LANDs (R221). -/
def publishStaged (d : Dev) (pr : Propolis) (p now : Nat) : Dev :=
  let rest := d.rmt.staging.filter fun o => !(o.part == p && !o.isUnit && publishDue d now o)
  let keep := fun (m : Marker) => m.part != p || decide (serialDiff now m.frame < 16)
  (stagedDue d p now false).foldl (publishOp pr) { d with rmt := { d.rmt with
    staging := rest, held := d.rmt.held.filter keep, sent := d.rmt.sent.filter keep } }

/-! ## Sending markers (R28) -/

/-- A marker packet: counted, fenced, scheduled (R28, R310). -/
def sendMarker (d : Dev) (p : Nat) (dest : Peer) (frame : Nat) (commit : Bool) : Dev :=
  sendPkt d (mkPkt d 0 (if commit then 7 else 8) true (mkPlace (myPod d) dest.node (pPart dest.part.val)) (pPart p) dest.part.val p
    frame 0 0 0 [])

/-- Step 5: one marker to every target of the slice (R28); the device keeps its markers for 16 frames (R31). -/
def sendMarkers (d : Dev) (p frame : Nat) (commit : Bool) : Dev :=
  match runImage d p with
  | none => d
  | some (_, _, i, sl) =>
    (i.commitMap.filter fun e => e.slice == sl && !e.source).foldl (fun d e =>
      let d := sendMarker d p e.peer frame commit
      { d with rmt := { d.rmt with sent := d.rmt.sent ++ [⟨p, e.peer, frame, commit, false⟩] } }) d

/-! ## Queries (R348) -/

/-- A MANAGE message; the spec gives its content no layout, so it carries none (log entry 25, DESIGN CHOICE). -/
def sendManage (d : Dev) (node p cls : Nat) : Dev :=
  sendPkt d (mkPkt d cls 11 false (mkPlace (myPod d) node pDev) pDev p p (frameNum d p) 0 0 0 [])

/-- An exchange group with no votes. -/
def GroupSt.init : GroupSt := ⟨[], none, none, none, []⟩

/-- The exchange group of a partition. -/
def grpOf (d : Dev) (p : Nat) : GroupSt := smGetD GroupSt.init d.groups p

/-- Changes the exchange group of a partition. -/
def modGrp (d : Dev) (p : Nat) (g : GroupSt → GroupSt) : Dev := { d with groups := smModD GroupSt.init d.groups p g }

/-- The members of a partition's exchange group that lie on a node (R204). -/
def groupOn (d : Dev) (p node : Nat) : List Nat :=
  match runImage d p with
  | none => []
  | some (_, _, img, _) => (img.exch.zipIdx.filter fun m => m.1.node == node).map Prod.snd

/-- May the agent query: the causes of R348, R223, R322 and R367. -/
def queryDue (d : Dev) (p node : Nat) (why : QueryWhy) : Bool :=
  match why with
  | .overruns =>
    let r := smGetD (0, 0) d.rmt.remoteRow p
    r.1 == node && decide (rdF d (pPart p) Reg.CTL_RMT_QUERY_CFG 3 0 ≤ r.2)
  | .markerLate => d.rmt.lateAsk.any fun m => m.part == p && m.peer.node == node
  | .votesMissing => (groupOn d p node).any fun m => decide (4 ≤ smGetD 0 (grpOf d p).missing m)
  | .splitVote => decide ((grpOf d p).split.map Prod.snd = some node)
  | _ => true

/-- The fabric manager agent queries a node: MANAGE on the dimension-order route and on the escape channel. -/
def queryNode (d : Dev) (p node : Nat) (why : QueryWhy) : Dev :=
  if !queryDue d p node why then d
  else
    let d := event d (pPart p) Reg.CTL_RMT_EVENTS 4 Reg.CTL_EVT_QUERY
    let d := sendManage (sendManage d node p 1) node p 2
    { d with rmt := { d.rmt with queries := d.rmt.queries ++ [⟨p, node, why, false⟩] } }

/-! ## Teardown (R349) -/

/-- Partitions of this device whose job has a member on a node. -/
def partsWith (d : Dev) (node : Nat) : List Nat :=
  (List.range 16).filter fun p => (jobMembers d p).any fun m => m.node == node

/-- The node of a held request's source, and the partition it is for. -/
def heldSrc : HeldReq → Peer
  | .rload r _ => r.src
  | .rstore r _ _ => r.src
  | .ratomic r _ _ _ _ _ => r.src
  | .rtrig r _ _ _ => r.src

/-- Steps 2, 3 and 5 of Table 13-8 at a member partition; the entries that grant the dead node are closed once the staging
that is still due has been published (step 4, `closeDead`). -/
def tearDown (d : Dev) (p node : Nat) : Dev :=
  if (smGetD [] d.rmt.members p).isEmpty then d
  else
    let held := fun (o : StagedOp) => d.rmt.held.any fun m =>
      m.part == p && decide (m.peer = o.src) && m.frame == o.frame && m.commit
    let now := frameNum d p
    let d := haltPart (fileKill d p 3) p
    let r := d.rmt
    let d := { d with rmt := { r with
      staging := r.staging.filter fun o => o.part != p || (o.src.node != node && held o)
      waiting := r.waiting.filter fun h => (heldSrc h).node != node
      queries := r.queries.filter fun q => q.node != node
      torn := r.torn ++ [(p, node)] } }
    let last := (now + 65535) % 65536
    let d := wrN d (pPart p) Reg.CTL_RMT_TEARDOWN (node % 2048 + last * 65536)
    let d := event d (pPart p) Reg.CTL_RMT_EVENTS 5 Reg.CTL_EVT_TEARDOWN
    let d := classEvent d 5 (pPart p) now
    ((ctxsOf d p).filter fun c => (ctxOf d c).image.isSome).foldl (fun d c =>
      eventCpl d c 5 (leBytes 2 node ++ leBytes 2 last)) d

/-- The changes that close every window and trigger of a partition that grants a node (step 4). -/
def closeDead (pr : Propolis) (p node : Nat) : List PropChange :=
  (pr.windows.filter fun e => e.2.owner.val == p && decide (e.2.srcLo ≤ node) && decide (node ≤ e.2.srcHi)).map
      (fun e => .window e.1 p none)
    ++ (pr.triggers.filter fun e => e.2.targetPart.val == p && decide (e.2.srcLo ≤ node) && decide (node ≤ e.2.srcHi)).map
      fun e => .trigger e.1 p none

/-- A node is found dead: its agent sends the teardown to every live member and tears its own partitions down. -/
def nodeDead (d : Dev) (node : Nat) : Dev :=
  (partsWith d node).foldl (fun d p =>
    let others := ((jobMembers d p).map Peer.node).filter fun n => n != node && n != myNode d
    tearDown (others.foldl (fun d n => sendManage d n p 1) d) p node) d

/-- 10 ms after a query: an unanswered one finds the node dead, unless the tray controller reports the device ready, and
then the agent asks again (R348). -/
def queryEnd (d : Dev) (node : Nat) (ready : Bool) : Dev :=
  let open_ := d.rmt.queries.filter fun q => q.node == node && !q.answered
  let d := { d with rmt := { d.rmt with queries := d.rmt.queries.filter fun q => q.node != node } }
  match open_ with
  | [] => d
  | q :: _ => if ready then queryNode d q.part node q.why else nodeDead d node

/-- A query reaches this device: it answers, sends a kept marker again, or reports a packet count (R31, R322, R348). -/
def queryAsked (d : Dev) (src : Peer) (p : Nat) (ask : QueryAsk) : Dev :=
  match ask with
  | .alive => sendManage d src.node p 1
  | .marker dest frame =>
    let d := sendManage d src.node p 1
    match d.rmt.sent.find? fun m => m.part == p && decide (m.peer = dest) && m.frame == frame with
    | some m => sendMarker d p dest frame m.commit
    | none => d
  | .packetsSent dest part frame =>
    sendPkt d (mkPkt d 1 11 false (mkPlace (myPod d) src.node pDev) pDev p part.val frame 0 0 0
      (leBytes 4 (pairNext d part.val dest frame)))

/-- The answer to a query (R223, R322, R348): the node is live; a source that sent more packets than have arrived lost some
in a committed frame, and the job is torn down. -/
def queryAnswered (d : Dev) (node p : Nat) (r : QueryReport) : Dev :=
  let open_ := d.rmt.queries.filter fun q => q.node == node && q.part == p
  let d := { d with rmt := { d.rmt with queries := d.rmt.queries.map fun q =>
    if q.node = node then { q with answered := true } else q } }
  let why := (open_.map Query.why)
  match r with
  | .alive => if why.contains .collective then tearDown d p node else d
  | .packetsSent part frame count =>
    let seen := ((smGetD [] d.fab.arrivals (node * 16 + part.val)).find? fun e => e.1 == frame).map Prod.snd
    if seen.getD 0 < count then tearDown d p node else d
  | _ => d

end Sys2Proof.Machine
end

