-- ==== Sys2Proof/Machine/Fabric.lean ====
section
/-! DEFINITION. The device's switch (12): routes, escape, arrival and ordering, fences, link retries and training, spare ports
and fault injection. -/

namespace Sys2Proof.Machine

/-! ## Ports -/

/-- Lanes of a port that do not qualify: more corrected symbols than a limit, or all of them when the port saw a bad codeword (R427). -/
def lanesOut (limit lanes : Nat) (q : Qual) : Nat :=
  if q.bad then lanes else ((List.range lanes).filter fun l => decide (limit < q.symbols.getD l 0)).length


/-- A Bollum port without traffic. -/
def BolPort.init : BolPort := ⟨[], 0, [], [], 0, 0, [], 0, false, [], 0, 0, [], false, false⟩

/-- A Bollum port. -/
def bolOf (d : Dev) (i : Nat) : BolPort := smGetD BolPort.init d.fab.ports i

/-- Changes a Bollum port. -/
def modBol (d : Dev) (i : Nat) (g : BolPort → BolPort) : Dev :=
  { d with fab := { d.fab with ports := smModD BolPort.init d.fab.ports i g } }

/-- STATE of a port: 0 DOWN, 1 TRAINING, 2 AUTHENTICATING, 3 UP, 4 DEGRADED, 5 REV1, 6 IDLE, 7 LOCKSTEP. -/
def bolState (d : Dev) (i : Nat) : Nat := rdF d (pBol i) Reg.BOL_PORT_STATUS 2 0

/-- Sets STATE of a port. -/
def setBol (d : Dev) (i s : Nat) : Dev := wrF d (pBol i) Reg.BOL_PORT_STATUS 2 0 s

/-- Is a port UP or DEGRADED? -/
def usable (d : Dev) (i : Nat) : Bool := d.fuses.bol i && (bolState d i == 3 || bolState d i == 4)

/-- Dimension of a port: 1 X, 2 Y, 3 Z (BOL_HOT). -/
def portDim (i : Nat) : Nat := if i < 14 then 1 else if i < 22 then 2 else if i < 30 then 3 else 1

/-- The role in force of a spare port. -/
def spareRole (d : Dev) (i : Nat) : Nat := fld ((bolOf d i).role.setWidth 64) 1 0

/-- The port a spare stands in for. -/
def standsFor (d : Dev) (i : Nat) : Nat := fld ((bolOf d i).role.setWidth 64) 12 8

/-- A Z port of a pod of one rack has no partner and stays DOWN (R303). -/
def noPartner (d : Dev) (i : Nat) : Bool := decide (nRacks d = 1) && decide (22 ≤ i) && decide (i < 30)

/-! ## Routes (R315) -/

/-- A bundle's ports in service; a spare that stands in replaces its port. -/
def bundle (d : Dev) (ps : List Nat) : List Nat :=
  ps.filterMap fun p =>
    if usable d p then some p
    else [30, 31].find? fun s => usable d s && spareRole d s == 1 && standsFor d s == p

/-- The X bundle toward a slot. -/
def xBundle (d : Dev) (t : Nat) : List Nat :=
  let k := (t + 16 - nSlot (myNode d) - 1) % 8
  bundle d [2 * k, 2 * k + 1]

/-- The bundle of a ring in a direction; `base` is 14 for Y and 22 for Z. -/
def ringBundle (d : Dev) (base : Nat) (dir : Int) : List Nat :=
  let b := if dir = 1 then base else base + 4
  bundle d [b, b + 1, b + 2, b + 3]

/-- The X bundle of a route: through the lowest other slot when the whole bundle has failed. -/
def xRoute (d : Dev) (t : Nat) : List Nat :=
  let b := xBundle d t
  if !b.isEmpty then b
  else match (List.range 8).find? fun m => m != nSlot (myNode d) && m != t && !(xBundle d m).isEmpty with
    | some m => xBundle d m
    | none => []

/-- The minimal bundles of a destination node, in X, Y, Z order of the dimensions not resolved. -/
def minimalBundles (d : Dev) (node : Nat) : List (List Nat) :=
  let me := myNode d
  let ring := fun (base mine theirs size : Nat) =>
    let s := ringDir mine theirs size
    if s = 0 then []
    else
      let b := ringBundle d base s
      [if b.isEmpty then ringBundle d base (-s) else b]
  (if nSlot node ≠ nSlot me then [xRoute d (nSlot node)] else [])
    ++ ring 14 (nTray me) (nTray node) 16 ++ ring 22 (nRack me) (nRack node) (max 1 (nRacks d))

/-- Rotates a list left. -/
def rotate (l : List Nat) (n : Nat) : List Nat := if l.isEmpty then l else l.drop (n % l.length) ++ l.take (n % l.length)

/-- The order of non-minimal deflection: X, Y, Z ports, then spares in role 1. -/
def nonminimal (d : Dev) : List Nat :=
  (List.range 30).filter (usable d) ++ [30, 31].filter fun s => usable d s && spareRole d s == 1

/-- Deflection limit (BOL_FABRIC_CFG). -/
def deflectLimit (d : Dev) : Nat := rdF d pDev Reg.BOL_FABRIC_CFG 3 0

/-! ## Sending (R324, R333) -/

/-- Changes a packet's port-dependent fields on a revision 1 link, which carries the dynamic class alone (R330). -/
def rev1Pkt (p : Pkt) : Pkt := { p with lane := 0, pair := 0, cls := 1 }

/-- A packet joins the retry buffer of its port, which holds 128 (R324). -/
def keepRetry (l : List Pkt) (p : Pkt) : List Pkt := (l ++ [p]).drop (l.length + 1 - 128)

/-- RETRY of a port (R324): its event, and LINK_RETRAIN for the loaded partitions that hold the port: 600 ns each
(log entry 29, DEDUCED). -/
def retryEvent (d : Dev) (i : Nat) : Dev :=
  let d := event d (pBol i) Reg.BOL_PORT_EVENTS 0 Reg.BOL_EVT_RETRY
  ((List.range 16).filter fun p => rdB d (pPart p) Reg.CTL_PART_PORTS i && loaded d p).foldl (fun d p =>
    disturb d p causeLink 1 (ceilDiv (600 * clockNow d) 1000) i) d

/-- A packet leaves on a port. -/
def emit (d : Dev) (i : Nat) (p : Pkt) : Dev :=
  { d with fab := { d.fab with sentPkts := d.fab.sentPkts ++ [(i, p)] } }

/-- Packets a REORDER injection held leave once enough others have passed. -/
def passDelayed (d : Dev) (i : Nat) : Dev :=
  let l := (bolOf d i).delayed.map fun e => (e.1 - 1, e.2)
  let d := modBol d i fun q => { q with delayed := l.filter fun e => e.1 != 0 }
  (l.filter fun e => e.1 == 0).foldl (fun d e => emit d i e.2) d

/-- Sends a packet on a port: counts, the retry buffer, and damage on purpose. -/
def sendOn (d : Dev) (i : Nat) (p : Pkt) : Dev :=
  let u := pBol i
  let p := if bolState d i = 5 then rev1Pkt p else p
  let d := bump (bump d u Reg.BOL_TX_PACKETS 1) u Reg.BOL_TX_BYTES (32 + p.payload.length)
  let q := bolOf d i
  let c := rd d u Reg.BOL_INJECT
  let mode := fld c 2 0
  let sel := injSelected mode (fld c 12 8) (fld c 27 24) (rdN d u Reg.BOL_INJECT_SEED) q.injIndex p.cls
  let d := modBol d i fun q => { q with injIndex := q.injIndex + b2n (mode != 0), retry := keepRetry q.retry p }
  if !sel then passDelayed (emit d i p) i
  else
    let d := event d u Reg.BOL_PORT_EVENTS 6 Reg.BOL_EVT_INJECTED
    match mode with
    | 1 => passDelayed (emit (retryEvent d i) i p) i
    | 2 => passDelayed (emit (if 15 < fld c 20 16 then retryEvent d i else d) i p) i
    | 3 => let d := passDelayed d i
           modBol d i fun q => { q with delayed := q.delayed ++ [(fld c 23 21, p)] }
    | _ => passDelayed (modBol d i fun q => { q with retry := q.retry.dropLast }) i

/-! ## Ejection and ordering (R309, R320, R321) -/

/-- Hands a packet to its unit. -/
def hand (d : Dev) (p : Pkt) : Dev := { d with fab := { d.fab with handed := d.fab.handed ++ [p] } }

/-- Source key of the arrival counts. -/
def srcKey (p : Pkt) : Nat := placeNode p.src * 16 + p.spart

/-- Counts an arrival in its frame; the two newest frame numbers are kept (R321). -/
def countArrival (d : Dev) (p : Pkt) : Dev :=
  if !typeCounted p.type then d
  else
    let l := smGetD [] d.fab.arrivals (srcKey p)
    let l' :=
      if l.any fun e => e.1 == p.frame then l.map fun e => if e.1 = p.frame then (e.1, e.2 + 1) else e
      else match l with
        | [] => [(p.frame, 1)]
        | [a] => if 0 ≤ serialDiff p.frame a.1 then [(p.frame, 1), a] else [a, (p.frame, 1)]
        | a :: b :: _ =>
          if 0 ≤ serialDiff p.frame a.1 then [(p.frame, 1), a]
          else if 0 ≤ serialDiff p.frame b.1 then [a, (p.frame, 1)] else [a, b]
    { d with fab := { d.fab with arrivals := smPutD [] d.fab.arrivals (srcKey p) l' } }

/-- Arrival count of a packet's frame. -/
def arrived (d : Dev) (p : Pkt) : Nat :=
  (((smGetD [] d.fab.arrivals (srcKey p)).find? fun e => e.1 == p.frame).map Prod.snd).getD 0

/-- Is a frame older than both kept frame numbers of its source? -/
def olderThanKept (d : Dev) (p : Pkt) : Bool :=
  match smGetD [] d.fab.arrivals (srcKey p) with
  | [a, b] => decide (serialDiff p.frame a.1 < 0) && decide (serialDiff p.frame b.1 < 0)
  | _ => false

/-- A packet for this device, past the checks of R309: handed on, or held by its fence. -/
def accept (d : Dev) (p : Pkt) (inOrder : Bool) : Dev :=
  if !(p.fence && typeCounted p.type) || inOrder then hand (countArrival d p) p
  else if olderThanKept d p then hand (event d pDev Reg.BOL_EVENTS 3 Reg.BOL_EVT_FENCE_STALE) p
  else if arrived d p % 65536 = p.pair then hand (countArrival d p) p
  else
    bump { d with fab := { d.fab with fences := d.fab.fences ++ [⟨d.fab.nextId, none, false, p⟩], nextId := d.fab.nextId + 1 } }
      pDev Reg.BOL_FENCE_HELD 1

/-- FENCE_RELEASE: a held packet whose count is reached is handed on. -/
def releaseFence (d : Dev) (id : Nat) : Dev :=
  match d.fab.fences.find? fun k => k.id == id with
  | none => d
  | some k =>
    if arrived d k.pkt % 65536 ≠ k.pkt.pair then d
    else hand (countArrival { d with fab := { d.fab with fences := d.fab.fences.filter fun q => q.id != id } } k.pkt) k.pkt

/-- FENCE_TIMEOUT: past the completion cut of the tick that ends FRAME + 2. A commit marker is MARKER_LATE, any other packet goes with its
frame, and the source is asked how many packets it sent (R322). -/
def timeoutFence (d : Dev) (id : Nat) : Dev :=
  match d.fab.fences.find? fun k => k.id == id with
  | none => d
  | some k =>
    let p := k.pkt
    if !cutPast d p.dpart p.frame 2 then d
    else
      let d := event d pDev Reg.BOL_EVENTS 2 Reg.BOL_EVT_FENCE_TIMEOUT
      let d := { d with fab := { d.fab with asked := d.fab.asked ++ [(placeNode p.src, p.spart, p.frame)] } }
      let ask := fun (d : Dev) => queryNode d p.dpart (placeNode p.src) .fenceTimeout
      if p.type = 7 then ask (markerMissing d p.dpart ⟨placeNode p.src, Fin.ofNat 16 p.spart⟩ p.frame)
      else ask { d with fab := { d.fab with fences := d.fab.fences.filter fun q => q.id != id } }

/-! ## The bytes of a packet (Table 12-2) -/

/-- The header without the CRC. -/
def pktHead (p : Pkt) (cls deflect : Nat) : List Byte :=
  leBytes 4 p.dest ++ leBytes 4 p.src ++ leBytes 1 (cls + 4 * p.type)
    ++ leBytes 1 (b2n p.fence + 2 * b2n p.bitmap + 4 * p.lane + 16 * deflect) ++ leBytes 1 (p.dpart + 16 * p.spart) ++ [0]
    ++ leBytes 2 p.frame ++ leBytes 2 p.payload.length ++ leBytes 8 p.addr ++ leBytes 2 p.pair ++ leBytes 2 p.reqId

/-- CRC-32C of a packet, with CLASS and DEFLECT taken as 0 (R308). -/
def pktCrc (p : Pkt) : Nat := crc32c (pktHead p 0 0 ++ p.payload)

/-- The bytes of a packet. -/
def pktBytes (p : Pkt) : List Byte := pktHead p p.cls p.deflect ++ leBytes 4 (pktCrc p) ++ p.payload

/-- The packet that bytes spell; LENGTH and reserved bits are checked by `pktGood`. -/
def parsePkt (l : List Byte) : Pkt :=
  let b8 := leAt l 8 1
  let b9 := leAt l 9 1
  { dest := leAt l 0 4, src := leAt l 4 4, cls := b8 % 4, type := b8 / 4, fence := bitAt b9 0, bitmap := bitAt b9 1
    lane := b9 / 4 % 4, deflect := b9 / 16, dpart := leAt l 10 1 % 16, spart := leAt l 10 1 / 16, frame := leAt l 12 2
    addr := leAt l 16 8, pair := leAt l 24 2, reqId := leAt l 26 2, payload := l.drop 32 }

/-- The checks of R309 at the destination. -/
def pktGood (l : List Byte) : Bool :=
  let p := parsePkt l
  decide (32 ≤ l.length) && decide (p.type < 12) && leAt l 11 1 == 0 && leAt l 14 2 == p.payload.length
    && decide (p.payload.length ≤ 512) && decide (p.reqId < 4096)
    && decide (p.addr < (if p.type = 0 then 2 ^ 40 else if p.type < 5 then 2 ^ 48 else 2 ^ 64))
    && leAt l 28 4 == pktCrc p

/-- Does a packet go to this device? -/
def forMe (d : Dev) (p : Pkt) : Bool := placePod p.dest == myPod d && placeNode p.dest == myNode d

/-- Ejects a packet whose bytes are given. -/
def eject (d : Dev) (l : List Byte) (inOrder : Bool) : Dev :=
  if pktGood l && forMe d (parsePkt l) then accept d (parsePkt l) inOrder else hdrDrop d

/-- A packet arrives on a Bollum port: ejected, or in transit (R309, R318, R330). -/
def packetIn (d : Dev) (i : Nat) (l : List Byte) : Dev :=
  let s := bolState d i
  if s ≠ 3 ∧ s ≠ 4 ∧ s ≠ 5 then d
  else
    let d := bump d (pBol i) Reg.BOL_RX_PACKETS 1
    let p := parsePkt l
    if forMe d p then eject d l (s == 5)
    else if s = 5 ∨ l.length < 32 then hdrDrop d
    else
      let x := decide (portDim i = 1) && decide (nSlot (placeNode p.dest) ≠ nSlot (myNode d))
      let k : InPkt := ⟨d.fab.nextId, some i, x, p⟩
      let f := { d.fab with nextId := d.fab.nextId + 1 }
      if 2 ≤ p.cls then { d with fab := { f with escape := f.escape ++ [k] } }
      else { d with fab := { f with transit := f.transit ++ [k] } }

/-! ## The switch (R315 to R318) -/

/-- Takes a packet out of the switch. -/
def takePkt (f : FabSt) (id : Nat) : FabSt :=
  { f with local_ := f.local_.filter fun k => k.id != id, transit := f.transit.filter fun k => k.id != id
           escape := f.escape.filter fun k => k.id != id }

/-- The packet with a number that waits in the switch. -/
def findPkt (f : FabSt) (id : Nat) : Option InPkt := (f.local_ ++ f.transit ++ f.escape).find? fun k => k.id == id

/-- Refusals of the busy ports of a first minimal bundle (R319). -/
def countRefused (d : Dev) (busy : W32) (p0 : List Nat) : Dev :=
  (p0.filter fun i => bitAt busy.toNat i).foldl (fun d i =>
    modBol (bump d (pBol i) Reg.BOL_REFUSED 1) i fun q => { q with refused := q.refused + 1 }) d

/-- The packet enters the escape channel (R317). -/
def enterEscape (d : Dev) (k : InPkt) : Dev :=
  let d := bump (eventG d 6 pDev Reg.BOL_EVENTS 1 Reg.BOL_EVT_ESCAPE) pDev Reg.BOL_ESCAPED 1
  let f := takePkt d.fab k.id
  { d with fab := { f with escape := f.escape ++ [⟨k.id, none, k.second, { k.pkt with cls := 2 }⟩] } }

/-- Is an entry buffer of the escape channel free? -/
def entryFree (d : Dev) : Bool := decide ((d.fab.escape.filter fun k => k.inPort.isNone).length < 8)

/-- Does a port cross the link that breaks a ring: Y between trays 15 and 0, Z between the last rack and rack 0? -/
def wraps (d : Dev) (i : Nat) : Bool :=
  let me := myNode d
  let last := max 1 (nRacks d) - 1
  if i < 14 ∨ 30 ≤ i then false
  else if i < 18 then nTray me == 15
  else if i < 22 then nTray me == 0
  else if i < 26 then nRack me == last
  else nRack me == 0

/-- The dimension by which a packet came, 0 for a packet that starts here. -/
def inDim (k : InPkt) : Nat := (k.inPort.map portDim).getD 0

/-- The escape lane of a packet on its way out of a port. -/
def escLane (d : Dev) (k : InPkt) (i : Nat) : Nat :=
  if wraps d i || (k.second && portDim i == 1) then 1
  else if inDim k ≠ portDim i then 0
  else k.pkt.cls - 2

/-- Is the partner's buffer of a lane free? -/
def credit (d : Dev) (i lane : Nat) : Bool := !smGetD false (bolOf d i).credit lane

/-- An escape packet goes out on a port and uses the credit of its lane (log entry 99, DEDUCED). -/
def escapeOut (d : Dev) (k : InPkt) (i : Nat) : Dev :=
  let lane := escLane d k i
  let d := { d with fab := takePkt d.fab k.id }
  let d := modBol (bump d (pBol i) Reg.BOL_ESCAPE_OUT 1) i fun q => { q with credit := smPutD false q.credit lane true }
  sendOn d i { k.pkt with cls := 2 + lane }

/-- An escape packet tries its first minimal bundle: the lowest port with a credit on its lane. -/
def escapeTry (d : Dev) (busy : W32) (k : InPkt) (p0 : List Nat) : Dev :=
  match p0.find? fun i => !bitAt busy.toNat i && credit d i (escLane d k i) with
  | some i => escapeOut d k i
  | none => d

/-- A packet goes out of a port, deflected or not. -/
def goOut (d : Dev) (k : InPkt) (i : Nat) (deflected : Bool) : Dev :=
  let d := { d with fab := takePkt d.fab k.id }
  if deflected then
    sendOn (bump d (pBol i) Reg.BOL_DEFLECTED_OUT 1) i { k.pkt with deflect := min 15 (k.pkt.deflect + 1) }
  else sendOn d i k.pkt

/-- The port to a revision 1 partner that is a packet's destination; it takes packets of this device only (R330). -/
def rev1Port (d : Dev) (k : InPkt) : Option Nat :=
  (List.range 32).find? fun i =>
    k.inPort.isNone && bolState d i == 5 && placeNode (rdN d (pBol i) Reg.BOL_PARTNER) == placeNode k.pkt.dest

/-- Does a packet travel, or is it about to travel, on the escape channel (R317)? -/
def escapes (d : Dev) (k : InPkt) : Bool := decide (2 ≤ k.pkt.cls) || (decide (deflectLimit d ≤ k.pkt.deflect) && entryFree d)

/-- The output that a packet takes among the ports that do not send, by the order of R315. -/
def wants (d : Dev) (busy : W32) (k : InPkt) : Option Nat :=
  let free := fun i => !bitAt busy.toNat i
  match rev1Port d k with
  | some i => if free i then some i else none
  | none => match minimalBundles d (placeNode k.pkt.dest) with
    | [] => none
    | p0 :: rest =>
      if escapes d k then
        let k := if 2 ≤ k.pkt.cls then k else { k with inPort := none, pkt := { k.pkt with cls := 2 } }
        p0.find? fun i => free i && credit d i (escLane d k i)
      else ((if k.pkt.cls = 0 then rotate p0 k.pkt.lane else p0) ++ rest.flatten ++ nonminimal d).find? free

/-- A packet's place in the order of R316: its class, a packet in transit before a local one, higher DEFLECT first among the dynamic ones in
transit; ties go to the lower input port. -/
def outKey (d : Dev) (k : InPkt) : Nat :=
  let here := d.fab.local_.any fun q => q.id == k.id
  let rank := match k.pkt.cls with
    | 0 => b2n here
    | 3 => 2
    | 2 => 3
    | _ => if here then 20 else 19 - min 15 k.pkt.deflect
  64 * rank + k.inPort.getD 32

/-- The ports that send once the packets which come before one in the order of R316 have taken their outputs in its packet time; `busy` sent
already. -/
def takenBefore (d : Dev) (busy : W32) (k : InPkt) : W32 :=
  let order := sortBy (fun a b => decide (outKey d a < outKey d b)) (d.fab.transit ++ d.fab.escape ++ d.fab.local_)
  (order.takeWhile fun q => q.id != k.id).foldl (fun b q => match wants d b q with
    | some i => b ||| BitVec.ofNat 32 (2 ^ i)
    | none => b) busy

/-- PACKET_ROUTE: one packet's choice in a packet time; `busy` are the ports that send, to which those are added that packets before it in the
order of R316 take (R315, R316, R330). -/
def routePkt (d : Dev) (id : Nat) (busy : W32) : Dev :=
  match findPkt d.fab id with
  | none => d
  | some k =>
    let p := k.pkt
    let node := placeNode p.dest
    let busy := takenBefore d busy k
    let free := fun i => !bitAt busy.toNat i
    match rev1Port d k with
    | some i => if free i then goOut d k i false else d
    | none =>
      match minimalBundles d node with
      | [] => eject { d with fab := takePkt d.fab id } (pktBytes p) false
      | p0 :: rest =>
        if 2 ≤ p.cls then escapeTry d busy k p0
        else if deflectLimit d ≤ p.deflect ∧ entryFree d then escapeTry (enterEscape d k) busy { k with inPort := none, pkt := { p with cls := 2 } } p0
        else
          let p0 := if p.cls = 0 then rotate p0 p.lane else p0
          match p0.find? free with
          | some i => goOut d k i false
          | none =>
            let d := countRefused d busy p0
            match rest.flatten.find? free with
            | some i => goOut d k i true
            | none => match (nonminimal d).find? free with
              | some i => goOut d k i true
              | none => d

/-- ESCAPE_FORWARD: the credit of a waiting packet's lane comes back on a port of its first minimal bundle, and the packet
moves on. -/
def escapeForward (d : Dev) (id i : Nat) : Dev :=
  match d.fab.escape.find? fun k => k.id == id with
  | none => d
  | some k => match minimalBundles d (placeNode k.pkt.dest) with
    | p0 :: _ =>
      if p0.contains i then
        escapeOut (modBol d i fun q => { q with credit := smPutD false q.credit (escLane d k i) false }) k i
      else d
    | [] => d

/-! ## Saturation (R319) -/

/-- The port with most refusals; the lowest of equals. -/
def hottest (d : Dev) : Nat :=
  (List.range 32).foldl (fun b i => if (bolOf d b).refused < (bolOf d i).refused then i else b) 0

/-- SATURATION_CHECK at a tick of a partition; the refusals start again from 0. -/
def saturation (d : Dev) (p : Nat) : Dev :=
  let h := hottest d
  let limit := rdF d pDev Reg.BOL_FABRIC_CFG 31 16
  let d' := if (bolOf d h).refused < limit then d
    else wrN (eventG d 6 pDev Reg.BOL_EVENTS 0 Reg.BOL_EVT_SATURATED) pDev Reg.BOL_HOT
      (h + 32 * portDim h + 65536 * frameNum d p)
  (List.range 32).foldl (fun d i => modBol d i fun q => { q with refused := 0 }) d'

/-! ## Links (R302, R323 to R328) -/

/-- Authentication of a port that has had none. -/
def AuthSt.init : AuthSt := ⟨0, false, false, 0, 0, 0, 0, [], [], [], [], [], [], []⟩

/-- Authentication of a port. -/
def authOf (d : Dev) (k : Nat) : AuthSt := smGetD AuthSt.init d.sec.auth k

/-- Changes the authentication of a port. -/
def modAuth (d : Dev) (k : Nat) (g : AuthSt → AuthSt) : Dev := { d with sec := { d.sec with auth := smModD AuthSt.init d.sec.auth k g } }

/-- No exchange runs at a port: a new training ends the one that ran. -/
def authReset (d : Dev) (k : Nat) : Dev := modAuth d k fun a => { a with running := false, rekey := false, step := 0, hello := [], ct := [] }

/-- Packets in the retry buffer go back to the switch (R326): those of the last 128 that the partner has not acknowledged, a number that
no row of the table gives and that is free (log entry 26, DESIGN CHOICE). -/
def handBack (d : Dev) (i : Nat) : Dev :=
  let all := (bolOf d i).retry
  let l := all.drop (Config.freeValue d.freeSeq 0 % (all.length + 1))
  let d := modBol (if all.isEmpty then d else drawFree d) i fun q => { q with retry := [], delayed := [], credit := [] }
  l.foldl (fun d p => { d with fab := { d.fab with
    transit := d.fab.transit ++ [⟨d.fab.nextId, none, false, p⟩], nextId := d.fab.nextId + 1 } }) d

/-- A port becomes DOWN. -/
def bolDown (d : Dev) (i : Nat) : Dev :=
  let d := wrN (handBack d i) (pBol i) Reg.BOL_PORT_STATUS 0
  modBol (event d (pBol i) Reg.BOL_PORT_EVENTS 3 Reg.BOL_EVT_DOWN) i fun q => { q with timer := true }

/-- A port starts to retrain: it leaves service, and injection ends (R325, R334). -/
def bolRetrain (d : Dev) (i : Nat) : Dev :=
  if noPartner d i then d
  else
    let d := handBack d i
    let d := event d (pBol i) Reg.BOL_PORT_EVENTS 1 Reg.BOL_EVT_RETRAIN
    let d := wrF d (pBol i) Reg.BOL_INJECT 2 0 0
    let d := modBol d i fun q => { q with retries := [], symbols := [], symStart := d.hall }
    wrN d (pBol i) Reg.BOL_PORT_STATUS 1

/-- The outcome of training: three or four lanes go on to authentication, fewer leave the port DOWN (R325, R328). A port that
still carried traffic has retrained (log entry 28, DEDUCED). A lane that BOL_LANE_CTL has taken out stays out (R327). A port without a partner stays DOWN (R303), and so does one whose
partner showed a wrong place, until a link comes up there and shows the right one (R302). -/
def bolTrained (d : Dev) (i lanes : Nat) : Dev :=
  let d := if bolState d i = 1 ∨ bolState d i = 0 then d else bolRetrain d i
  let lanes := if rdF d (pBol i) Reg.BOL_LANE_CTL 3 0 = 0 then lanes else min lanes 3
  if noPartner d i then d
  else if lanes < 3 ∨ (bolOf d i).miswired then bolDown d i
  else
    let d := authReset (wrN d (pBol i) Reg.BOL_PORT_STATUS (2 + 8 * lanes)) i
    let d := modBol d i fun q => { q with timer := false }
    if lanes = 3 then classEvent (event d (pBol i) Reg.BOL_PORT_EVENTS 2 Reg.BOL_EVT_DEGRADE) 3 (pBol i) 0 else d

/-- The partner that Table 12-1 gives a port. -/
def wiredTo (d : Dev) (i : Nat) : Nat :=
  let me := myNode d
  let s := nSlot me
  let t := nTray me
  let r := nRack me
  let n := max 1 (nRacks d)
  let node := fun r t s => r * 128 + t * 8 + s
  if i < 14 then node r t ((s + i / 2 + 1) % 8)
  else if i < 18 then node r ((t + 1) % 16) s
  else if i < 22 then node r ((t + 15) % 16) s
  else if i < 26 then node ((r + 1) % n) t s
  else if i < 30 then node ((r + n - 1) % n) t s
  else node r t (if s % 2 = 0 then s + 1 else s - 1)

/-- A link comes up: the partner's place is compared with Table 12-1 (R302, R303); a revision 1 partner in its right place is
allowed by policy (R330, R489). -/
def linkUp (d : Dev) (i partner : Nat) (rev1 : Bool) : Dev :=
  if !d.fuses.bol i then d
  else
    let d := wrN d (pBol i) Reg.BOL_PARTNER partner
    let bad := decide (placeNode partner ≠ wiredTo d i) || decide (placePod partner ≠ myPod d) || noPartner d i
    let d := modBol d i fun q => { q with miswired := bad }
    if bad then bolDown (event d (pBol i) Reg.BOL_PORT_EVENTS 4 Reg.BOL_EVT_MISWIRED) i
    else if rev1 then
      if rdB d (pSec 0) Reg.SEC_POLICY 1 then wrN d (pBol i) Reg.BOL_PORT_STATUS (5 + 8 * 4)
      else bolDown (event d (pBol i) Reg.BOL_PORT_EVENTS 5 Reg.BOL_EVT_AUTH_FAIL) i
    else if bolState d i ≤ 1 then
      let lanes := rdF d (pBol i) Reg.BOL_PORT_STATUS 5 3
      authReset (wrN d (pBol i) Reg.BOL_PORT_STATUS (2 + 8 * (if lanes = 0 then 4 else lanes))) i
    else d

/-- Counts corrected symbols of a lane; answers whether more than 42,500 fell within 100 ms (R325). -/
def countSymbols (d : Dev) (i lane n : Nat) : Dev × Bool :=
  let d := bump (bump d (pBol i) Reg.BOL_FEC_CORR 1) (pBol i) (Reg.BOL_LANE_SYMERR lane) n
  let d := modBol d i fun q => if q.symStart + 100000000 ≤ d.hall then { q with symbols := [], symStart := d.hall } else q
  let d := modBol d i fun q => { q with symbols := smModD 0 q.symbols lane (· + n) }
  (d, decide (42500 < smGetD 0 (bolOf d i).symbols lane))

/-- A tag failure of a port: TAG_FAIL, and more than 16 within 1 ms retrain it (R487). `key` is the port's number in the
authentication state, `last` the value of SEC_LAST_PORT. -/
def tagFail (d : Dev) (key last time : Nat) : Dev × Bool :=
  let d := [0, 1].foldl (fun d s =>
    wrN (event d (pSec s) Reg.SEC_EVENTS 1 Reg.SEC_EVT_TAG_FAIL) (pSec s) Reg.SEC_LAST_PORT last) d
  let ts := time :: (authOf d key).tags.filter fun t => decide (time < t + 1000000)
  (modAuth d key fun a => { a with tags := ts }, decide (16 < ts.length))

/-- LINK_RETRY (R323 to R325, R487). -/
def linkRetry (d : Dev) (i : Nat) (why : RetryWhy) (refusals time : Nat) : Dev :=
  match why with
  | .corrected lane n =>
    let r := countSymbols d i lane.val n
    if r.2 then bolRetrain r.1 i else r.1
  | _ =>
    let d := if why = .uncorrectable then bump d (pBol i) Reg.BOL_FEC_UNCORR 1 else d
    let t := if why = .tagFail then tagFail d i i time else (d, false)
    let d := retryEvent t.1 i
    let ts := time :: (bolOf d i).retries.filter fun x => decide (time < x + 1000000)
    let d := modBol d i fun q => { q with retries := ts }
    if t.2 ∨ 8 ≤ refusals ∨ 64 < ts.length then bolRetrain d i else d

/-- A peer of the exchange group whose votes were missing is live (R223): the links toward it that are DOWN train again, which
brings them up or degraded (R39), and the count of its missing votes starts again, so that the group resumes. -/
def peerLive (d : Dev) (p node : Nat) : Dev :=
  let k := (nSlot node + 16 - nSlot (myNode d) - 1) % 8
  let d := ([2 * k, 2 * k + 1].filter fun i => d.fuses.bol i && decide (i < 14) && bolState d i == 0).foldl (fun d i =>
    modBol (wrN d (pBol i) Reg.BOL_PORT_STATUS 1) i fun q => { q with timer := false }) d
  modGrp d p fun g => { g with missing := (groupOn d p node).foldl (fun m n => smPutD 0 m n 0) g.missing }

/-! ## Between pods, lanes, roles (R327, R329, R331, R332) -/

/-- An Ethernet datagram: UDP checksum and inner destination, then as any packet (R332). -/
def datagramIn (d : Dev) (i : Nat) (sumOk addressed : Bool) (l : List Byte) : Dev :=
  if !d.fuses.eth i || !rdB d (pEth i) Reg.ETH_STATUS 0 || !addressed then d
  else if !sumOk || !forMe d (parsePkt l) then event d (pEth i) Reg.ETH_EVENTS 0 Reg.ETH_EVT_RX_DROP
  else eject (bump d (pEth i) Reg.ETH_RX_PACKETS 1) l false

/-- ETHERNET_LINK_CHANGE. -/
def ethLink (d : Dev) (i : Nat) (up : Bool) : Dev := if d.fuses.eth i then wrF d (pEth i) Reg.ETH_STATUS 0 0 (b2n up) else d

/-- At a tick the written roles of the spare ports come into force (R329); a port with role 0 is IDLE. -/
def rolesAtTick (d : Dev) : Dev :=
  [30, 31].foldl (fun d i =>
    let v := (rd d (pBol i) Reg.BOL_SPARE_ROLE).setWidth 32
    if (bolOf d i).role = v then d
    else
      let d := modBol d i fun q => { q with role := v }
      match fld (v.setWidth 64) 1 0 with
      | 0 => if 3 ≤ bolState d i then setBol d i 6 else d
      | 2 => if 3 ≤ bolState d i then setBol d i 7 else d
      | _ => if 6 ≤ bolState d i then setBol d i (if rdF d (pBol i) Reg.BOL_PORT_STATUS 5 3 = 3 then 4 else 3) else d) d

end Sys2Proof.Machine
end

