-- ==== Sys2Proof/Machine/Front.lean ====
section
/-! DEFINITION. The cell's front end: which record issues and when (04 R102, R103, R110, R115), and how records complete and their
replies and data arrive (04 R103, R110 to R117). -/

namespace Sys2Proof.Machine

/-! ## The checks of a record at issue (R115) -/

/-- A remote offset that must be a multiple of n. -/
def alignErr (off n : Nat) : Option RecErr := if off % n ≠ 0 then some ⟨1, 0, 0, false⟩ else none

/-- Why a record of a cell fails when it issues (Table 04-13). -/
def recErr (d : Dev) (c : Nat) : RecBody → Option RecErr
  | .nop | .end_ | .wait | .fence | .alloc _ => none
  | .load x => firstErr [localErr [(x.cellBase, 32 * x.length)], bufErr d c x.slot.val x.offset (32 * x.length) false]
  | .store x => firstErr [localErr [(x.cellBase, 32 * x.length)], bufErr d c x.slot.val x.offset (32 * x.length) true]
  | .fill x => localErr [(x.cellBase, 32 * x.length)]
  | .pass x => passErr d c x
  | .split x => splitErr d c x
  | .drain x => drainErr d c x
  | .vector op x => localErr (vecSources op x ++ [vecTarget op x])
  | .send x => firstErr [localErr [(x.src, 32 * x.length), (x.targetBase, 32 * x.length)],
      if (partCells d (cellPart d c)).length ≤ x.target then some ⟨5, 0, 0, false⟩ else none]
  | .rload x | .rstore x => firstErr [localErr [(x.localBase, 32 * x.length)], alignErr x.remoteOffset 32]
  | .ratomic _ x => firstErr [localErr [(x.result, 32)], alignErr x.remoteOffset (if x.wide then 8 else 4)]
  | .rtrig x => alignErr x.remoteOffset 32

/-- The address of a record's comb-store buffer operand; 0 without one. -/
def recAddr (d : Dev) (c : Nat) : RecBody → Nat
  | .load x => slotAddr d c x.slot.val x.offset
  | .store x => slotAddr d c x.slot.val x.offset
  | .pass x => if x.bcast then slotAddr d c x.bSlot.val x.bOffset else 0
  | .drain x => if x.toComb then slotAddr d c x.destSlot.val x.destOffset else 0
  | _ => 0

/-! ## Issue (R102) -/

/-- Does a cell's front end issue at all: is the cell READY or RUNNING, and neither killed, nor dead, nor past the cut (R37, R114)? -/
def frontOpen (d : Dev) (c : Nat) : Bool :=
  let x := cellOf d c
  let st := unitState d (pCell c)
  !x.killed && !x.dead && !(partOf d (cellPart d c)).cutTaken && (decide (st = 2) || decide (st = 3))

/-- The next record of a stream, as the record buffer holds it (R94, R97, R100). -/
def nextOf (x : CellSt) (s : Nat) : Option (RecHdr × RecBody) :=
  let y := strmOf x s
  if y.live then decodeRec (blockRec x.buffer (nextRec y)) else none

/-- The cycle from which the tag that a record waits for holds its count. -/
def waitCycle (x : CellSt) (h : RecHdr) : Option Nat :=
  if h.wait then (tagOf x h.waitTag.val).reached h.waitCount else some 0

/-- Could a stream issue its next record in a cycle? A stream that trails its schedule does not. -/
def couldIssue (x : CellSt) (s t : Nat) : Bool :=
  let y := strmOf x s
  match nextOf x s with
  | none => false
  | some e => y.late == 0 && decide (y.after ≤ t) && decide (y.trigCyc.getD 0 ≤ t) && roomFor x e.2
      && match waitCycle x e.1 with
        | some r => decide (r ≤ t)
        | none => false

/-- What an attempt to issue finds (R102). -/
inductive IssueAns where
  | no
  | waitTag
  | waitRes
  | at (t : Nat)
  deriving DecidableEq, Repr

/-- The cycle in which the next record of a stream issues, when it is the one named: no earlier than its scheduled cycle with the
stream's lateness, the cycle after the cell's last issue, and the cycles in which its stream and its tag let it; one record
issues per cycle (R102, R103) (log entry 107, DEDUCED). -/
def issueAt (d : Dev) (a : RecAt) (h : RecHdr) (b : RecBody) : IssueAns :=
  let x := cellOf d a.cell.val
  let y := strmOf x a.stream.val
  if !frontOpen d a.cell.val || decide (nextOf x a.stream.val ≠ some (h, b)) then .no
  else match waitCycle x h with
    | none => .waitTag
    | some r =>
      let t := max (max (a.cycle + y.late) x.lastIssue) (max (max r y.after) (y.trigCyc.getD 0))
      if cutCycle d (cellPart d a.cell.val) < t then .no else .at t

/-- What the cell finds when it has reached the issue cycle: the record is still the next, no lower stream could issue, and its
resource has room (R102). -/
def canTake (d : Dev) (a : RecAt) (h : RecHdr) (b : RecBody) (t : Nat) : IssueAns :=
  let x := cellOf d a.cell.val
  if !frontOpen d a.cell.val || decide (nextOf x a.stream.val ≠ some (h, b))
      || (List.range a.stream.val).any fun s => couldIssue x s t then .no
  else if roomFor x b then .at t else .waitRes

/-- A stream that issues in cycle t later than it was scheduled trails its schedule from then on (R82, R111). -/
def trail (g : Tag) (wait : Bool) (sched t : Nat) (s : Strm) : Strm :=
  if s.late < t - sched then { s with late := t - sched, why := if wait ∧ g.why ≠ 0 then g.why else s.why } else s

/-- The signal of a record that completes at once. -/
def sigNow (d : Dev) (a : RecAt) (h : RecHdr) (t : Nat) : Dev := if h.sig then advTag d a.cell.val h.sigTag.val t 0 else d

/-- What a record without a resource does in its issue cycle (R102, R105): NOP and WAIT complete, END sets its stream to DONE, FENCE
completes when every earlier record of its stream has. -/
def atOnce (d : Dev) (a : RecAt) (h : RecHdr) (b : RecBody) (t : Nat) : Dev :=
  let c := a.cell.val
  match b with
  | .end_ => sigNow (modStrm d c a.stream.val fun s => { s with state := .done }) a h t
  | .fence =>
    let open_ := ((cellOf d c).inflight.filter fun f => decide (f.stream = a.stream)).map InFl.id
    if open_.isEmpty then sigNow d a h t
    else modStrm d c a.stream.val fun s => { s with fencedBy := open_, fenceSig := if h.sig then some h.sigTag.val else none }
  | _ => sigNow d a h t

/-- The number of the record that issues next: one that no record in flight has. -/
def freshId (x : CellSt) : Nat :=
  max (x.inflight.foldl (fun n f => max n (f.id + 1)) x.nextId) (x.remotes.foldl (fun n r => max n (r.id + 1)) 0)

/-- A record that has just issued. -/
def flOf (d : Dev) (a : RecAt) (h : RecHdr) (b : RecBody) (t : Nat) : InFl :=
  let x := cellOf d a.cell.val
  { id := freshId x, stream := a.stream, body := b, sig := h.sig, sigTag := h.sigTag, recId := h.recordId
    recIdx := nextRec (strmOf x a.stream.val) - 1, addr := recAddr d a.cell.val b, started := false, start := t, occEnd := t, due := t
    late := 0, why := 0, waiting := false, asked := false, stall := none, alloc := none, data := [] }

/-- The cycles by which the tag that a record waits for holds it (R222): from the cycle in which it could have issued without the tag to the
one in which the tag holds its count. -/
def tagHold (x : CellSt) (a : RecAt) (h : RecHdr) : Nat :=
  let y := strmOf x a.stream.val
  (waitCycle x h).getD 0 - max (max (a.cycle + y.late) x.lastIssue) (max y.after (y.trigCyc.getD 0))

/-- Adds a record to the queue of its resource; an RLOAD switches its stream out (R110). -/
def pushFl (d : Dev) (c : Nat) (f : InFl) : Dev :=
  let d := modCell d c fun x => { x with inflight := x.inflight ++ [f], nextId := f.id + 1 }
  match f.body with
  | .rload _ => modStrm d c f.stream.val fun s => { s with state := .switchedOut }
  | _ => d

/-- A record that passed its checks issues in cycle t. -/
def takeRec (d : Dev) (a : RecAt) (h : RecHdr) (b : RecBody) (t : Nat) : Dev :=
  let c := a.cell.val
  let g := tagOf (cellOf d c) h.waitTag.val
  let d := if h.wait then heldCell d c h.waitTag.val (tagHold (cellOf d c) a h) else d
  let d := modStrm (markIssued d a h t) c a.stream.val (trail g h.wait a.cycle t)
  match b.res with
  | none => atOnce d a h b t
  | some _ => advanceCell (pushFl d c (flOf d a h b t)) c t

/-- Sets what a stream waits for, from a cycle on. -/
def holdStrm (d : Dev) (a : RecAt) (s : StrmState) : Dev :=
  modStrm d a.cell.val a.stream.val fun y =>
    if y.live then { y with state := s, since := if s = .waitTag then some (y.since.getD (a.cycle + y.late)) else y.since } else y

/-- ALLOCs of other cells that have reached VATQ by a cycle of a partition's frame start before one that reaches it in that cycle. -/
def advanceVat (d : Dev) (p cycle : Nat) : Dev :=
  let m := momentOf d p cycle
  (d.cells.filter fun e => decide (0 < queued e.2 .vatq)).foldl (fun d e =>
    let t := cycleAt d (cellPart d e.1) m
    if t = 0 then d else advanceCell d e.1 (t - 1)) d

/-- A command record of a cell (R102, R115): its stream waits, or it issues: it fails its checks, or it takes effect or enters the queue
of its resource. -/
def doRec (d : Dev) (a : RecAt) (h : RecHdr) (b : RecBody) : Dev :=
  match issueAt d a h b with
  | .at t =>
    let d := if b.res = some .vatq then advanceVat d (cellPart d a.cell.val) t else d
    let d := advanceCell d a.cell.val t
    match canTake d a h b t with
    | .at t => match recErr d a.cell.val b with
      | some e => failRec d a h t e
      | none => takeRec d a h b t
    | .waitRes => holdStrm d a .waitRes
    | _ => d
  | .waitTag => holdStrm d a .waitTag
  | _ => d

/-- WAITING_REQUEST_SERVED: a Vat instance presents its waiting requests in a cycle of the frame of the first of them (R285, R297)
(log entry 109, DEDUCED). -/
def serveAgain (d : Dev) (i cycle : Nat) : Dev :=
  match d.vat.waiting.find? fun r => tierInst r.tier == i with
  | none => d
  | some r =>
    let d := advanceVat (listsTo d (momentOf d r.part cycle)) r.part cycle
    serveWaiting d i (momentOf d r.part cycle)

/-! ## Completion (R103, R110, R113) -/

/-- A FENCE whose records have completed completes in the cycle of the last. -/
def fenceDone (d : Dev) (c s id cycle : Nat) : Dev :=
  let y := strmOf (cellOf d c) s
  if y.fencedBy.contains id then
    let left := y.fencedBy.filter (· != id)
    if left.isEmpty then
      let d := modStrm d c s fun y => { y with fencedBy := [], fenceSig := none, after := max y.after (cycle + 1) }
      match y.fenceSig with
      | some t => advTag d c t cycle 0
      | none => d
    else modStrm d c s fun y => { y with fencedBy := left }
  else d

/-- The remote operation of a record in flight. -/
def remOf (x : CellSt) (id : Nat) : Option Rem := x.remotes.find? fun r => r.id == id

/-- Does a record complete in a cycle: it has started, its completion cycle is that one, and the cut has not passed (R18, R22)? -/
def completes (d : Dev) (c : Nat) (f : InFl) (cycle : Nat) : Bool :=
  f.started && !f.waiting && decide (cycle = f.due) && decide (cycle ≤ cutCycle d (cellPart d c))
    && !(partOf d (cellPart d c)).cutTaken

/-- The stream of a completed RLOAD is switched back in, late by what the reply was late (R110, R111). -/
def switchIn (d : Dev) (c : Nat) (f : InFl) (r : Rem) : Dev :=
  if r.kind = 0 then modStrm d c f.stream.val fun s =>
    { s with state := if s.state = .switchedOut then .running else s.state, after := max s.after (f.due + 1)
             late := s.late + (f.due - r.tab), why := if f.due - r.tab = 0 then s.why else causeRemote }
  else d

/-- The buffer of a completed ALLOC: its slot, and its object's name (R107, R117). -/
def bindAlloc (d : Dev) (c : Nat) (f : InFl) : Dev :=
  match f.alloc with
  | some (slot, h, obj) =>
    let d := modCell d c fun x => { x with slots := smPutD 0 x.slots slot h }
    if obj < 2 ^ 24 - 1 then modPart d (cellPart d c) fun t => { t with named := t.named ++ [(obj, h)] } else d
  | none => d

/-- A record completes at the end of a cycle: its stream, its slot, the counts, its tag and its fence. -/
def completeRec (d : Dev) (c : Nat) (f : InFl) (cycle : Nat) : Dev :=
  let r := remOf (cellOf d c) f.id
  let d := modCell d c fun x => { x with
    inflight := x.inflight.filter fun g => g.id != f.id, remotes := x.remotes.filter fun r => r.id != f.id }
  let d := match r with
    | some r => switchIn d c f r
    | none => d
  let d := bindAlloc d c f
  let d := if f.body.res = some .array then
      bump (bump d (pCell c) Reg.CEL_PASS_COUNT 1) (pCell c) Reg.CEL_SP_PASSES (b2n f.body.isSparse) else d
  let d := if f.sig then advTag d c f.sigTag.val cycle f.why else d
  fenceDone d c f.stream.val f.id cycle

/-- RECORD_COMPLETE: in the record's own completion cycle it completes; in any other nothing happens (R18). -/
def finishRec (d : Dev) (c id cycle : Nat) : Dev :=
  let d := advanceCell d c cycle
  match (cellOf d c).inflight.find? fun f => f.id == id with
  | none => d
  | some f => if completes d c f cycle then completeRec d c f cycle else d

/-- The SEND of a record in flight whose data is on its way. -/
def sendOf (f : InFl) : Option SendOps :=
  match f.body with
  | .send x => if f.started && f.waiting && !f.data.isEmpty then some x else none
  | _ => none

/-- The data of a SEND is written at `target`, which is its target cell: in the cycle in which its last sector lands, the target's tag advances and the SEND
can complete (R103, R113). A target in reset absorbs the data (R437). -/
def landSend (d : Dev) (c id cycle target : Nat) : Dev :=
  let d := advanceCell d c cycle
  match (cellOf d c).inflight.find? fun f => f.id == id with
  | none => d
  | some f => match sendOf f with
    | none => d
    | some x =>
      let t := sendTarget d c x
      if target = t ∧ cycle = f.due ∧ cycle ≤ cutCycle d (cellPart d c) ∧ !(partOf d (cellPart d c)).cutTaken then
        absorbing d (cellUnits d t) fun d =>
          let d := cellWrite (advanceCell d t cycle) c f.recId (cellAddr t x.targetBase) f.data
          let d := cellBusy d t (cycle + 1 - ceilDiv x.length 2) (cycle + 1)
          modFl (advTag d t x.targetTag.val cycle f.why) c id fun g => { g with waiting := false, data := [] }
      else d

/-- A reply of an earlier frame (R114). -/
def staleReply (d : Dev) (c : Nat) : Dev := event d (pCell c) Reg.CEL_FE_EVENTS 4 Reg.CEL_EVT_STALE_REPLY

/-- A remote operation has its whole reply in a cycle: it completes then, no earlier than tabulated, and is charged what it is late
(R111). -/
def remoteGot (d : Dev) (c : Nat) (r : Rem) (cycle : Nat) : Dev :=
  let p := cellPart d c
  let late := cycle - r.tab
  let d := modFl d c r.id fun f => { f with
    due := max r.tab cycle, late := f.late + late, why := if late = 0 then f.why else causeRemote, waiting := false }
  if late = 0 ∨ (partOf d p).cutTaken then d
  else
    let d := event d (pCell c) Reg.CEL_FE_EVENTS 5 Reg.CEL_EVT_REMOTE_LATE
    disturb (bump d (pCell c) Reg.CEL_REMOTE_LATE_CYCLES late) p causeRemote 1 late r.node

/-- A reply or acknowledgement reaches its cell (R110, R111, R114): an RLOAD's bytes are written, an RATOMIC's old value is
written into its result sector; the operation completes with its last byte, late when after its tabulated cycle
(log entry 82, DEDUCED). -/
def remoteReplyTo (d : Dev) (c op frame : Nat) (data : List Byte) (cycle : Nat) : Dev := absorbing d (cellUnits d c) fun d =>
  let d := advanceCell d c cycle
  let x := cellOf d c
  if frame ≠ frameNum d (cellPart d c) then staleReply d c
  else match x.remotes.find? fun r => r.opId == op && r.frame == frame with
  | none => d
  | some r =>
      let rid := ((x.inflight.find? fun f => f.id == r.id).map InFl.recId).getD 0
      let d := match r.kind with
        | 0 => cellBusy (cellWrite d c rid (cellAddr c (r.localBase + r.got)) data) c cycle (cycle + ceilDiv data.length 64)
        | 2 => cellBusy (cellWrite d c rid (cellAddr c r.localBase) (sliceBytes data 0 32)) c cycle (cycle + 1)
        | _ => d
      let got := if r.kind = 0 then r.got + data.length else if r.kind = 1 then r.got + 512 else r.bytes
      let d := modCell d c fun x => { x with remotes := x.remotes.map fun q => if q.id = r.id then { q with got := got } else q }
      if got < r.bytes then d else remoteGot d c r cycle

/-- A refusal reaches its cell: the record fails with REMOTE_REFUSED and its stream stops (R115). -/
def remoteRefusedAt (d : Dev) (c op frame code : Nat) : Dev := absorbing d (cellUnits d c) fun d =>
  let x := cellOf d c
  if frame ≠ frameNum d (cellPart d c) then staleReply d c
  else match x.remotes.find? fun r => r.opId == op && r.frame == frame with
  | none => d
  | some r =>
    match x.inflight.find? fun f => f.id == r.id with
      | none => d
      | some f =>
        let d := modCell d c fun x => { x with remotes := x.remotes.filter fun q => q.id != r.id }
        recordFail d c f.stream.val f.recIdx f.recId 6 code

end Sys2Proof.Machine
end

