-- ==== Sys2Proof/Machine/CellRecords.lean ====
section
/-! DEFINITION. The meanings of the cell's command records and of the events that complete them (03, 04). -/

namespace Sys2Proof.Machine

/-- A next state that differs in the device. -/
def onDev (s : State) (g : Dev → Dev) : Host.Outcome State Fault Refusal := .next { s with dev := g s.dev }

/-- A next state that differs in the device, for a step that reads the propolis table. -/
def onDevP (s : State) (g : Propolis → Dev → Dev) : Host.Outcome State Fault Refusal := .next { s with dev := g s.prop s.dev }

/-- NOP (R105): completes in its issue cycle. -/
def execCellNop (a : RecAt) (h : RecHdr) (s : State) : Host.Outcome State Fault Refusal :=
  onDev s fun d => doRec d a h .nop

/-- END (R102): its stream is DONE. -/
def execEndRec (a : RecAt) (h : RecHdr) (s : State) : Host.Outcome State Fault Refusal :=
  onDev s fun d => doRec d a h .end_

/-- WAIT (R103, R105): issues when its tag has reached its count, and completes at once. -/
def execWaitRec (a : RecAt) (h : RecHdr) (s : State) : Host.Outcome State Fault Refusal :=
  onDev s fun d => doRec d a h .wait

/-- FENCE (R105): completes when every earlier record of its stream has. -/
def execFence (a : RecAt) (h : RecHdr) (s : State) : Host.Outcome State Fault Refusal :=
  onDev s fun d => doRec d a h .fence

/-- LOAD (R105): comb-store buffer to cell store. -/
def execLoad (a : RecAt) (h : RecHdr) (x : XferOps) (s : State) : Host.Outcome State Fault Refusal :=
  onDev s fun d => doRec d a h (.load x)

/-- STORE (R105): cell store to comb-store buffer. -/
def execStore (a : RecAt) (h : RecHdr) (x : XferOps) (s : State) : Host.Outcome State Fault Refusal :=
  onDev s fun d => doRec d a h (.store x)

/-- FILL (R105, R107): a pattern over a range of the cell store. -/
def execFill (a : RecAt) (h : RecHdr) (x : FillOps) (s : State) : Host.Outcome State Fault Refusal :=
  onDev s fun d => doRec d a h (.fill x)

/-- PASS (R72 to R87, R140 to R155). -/
def execPass (a : RecAt) (h : RecHdr) (x : PassOps) (s : State) : Host.Outcome State Fault Refusal :=
  onDev s fun d => doRec d a h (.pass x)

/-- PASS_SPLIT (R79). -/
def execPassSplit (a : RecAt) (h : RecHdr) (x : SplitOps) (s : State) : Host.Outcome State Fault Refusal :=
  onDev s fun d => doRec d a h (.split x)

/-- A comb's broadcast starts when every subscriber has reached it (R89). -/
def execBroadcastPassStart (k : Fin 32) (cycle : Nat) (s : State) : Host.Outcome State Fault Refusal :=
  onDev s fun d => startBroadcast d k.val cycle

/-- DRAIN (R78, R130 to R135). -/
def execDrain (a : RecAt) (h : RecHdr) (x : DrainOps) (s : State) : Host.Outcome State Fault Refusal :=
  onDev s fun d => doRec d a h (.drain x)

/-- VECTOR COPY (R108, R109, R136). -/
def execVectorCopy (a : RecAt) (h : RecHdr) (x : VecOps) (s : State) : Host.Outcome State Fault Refusal :=
  onDev s fun d => doRec d a h (.vector .copy x)

/-- VECTOR ADD (R108, R109, R136). -/
def execVectorAdd (a : RecAt) (h : RecHdr) (x : VecOps) (s : State) : Host.Outcome State Fault Refusal :=
  onDev s fun d => doRec d a h (.vector .add x)

/-- VECTOR SUB (R108, R109, R136). -/
def execVectorSub (a : RecAt) (h : RecHdr) (x : VecOps) (s : State) : Host.Outcome State Fault Refusal :=
  onDev s fun d => doRec d a h (.vector .sub x)

/-- VECTOR MUL (R108, R109, R136). -/
def execVectorMul (a : RecAt) (h : RecHdr) (x : VecOps) (s : State) : Host.Outcome State Fault Refusal :=
  onDev s fun d => doRec d a h (.vector .mul x)

/-- VECTOR FMA (R108, R109, R136). -/
def execVectorFma (a : RecAt) (h : RecHdr) (x : VecOps) (s : State) : Host.Outcome State Fault Refusal :=
  onDev s fun d => doRec d a h (.vector .fma x)

/-- VECTOR MAX (R108, R109, R136). -/
def execVectorMax (a : RecAt) (h : RecHdr) (x : VecOps) (s : State) : Host.Outcome State Fault Refusal :=
  onDev s fun d => doRec d a h (.vector .max x)

/-- VECTOR MIN (R108, R109, R136). -/
def execVectorMin (a : RecAt) (h : RecHdr) (x : VecOps) (s : State) : Host.Outcome State Fault Refusal :=
  onDev s fun d => doRec d a h (.vector .min x)

/-- VECTOR SCALE (R108, R109, R136). -/
def execVectorScale (a : RecAt) (h : RecHdr) (x : VecOps) (s : State) : Host.Outcome State Fault Refusal :=
  onDev s fun d => doRec d a h (.vector .scale x)

/-- VECTOR EXP (R108, R109, R136). -/
def execVectorExp (a : RecAt) (h : RecHdr) (x : VecOps) (s : State) : Host.Outcome State Fault Refusal :=
  onDev s fun d => doRec d a h (.vector .exp x)

/-- VECTOR RECIP (R108, R109, R136). -/
def execVectorRecip (a : RecAt) (h : RecHdr) (x : VecOps) (s : State) : Host.Outcome State Fault Refusal :=
  onDev s fun d => doRec d a h (.vector .recip x)

/-- VECTOR RSQRT (R108, R109, R136). -/
def execVectorRsqrt (a : RecAt) (h : RecHdr) (x : VecOps) (s : State) : Host.Outcome State Fault Refusal :=
  onDev s fun d => doRec d a h (.vector .rsqrt x)

/-- VECTOR SUM (R108, R109, R136). -/
def execVectorSum (a : RecAt) (h : RecHdr) (x : VecOps) (s : State) : Host.Outcome State Fault Refusal :=
  onDev s fun d => doRec d a h (.vector .sum x)

/-- VECTOR AMAX (R108, R109, R136). -/
def execVectorAmax (a : RecAt) (h : RecHdr) (x : VecOps) (s : State) : Host.Outcome State Fault Refusal :=
  onDev s fun d => doRec d a h (.vector .amax x)

/-- SEND (R105, R113). -/
def execSend (a : RecAt) (h : RecHdr) (x : SendOps) (s : State) : Host.Outcome State Fault Refusal :=
  onDev s fun d => doRec d a h (.send x)

/-- RLOAD (R106, R110). -/
def execRload (a : RecAt) (h : RecHdr) (x : RemOps) (s : State) : Host.Outcome State Fault Refusal :=
  onDev s fun d => doRec d a h (.rload x)

/-- RSTORE (R106, R110). -/
def execRstore (a : RecAt) (h : RecHdr) (x : RemOps) (s : State) : Host.Outcome State Fault Refusal :=
  onDev s fun d => doRec d a h (.rstore x)

/-- RATOMIC ADD (R106, R345). -/
def execRatomicAdd (a : RecAt) (h : RecHdr) (x : AtomOps) (s : State) : Host.Outcome State Fault Refusal :=
  onDev s fun d => doRec d a h (.ratomic .add x)

/-- RATOMIC MIN (R106, R345). -/
def execRatomicMin (a : RecAt) (h : RecHdr) (x : AtomOps) (s : State) : Host.Outcome State Fault Refusal :=
  onDev s fun d => doRec d a h (.ratomic .min x)

/-- RATOMIC MAX (R106, R345). -/
def execRatomicMax (a : RecAt) (h : RecHdr) (x : AtomOps) (s : State) : Host.Outcome State Fault Refusal :=
  onDev s fun d => doRec d a h (.ratomic .max x)

/-- RATOMIC SWAP (R106, R345). -/
def execRatomicSwap (a : RecAt) (h : RecHdr) (x : AtomOps) (s : State) : Host.Outcome State Fault Refusal :=
  onDev s fun d => doRec d a h (.ratomic .swap x)

/-- RATOMIC CAS (R106, R345). -/
def execRatomicCas (a : RecAt) (h : RecHdr) (x : AtomOps) (s : State) : Host.Outcome State Fault Refusal :=
  onDev s fun d => doRec d a h (.ratomic .cas x)

/-- RATOMIC AND (R106, R345). -/
def execRatomicAnd (a : RecAt) (h : RecHdr) (x : AtomOps) (s : State) : Host.Outcome State Fault Refusal :=
  onDev s fun d => doRec d a h (.ratomic .and x)

/-- RATOMIC OR (R106, R345). -/
def execRatomicOr (a : RecAt) (h : RecHdr) (x : AtomOps) (s : State) : Host.Outcome State Fault Refusal :=
  onDev s fun d => doRec d a h (.ratomic .or x)

/-- RTRIG (R106, R347). -/
def execRtrig (a : RecAt) (h : RecHdr) (x : TrigOps) (s : State) : Host.Outcome State Fault Refusal :=
  onDev s fun d => doRec d a h (.rtrig x)

/-- ALLOC (R105, R117). -/
def execAlloc (a : RecAt) (h : RecHdr) (x : AllocOps) (s : State) : Host.Outcome State Fault Refusal :=
  onDev s fun d => doRec d a h (.alloc x)

/-- A Vat instance serves the waiting requests that now fit (R285, R297). -/
def execWaitingRequestServed (i : Fin 2) (cycle : Nat) (s : State) : Host.Outcome State Fault Refusal :=
  onDev s fun d => serveAgain d i.val cycle

/-- A record completes (R103, R110, R113). -/
def execRecordComplete (c : Fin 256) (id : Nat) (cycle : Nat) (s : State) : Host.Outcome State Fault Refusal :=
  onDev s fun d => finishRec d c.val id cycle

/-- The data of a SEND of a cell is written at its target (R113). -/
def execSendArrival (c : Fin 256) (id : Nat) (cycle : Nat) (target : Fin 256) (s : State) : Host.Outcome State Fault Refusal :=
  onDev s fun d => landSend d c.val id cycle target.val

/-- A remote operation's reply reaches its cell (R110, R111, R114). -/
def execRemoteReply (c : Fin 256) (op : Fin 16) (frame : Nat) (data : List Byte) (cycle : Nat) (s : State) : Host.Outcome State Fault Refusal :=
  onDev s fun d => remoteReplyTo d c.val op.val frame data cycle

/-- A remote operation's refusal reaches its cell (R115, R338). -/
def execRemoteRefuse (c : Fin 256) (op : Fin 16) (frame : Nat) (code : Fin 16) (s : State) : Host.Outcome State Fault Refusal :=
  onDev s fun d => remoteRefusedAt d c.val op.val frame code.val

end Sys2Proof.Machine
end

