-- ==== Sys2Proof/Machine/Waggle.lean ====
section
/-! DEFINITION. The Waggle engines (07): block ingest and its drops, keys, the five job kinds, outputs and job times. -/

namespace Sys2Proof.Machine

/-- A Waggle engine with no work. -/
def WglEng.init : WglEng := ⟨[], [], none, [], 0, false, []⟩

/-- A Waggle engine. -/
def wglOf (d : Dev) (i : Nat) : WglEng := smGetD WglEng.init d.wgl i

/-- Changes a Waggle engine. -/
def modWgl (d : Dev) (i : Nat) (g : WglEng → WglEng) : Dev := { d with wgl := smModD WglEng.init d.wgl i g }

/-- The jobs of a slice on an engine in the order they run: entry index, kind, job (R172; the section is sorted, R196). -/
def wglJobs (img : Image) (sl i : Nat) : List (Nat × Nat × WglJob) :=
  img.entries.filterMap fun e => match e.what with
    | .wgl k j => if e.inst = i ∧ j.slice = sl then some (e.index, k, j) else none
    | _ => none

/-! ## Events (R194, R512) -/

/-- An event that counts once per job. -/
def jobEvent (d : Dev) (i job bit : Nat) : Dev :=
  if (wglOf d i).noted.contains (job, bit) then d
  else
    let d := modWgl d i fun e => { e with noted := e.noted ++ [(job, bit)] }
    let u := pWgl i
    if bit < 4 then eventG d 2 u Reg.WGL_EVENTS bit (Reg.WGL_EVT_NAN_SCORE + 4 * bit)
    else event d u Reg.WGL_EVENTS bit (Reg.WGL_EVT_NAN_SCORE + 4 * bit)

/-- Drops a block or an index entry (R175, Table 07-5). -/
def wglDrop (d : Dev) (i code job n : Nat) : Dev :=
  if n = 0 then d
  else
    let u := pWgl i
    let d := wrN d u Reg.WGL_LAST_DROP (code + job % 65536 * 65536)
    bump (events d u Reg.WGL_EVENTS 4 Reg.WGL_EVT_BLOCK_DROP n) u Reg.WGL_BLOCKS_DROPPED n

/-! ## Keys (R178, R179) -/

/-- Widens a score exactly to FP32. -/
def widenScore (fmt raw : Nat) : Nat :=
  if fmt = 7 then raw % 2 ^ 32
  else if fmt = 5 then raw % 65536 * 65536
  else roundFloat fp32 (decodeNum ⟨16, 5, 10, 15, .ieee⟩ raw)

/-- The key of an FP32 score; only a NaN has key 0. -/
def scoreKey (f : Nat) : Nat :=
  if f / 2 ^ 23 % 256 = 255 ∧ f % 2 ^ 23 ≠ 0 then 0
  else if f = 2 ^ 31 then 2 ^ 31
  else if 2 ^ 31 ≤ f then 2 ^ 32 - 1 - f
  else f + 2 ^ 31

/-- An entry of a score block: slot, token index, key, FP32 score. -/
structure WglEntry where
  slot  : Nat
  token : Nat
  key   : Nat
  score : Nat
  deriving DecidableEq, Repr

/-- Bytes of a score in a format. -/
def scoreBytes (fmt : Nat) : Nat := if fmt = 7 then 4 else 2

/-- FP32 score of entry `i` of a score block. -/
def blkScore (raw : List Byte) (fmt i : Nat) : Nat :=
  widenScore fmt (leAt raw (0x40 + scoreBytes fmt * i) (scoreBytes fmt))

/-- Token index of entry `i` of an INDEXED score block. -/
def blkToken (raw : List Byte) (fmt i : Nat) : Nat := leAt raw (0x40 + 128 * scoreBytes fmt + 4 * i) 4

/-- The present entries of a block in ascending slot. -/
def blkEntries (b : WglBlk) (fmt : Nat) (indexed : Bool) : List WglEntry :=
  (List.range 128).filterMap fun i =>
    if bitAt (leAt b.raw 0x20 16) i then
      let s := blkScore b.raw fmt i
      some ⟨b.base + i, if indexed then blkToken b.raw fmt i else b.base + i, scoreKey s, s⟩
    else none

/-- Entries with a token named before in the list taken out: the rest, and how many there were (R176). -/
def dropTwice : List WglEntry → List Nat → List WglEntry × Nat
  | [], _ => ([], 0)
  | e :: l, seen =>
    if seen.contains e.token then
      let r := dropTwice l seen
      (r.1, r.2 + 1)
    else
      let r := dropTwice l (e.token :: seen)
      (e :: r.1, r.2)

/-- The score blocks of a job's column in ascending TOKEN_BASE. -/
def colBlocks (e : WglEng) (job col : Nat) : List WglBlk :=
  sortBy (fun a b => decide (a.base < b.base)) (e.blocks.filter fun b => b.job == job && b.kind == 0 && b.col == col)

/-- The present entries of a column and the entries that repeat a token. -/
def colEntries (e : WglEng) (job : Nat) (j : WglJob) (col : Nat) : List WglEntry × Nat :=
  let l := (colBlocks e job (j.eFirst + col)).flatMap fun b => blkEntries b j.scoreFmt.val j.indexed
  if j.indexed then dropTwice l [] else (l, 0)

/-- Does an entry pass the floor of a job? -/
def passFloor (j : WglJob) (e : WglEntry) : Bool := !j.floorEn || decide (scoreKey j.floor.toNat ≤ e.key)

/-- The eligible entries, and the number rejected by the floor (R179). -/
def eligible (j : WglJob) (l : List WglEntry) : List WglEntry × Nat :=
  let real := l.filter fun e => decide (e.key ≠ 0)
  (real.filter (passFloor j), (real.filter fun e => !passFloor j e).length)

/-- Key descending, then token ascending. -/
def ranksBefore (a b : WglEntry) : Bool := decide (b.key < a.key) || (a.key == b.key && decide (a.token < b.token))

/-- The `c` best entries of a list, in ascending token (R180). -/
def choose (c : Nat) (l : List WglEntry) : List WglEntry :=
  sortBy (fun a b => decide (a.token < b.token)) ((sortBy ranksBefore l).take c)

/-! ## Records and tables (R184, R185) -/

/-- A route record (Table 07-8). -/
def recordBytes (j : WglJob) (r : WglRec) : List Byte :=
  leBytes 4 (r.token % 2 ^ 24 + r.pass * 2 ^ 24 + 2 ^ 25) ++ leBytes 2 (j.eFirst + r.col) ++ leBytes 2 r.slot
    ++ leBytes 4 (if r.score = 2 ^ 31 then 0 else r.score) ++ leBytes 2 (r.token / j.tSrc % 2048) ++ leBytes 2 0

/-- The records of a column, empty places included. -/
def columnBytes (j : WglJob) (rs : List WglRec) (col : Nat) : List Byte :=
  (List.range j.capacity).flatMap fun r => match rs.find? fun x => x.col == col && x.slot == r with
    | some x => recordBytes j x
    | none => leBytes 16 0

/-- Records of a column, source and pass. -/
def countOf (j : WglJob) (rs : List WglRec) (col src pass : Nat) : Nat :=
  (rs.filter fun r => r.col == col && r.token / j.tSrc == src && r.pass == pass).length

/-- Bytes of the count table. -/
def countBytes (j : WglJob) : Nat := roundUp (4 * j.eCount * j.sources) 32

/-- The count table. -/
def countTable (j : WglJob) (rs : List WglRec) : List Byte :=
  sliceBytes ((List.range j.eCount).flatMap fun e => (List.range j.sources).flatMap fun s =>
    leBytes 4 (countOf j rs e s 0 + 65536 * countOf j rs e s 1)) 0 (countBytes j)

/-- A bitmap of `n` bits from a predicate. -/
def bitmapBytes (n : Nat) (f : Nat → Bool) : List Byte :=
  (List.range (n / 8)).map fun b => BitVec.ofNat 8 ((List.range 8).foldl (fun v i => v + b2n (f (8 * b + i)) * 2 ^ i) 0)

/-- The output region of a SELECT, as its records stand (Table 07-7). -/
def regionBytes (j : WglJob) (rs : List WglRec) : List Byte :=
  ((List.range j.eCount).flatMap fun e => columnBytes j rs e) ++ countTable j rs
    ++ if j.indexed then [] else bitmapBytes j.n fun t => rs.any fun r => r.token == t

/-- Bytes of a job's output region (R184). -/
def outBytes (kind : Nat) (j : WglJob) : Nat :=
  match kind with
  | 3 => j.eCount * (j.n / 128) * (64 + 128 * scoreBytes j.scoreFmt.val)
  | 4 => j.n / 8
  | 5 => j.tSrc / 8
  | _ => 16 * j.eCount * j.capacity + countBytes j + if j.indexed then 0 else j.n / 8

/-! ## Jobs -/

/-- What a job finds. -/
structure WglRes where
  bytes    : List Byte
  recs     : List WglRec
  picked   : Nat
  rejects  : Nat
  unfilled : Nat
  unrouted : Nat
  twice    : Nat
  draw     : Bool              -- it used free values
  deriving DecidableEq, Repr

/-- Does a SECOND complete a SELECT (R171)? -/
def sameRegion (a b : WglJob) : Bool :=
  a.jobId == b.jobId && a.eFirst == b.eFirst && a.eCount == b.eCount && a.capacity == b.capacity && a.n == b.n
    && a.outRef == b.outRef && a.outOffset == b.outOffset

/-- SELECT: each column takes its C best eligible tokens (R180). `last`: no SECOND follows (R182). -/
def runSelect (e : WglEng) (job : Nat) (j : WglJob) (last : Bool) : WglRes :=
  let cols := (List.range j.eCount).map fun c =>
    let l := colEntries e job j c
    let q := eligible j l.1
    ((choose j.capacity q.1).zipIdx.map fun x => (⟨c, x.2, x.1.token, x.1.score, 0⟩ : WglRec), q.2, l.2)
  let rs := cols.flatMap fun c => c.1
  ⟨regionBytes j rs, rs, rs.length, cols.foldl (fun n c => n + c.2.1) 0,
    if last then j.eCount * j.capacity - rs.length else 0, 0, cols.foldl (fun n c => n + c.2.2) 0, false⟩

/-- Is a bit set in some bitmap block of a kind? -/
def anyBit (e : WglEng) (job kind t : Nat) : Bool :=
  e.blocks.any fun b => b.job == job && b.kind == kind && decide (b.base ≤ t) && decide (t < b.base + 4096)
    && bitAt (b.raw.getD (0x20 + (t - b.base) / 8) 0).toNat ((t - b.base) % 8)

/-- SECOND: each column offers the places left to tokens that no home chose (R181). -/
def runSecond (e : WglEng) (job : Nat) (j : WglJob) (selJob : Nat) (sel : WglJob) (first : List WglRec) : WglRes :=
  let cols := (List.range j.eCount).map fun c =>
    let n1 := (first.filter fun r => r.col == c && r.pass == 0).length
    let l := (colEntries e selJob sel c).1.filter fun x => !anyBit e job 1 x.token
    let q := eligible j l
    ((choose (j.capacity - n1) q.1).zipIdx.map fun x => (⟨c, n1 + x.2, x.1.token, x.1.score, 1⟩ : WglRec), q.2)
  let new := cols.flatMap fun c => c.1
  let rs := first ++ new
  ⟨regionBytes j rs, rs, new.length, cols.foldl (fun n c => n + c.2) 0, j.eCount * j.capacity - rs.length, 0, 0, false⟩

/-- Groups kept for a slot in a TOPK: the R best eligible groups, ties to the lower index (R188). -/
def topGroups (e : WglEng) (job : Nat) (j : WglJob) (slot : Nat) : List Nat × Nat :=
  let l := (List.range j.eCount).filterMap fun g =>
    (((colEntries e job j g).1.find? fun x => x.slot == slot)).map fun x => { x with token := g }
  let q := eligible j l
  (((sortBy ranksBefore q.1).take j.capacity).map WglEntry.token, q.2)

/-- TOPK: score blocks that hold only the picks (R184, R188). A block that was never ingested has free scores. -/
def runTopk (e : WglEng) (job : Nat) (j : WglJob) (frame seq : Nat) : WglRes :=
  let w := scoreBytes j.scoreFmt.val
  let keep := (List.range j.n).map fun s => topGroups e job j s
  let blocks := (List.range j.eCount).flatMap fun g => (List.range (j.n / 128)).map fun u => (g, u)
  let one := fun (g u : Nat) =>
    let src := (colBlocks e job (j.eFirst + g)).find? fun b => b.base == 128 * u
    let pres := (List.range 128).foldl (fun v i => v + b2n ((keep.getD (128 * u + i) ([], 0)).1.contains g) * 2 ^ i) 0
    [0, BitVec.ofNat 8 j.scoreFmt.val] ++ leBytes 2 j.outJobId ++ leBytes 2 frame ++ leBytes 2 (j.eFirst + g)
      ++ leBytes 4 (128 * u) ++ leBytes 20 0 ++ leBytes 16 pres ++ leBytes 16 0
      ++ match src with
        | some b => sliceBytes b.raw 0x40 (128 * w)
        | none => (List.range (128 * w)).map fun i => Config.freeByte seq ((g * (j.n / 128) + u) * 512 + i)
  ⟨blocks.flatMap fun b => one b.1 b.2, [], 0, keep.foldl (fun n k => n + k.2) 0, 0, 0, 0,
    blocks.any fun b => ((colBlocks e job (j.eFirst + b.1)).find? fun x => x.base == 128 * b.2).isNone⟩

/-- NEURON: the K_SEG best neurons of each segment of 128 (R165, R190). -/
def runNeuron (e : WglEng) (job : Nat) (j : WglJob) : WglRes :=
  let l := (colEntries e job j 0).1
  let segs := (List.range (j.n / 128)).map fun g => eligible j (l.filter fun x => x.slot / 128 == g)
  let kept := segs.flatMap fun s => (choose j.capacity s.1).map WglEntry.slot
  ⟨bitmapBytes j.n fun t => kept.contains t, [], 0, segs.foldl (fun n s => n + s.2) 0, 0, 0, 0, false⟩

/-- TALLY: the owner's live tokens that no home chose (R183). -/
def runTally (e : WglEng) (job : Nat) (j : WglJob) : WglRes :=
  let f := fun i => anyBit e job 2 (j.self * j.tSrc + i) && !anyBit e job 1 (j.self * j.tSrc + i)
  ⟨bitmapBytes j.tSrc f, [], 0, 0, 0, ((List.range j.tSrc).filter f).length, 0, false⟩

/-- Job time W (Table 07-9). -/
def jobTime (kind : Nat) (j : WglJob) : Nat :=
  match kind with
  | 3 => 96 + j.n / 128 * j.eCount * (if j.scoreFmt.val = 7 then 3 else 2)
  | 4 => 96 + j.n / 64 + ceilDiv j.n 2048
  | 5 => 96 + ceilDiv j.tSrc 2048
  | _ => 96 + j.eCount * max (ceilDiv j.n 64) (ceilDiv j.capacity 16) + ceilDiv j.capacity 16 + ceilDiv j.n 2048

/-! ## Ingest (R174 to R178) -/

/-- Bytes of a block from its header (R174). -/
def blkBytes (b : List Byte) : Nat :=
  if leAt b 0 1 = 0 then 64 + 128 * scoreBytes (leAt b 1 1) + 512 * (leAt b 0xC 1 % 2) else 544

/-- Which job kinds take a block kind. -/
def takesBlock (kind job : Nat) : Bool :=
  match kind with
  | 0 => job == 1 || job == 3 || job == 4
  | 1 => job == 2 || job == 5
  | 2 => job == 5
  | _ => false

/-- The drop code of a block for a job, from code 3 on; 0 when it is kept. -/
def blkCode (kind : Nat) (j : WglJob) (b : List Byte) (seen : Bool) : Nat :=
  let bk := leAt b 0 1
  let fmt := leAt b 1 1
  let col := leAt b 6 2
  let tb := leAt b 8 4
  let fl := leAt b 0xC 1
  let score := decide (bk = 0)
  let form := takesBlock bk kind && decide (blkBytes b ≤ b.length)
    && (if score then fmt == j.scoreFmt.val && (fl % 2 == 1) == j.indexed else fmt == 0 && fl % 2 == 0)
  let inside := if score then decide (j.eFirst ≤ col) && decide (col < j.eFirst + j.eCount) && tb % 128 == 0 && decide (tb + 128 ≤ j.n)
    else
      let lim := if bk = 2 then 1 else if kind = 2 then j.homes else j.eCount
      decide (col < lim) && tb % 4096 == 0 && decide (tb < j.n)
  let rsv := decide (fl / 2 ≠ 0) || (sliceBytes b 0xD 19).any (fun x => decide (x ≠ 0))
    || (score && (sliceBytes b 0x30 16).any fun x => decide (x ≠ 0))
    || (score && j.indexed && (List.range 128).any fun i => decide (2 ^ 24 ≤ blkToken b fmt i))
  if !form then 3 else if !inside then 4 else if seen then 5 else if rsv then 6 else 0

/-- Is the partition's frame ended for its engines (R193)? -/
def frameOver (d : Dev) (p : Nat) : Bool := (partOf d p).cutTaken && decide ((partOf d p).decision = some false)

/-- A block kept in the frame for the same JOB_ID, KIND, COLUMN and TOKEN_BASE, with the job it was kept for (R176). -/
def sameBlock (e : WglEng) (jobs : List (Nat × Nat × WglJob)) (raw : List Byte) : Option (WglBlk × Nat × WglJob) :=
  jobs.findSome? fun x =>
    if x.2.2.jobId ≠ leAt raw 2 2 then none
    else (e.blocks.find? fun b => b.job == x.1 && b.kind == leAt raw 0 1 && b.col == leAt raw 6 2 && b.base == leAt raw 8 4).map
      fun b => (b, x.2.1, x.2.2)

/-- The second block for a column and TOKEN_BASE: dropped with code 5; other contents are a conflict, which kills the frame
(R176). -/
def blockAgain (d : Dev) (i p : Nat) (old : WglBlk) (raw : List Byte) : Dev :=
  let d := if old.raw = raw.take (blkBytes raw) then d
    else fileKill (event d (pWgl i) Reg.WGL_EVENTS 6 Reg.WGL_EVT_BLOCK_CONFLICT) p 2
  wglDrop d i 5 (leAt raw 2 2) 1

/-- A block is ingested for a job; its NaN scores are counted (R175, R178). -/
def keepBlock (d : Dev) (i ix src : Nat) (j : WglJob) (raw : List Byte) (cycle : Nat) : Dev :=
  let b := raw.take (blkBytes raw)
  let blk : WglBlk := ⟨ix, leAt raw 0 1, leAt raw 6 2, leAt raw 8 4, b, src, cycle + ceilDiv b.length 256 - 1⟩
  let d := modWgl d i fun e => { e with blocks := e.blocks ++ [blk] }
  if leAt raw 0 1 ≠ 0 then d
  else
    let nans := ((List.range 128).filter fun k => scoreKey (blkScore b j.scoreFmt.val k) == 0).length
    let d := bump (bump d (pWgl i) Reg.WGL_KEYS 128) (pWgl i) Reg.WGL_NAN_SCORES nans
    if nans = 0 then d else jobEvent d i ix 0

/-- WGL_BLOCK_INGEST: a block reaches an engine; its first byte in `cycle`. -/
def wglIngest (d : Dev) (i src : Nat) (raw : List Byte) (cycle : Nat) : Dev :=
  let jid := leAt raw 2 2
  match ownerOf d (pWgl i) with
  | none => wglDrop d i 2 jid 1
  | some p =>
    if leAt raw 4 2 ≠ frameNum d p ∨ frameOver d p then wglDrop d i 1 jid 1
    else match runImage d p with
    | none => wglDrop d i 2 jid 1
    | some (_, _, img, sl) =>
      let e := wglOf d i
      let jobs := wglJobs img sl i
      let cands := jobs.filter fun x => x.2.2.jobId == jid && !e.started.contains x.1
      let old := sameBlock e jobs raw
      match (cands.find? fun x => takesBlock (leAt raw 0 1) x.2.1) <|> cands.head? with
      | none => match old with
        | some (b, kind, j) => if blkCode kind j raw true = 5 then blockAgain d i p b raw else wglDrop d i 2 jid 1
        | none => wglDrop d i 2 jid 1
      | some (ix, kind, j) =>
        match old with
        | some (b, _, _) =>
          let c := blkCode kind j raw true
          if c = 5 then blockAgain d i p b raw else wglDrop d i c jid 1
        | none =>
          let c := blkCode kind j raw false
          if c = 0 then keepBlock d i ix src j raw cycle else wglDrop d i c jid 1

/-! ## Start and completion (R172, R177, R182, R192) -/

/-- The cause that delayed a block of the own device: that of the Swarm entry that fed it (R177); else the frame's first disturbance
(log entry 30, DEDUCED). -/
def ownBlockCause (d : Dev) (p i jid : Nat) : Nat × Nat :=
  let feeds := fun (r : SwmRun) => decide (r.why.1 ≠ 0) && match r.what with
    | .swm _ (.score x) => x.jobId == jid && x.wglInstance.val == i
    | .swm _ (.bitmap x) => x.jobId == jid && x.wglInstance.val == i
    | _ => false
  match d.swm.findSome? fun e => e.2.runs.find? feeds with
  | some r => r.why
  | none => localCause d p

/-- What a late job is charged to: the source node of its last block, or the cause that delayed a block of this device (R177). -/
def wglCause (d : Dev) (p i jid : Nat) (src : Option Nat) : Nat × Nat :=
  match src with
  | none => (0, 0)
  | some node => if node = myNode d then ownBlockCause d p i jid else (causeRemote, node)

/-- Late cycles of a job (R177): counted, BLOCK_LATE, and charged. -/
def wglLate (d : Dev) (i job jid p n : Nat) (src : Option Nat) : Dev :=
  if n = 0 then d
  else
    let c := wglCause d p i jid src
    charge (jobEvent (bump d (pWgl i) Reg.WGL_LATE_CYCLES n) i job 5) p c.1 n c.2

/-- A job fails its output checks (R192). -/
def wglFail (d : Dev) (i job code sub : Nat) : Dev :=
  let u := pWgl i
  let d := if rdB d u Reg.WGL_JOB_ERR 4 then d else wrN d u Reg.WGL_JOB_ERR (code + 16 + 65536 * sub)
  let d := jobEvent d i job 7
  modWgl d i fun e => { e with stopped := true, started := job :: e.started }

/-- The job an engine runs next. -/
def nextJob (e : WglEng) (jobs : List (Nat × Nat × WglJob)) : Option (Nat × Nat × WglJob) :=
  jobs.find? fun x => !e.started.contains x.1

/-- A job starts in the latest cycle of R172, once its blocks are there and its buffer is allocated (log entry 75, DEDUCED); a command
for another cycle finds no start. -/
def wglStart (d : Dev) (i kind : Nat) (j : WglJob) (cycle : Nat) : Dev :=
  match engineImage d (pWgl i) with
  | none => d
  | some (p, _, img, sl) =>
    let d := listsBy d p cycle
    let e := wglOf d i
    let jobs := wglJobs img sl i
    match nextJob e jobs, refOf d p img sl j.outRef with
    | some (ix, k, j'), some (h, rdy) =>
      let mine := e.blocks.filter fun b => b.job == ix
      if k ≠ kind ∨ j' ≠ j ∨ e.stopped ∨ e.run.isSome ∨ (partOf d p).killNow.isSome ∨ (partOf d p).cutTaken
          ∨ mine.length < j.inBlocks then d
      else
        let last := mine.foldl (fun a b => if a.1 ≤ b.done then (b.done, some b.src) else a) (0, none)
        let need := if mine.isEmpty then 0 else last.1 + 1
        let other := max j.startCycle e.free
        let start := max (max other need) (if rdy = 0 then 0 else rdy + 1)
        if cycle ≠ start then d
        else
        let why := if need ≤ other then 0 else (wglCause d p i j.jobId last.2).1
        let d := wglLate d i ix j.jobId p (need - other) last.2
        let d := wrN d (pWgl i) Reg.WGL_STATUS (2 * kind + 65536 * (j.jobId % 65536))
        match handleOperand d p h j.outOffset (outBytes kind j) true with
        | .error (.check c) => wglFail (checkFailed d p h true c) i ix 1 c
        | .error .range => wglFail d i ix 2 0
        | .ok a =>
          let sel := jobs.find? fun x => x.2.1 == 1 && sameRegion x.2.2 j
          let r := match kind with
            | 1 => runSelect e ix j !(jobs.any fun x => x.2.1 == 2 && sameRegion x.2.2 j)
            | 2 => match sel with
              | some (sx, _, sj) => runSecond e ix j sx sj (((e.picks.find? fun (q : Nat × List WglRec) => q.1 == sx).map Prod.snd).getD [])
              | none => runSecond e ix j ix j []
            | 3 => runTopk e ix j (frameNum d p) d.freeSeq
            | 4 => runNeuron e ix j
            | _ => runTally e ix j
          let d := if r.draw then drawFree d else d
          let d := wglDrop d i 6 j.jobId r.twice
          let d := wrF d (pWgl i) Reg.WGL_STATUS 0 0 1
          modWgl d i fun e => { e with
            started := ix :: e.started
            run := some ⟨ix, kind, j, start + jobTime kind j - 1, why, [(a, r.bytes)], r.recs, r.picked, r.rejects, r.unfilled, r.unrouted⟩ }
    | _, _ => d

/-- A job completes W cycles after its start, in that cycle and by the cut (R22, R172): its output is written in full and its tag
advances. -/
def wglComplete (d : Dev) (i cycle : Nat) : Dev :=
  match (wglOf d i).run, engineImage d (pWgl i) with
  | some r, some (p, _, _, _) =>
    if cycle ≠ r.fin ∨ cutCycle d p < cycle ∨ (partOf d p).cutTaken then d
    else
      let u := pWgl i
      let d := r.out.foldl (fun d o => engWrite d p u (r.job % 65536) cycle o.1 o.2) d
      let d := bump d u (if r.kind = 2 then Reg.WGL_SECOND_SELECTED else Reg.WGL_SELECTED) r.picked
      let d := bump d u Reg.WGL_FLOOR_REJECTS r.rejects
      let d := if r.rejects = 0 then d else jobEvent d i r.job 1
      let d := bump d u Reg.WGL_UNFILLED_PLACES r.unfilled
      let d := if r.unfilled = 0 then d else jobEvent d i r.job 2
      let d := bump d u Reg.WGL_UNROUTED_TOKENS r.unrouted
      let d := if r.unrouted = 0 then d else jobEvent d i r.job 3
      let d := bump (wrF d u Reg.WGL_STATUS 0 0 0) u Reg.WGL_JOBS 1
      let d := modWgl d i fun e => { e with
        run := none, free := r.fin + 1, picks := if r.kind = 1 then e.picks ++ [(r.job, r.recs)] else e.picks }
      if r.entry.notifyEn then notify d p r.entry.notifySlot r.entry.notifyTag.val cycle r.why else d
  | _, _ => d

/-! ## The frame (R168, R173, R177, R193) -/

/-- The Waggle engines of a partition. -/
def wglEngines (d : Dev) (p : Nat) : List Nat := [0, 1].filter fun i => decide (ownerOf d (pWgl i) = some p)

/-- Is an engine done (R173)? -/
def wglDone (d : Dev) (i : Nat) : Bool :=
  match engineImage d (pWgl i) with
  | none => true
  | some (_, _, img, sl) =>
    let e := wglOf d i
    !e.stopped && e.run.isNone && (wglJobs img sl i).all fun x => e.started.contains x.1

/-- The blocks that a job expects, as KIND, COLUMN and TOKEN_BASE (R174, R175, R181, R183). -/
def expectedBlocks (kind : Nat) (j : WglJob) : List (Nat × Nat × Nat) :=
  let bits := fun (k cols : Nat) => (List.range cols).flatMap fun c =>
    (List.range (ceilDiv j.n 4096)).map fun t => (k, c, 4096 * t)
  match kind with
  | 2 => bits 1 j.homes
  | 5 => bits 2 1 ++ bits 1 j.eCount
  | _ => (List.range j.eCount).flatMap fun c => (List.range (j.n / 128)).map fun t => (0, j.eFirst + c, 128 * t)

/-- The node that the first missing block of a job comes from: for scores the member that owns its slots; for bitmaps the node that
sent another block of the home, or else the first other member that sent none (log entry 31, DEDUCED). -/
def missingSource (d : Dev) (img : Image) (kind : Nat) (j : WglJob) (mine : List WglBlk) : Nat :=
  match (expectedBlocks kind j).find? fun q => !(mine.any fun b => b.kind == q.1 && b.col == q.2.1 && b.base == q.2.2) with
  | none => myNode d
  | some (k, col, base) =>
    if k = 0 then ((img.exch[base / j.tSrc]?).map Peer.node).getD (myNode d)
    else if k = 2 then myNode d
    else match mine.find? fun b => b.kind == k && b.col == col with
      | some b => b.src
      | none => ((img.exch.map Peer.node).find? fun n => n != myNode d && !(mine.any fun b => b.src == n)).getD (myNode d)

/-- At the completion cut a job whose blocks are still missing is late (R177). -/
def wglCut (d : Dev) (p i cutCycle : Nat) : Dev :=
  match engineImage d (pWgl i) with
  | none => d
  | some (_, _, img, sl) =>
    let e := wglOf d i
    match nextJob e (wglJobs img sl i) with
    | none => d
    | some (ix, kind, j) =>
      let mine := e.blocks.filter fun b => b.job == ix
      if e.stopped ∨ e.run.isSome ∨ j.inBlocks ≤ mine.length then d
      else wglLate d i ix j.jobId p (cutCycle - max j.startCycle e.free) (some (missingSource d img kind j mine))

/-- A killed frame stops the running job and discards keys and blocks (R193). -/
def wglStop (d : Dev) (i : Nat) : Dev :=
  modWgl (wrF d (pWgl i) Reg.WGL_STATUS 0 0 0) i fun e => { e with run := none, blocks := [] }

/-- At a tick the key memory is cleared and the frame's jobs begin (R168). -/
def wglFrame (d : Dev) (i : Nat) : Dev :=
  modWgl (wrF (wrF d (pWgl i) Reg.WGL_STATUS 0 0 0) (pWgl i) Reg.WGL_JOB_ERR 4 4 0) i fun _ => WglEng.init

/-! ## The meanings -/

/-- A block reaches a Waggle engine (R174 to R178). -/
def execWglBlockIngest (i : Fin 2) (srcNode : Nat) (raw : List Byte) (cycle : Nat) (s : State) : Host.Outcome State Fault Refusal :=
  onDev s fun d => absorbing d [pWgl i.val] fun d => wglIngest d i.val srcNode raw cycle

/-- SELECT starts and chooses (R180). -/
def execSelect (i : Fin 2) (j : WglJob) (cycle : Nat) (s : State) : Host.Outcome State Fault Refusal :=
  onDev s fun d => wglStart d i.val 1 j cycle

/-- SECOND starts and chooses (R181). -/
def execSecond (i : Fin 2) (j : WglJob) (cycle : Nat) (s : State) : Host.Outcome State Fault Refusal :=
  onDev s fun d => wglStart d i.val 2 j cycle

/-- TOPK starts and picks (R188). -/
def execTopk (i : Fin 2) (j : WglJob) (cycle : Nat) (s : State) : Host.Outcome State Fault Refusal :=
  onDev s fun d => wglStart d i.val 3 j cycle

/-- NEURON starts and picks (R165, R190). -/
def execNeuron (i : Fin 2) (j : WglJob) (cycle : Nat) (s : State) : Host.Outcome State Fault Refusal :=
  onDev s fun d => wglStart d i.val 4 j cycle

/-- TALLY starts (R183). -/
def execTally (i : Fin 2) (j : WglJob) (cycle : Nat) (s : State) : Host.Outcome State Fault Refusal :=
  onDev s fun d => wglStart d i.val 5 j cycle

/-- The running job completes (R172, R184). -/
def execWglJobComplete (i : Fin 2) (cycle : Nat) (s : State) : Host.Outcome State Fault Refusal :=
  onDev s fun d => wglComplete d i.val cycle

end Sys2Proof.Machine
end

