-- ==== Sys2Proof/Machine/Swarm.lean ====
section
/-! DEFINITION. The Swarm engines (08): entries and their start, the units they send, landings, the live table, the ordered
combine, and exchange-group votes. Collective entries are in Collective.lean. -/

namespace Sys2Proof.Machine

/-- Is an entry a Swarm engine's? -/
def SlotKind.isSwm : SlotKind → Bool
  | .wgl _ _ => false
  | _ => true

/-- The Swarm entries of a slice on an engine, in entry order. -/
def swmEntries (img : Image) (sl i : Nat) : List SlotEnt :=
  img.entries.filter fun e => e.inst == i && e.what.isSwm && e.what.slice == sl

/-- Entries of which an engine runs one at a time (R195, R352). -/
def SlotKind.serial : SlotKind → Bool
  | .swm _ (.combine _) => true
  | .swm _ (.live _) => true
  | .col false _ => true
  | _ => false

/-- The health agent is to test engines of this device (R20, R224). -/
def askTests (d : Dev) (p : Nat) (us : List Nat) : Dev :=
  modPart d p fun t => { t with testEng := t.testEng ++ us.filter fun u => !t.testEng.contains u }

/-- Contents that break their bounds: BOUND_DROP once for each unit, and a kill; the health agent tests the engine that sends from them
(R224). -/
def boundDrop (d : Dev) (i p n : Nat) : Dev := if n = 0 then d else askTests (fileKill (swmEvent d i 6 n) p 2) p [pSwm i]

/-! ## Route views and SELECT regions (Tables 07-7, 07-8, 08-6) -/

/-- A route record as it is read. -/
structure RouteRec where
  token  : Nat
  pass   : Nat
  valid  : Bool
  expert : Nat
  slot   : Nat
  score  : Nat
  source : Nat
  j      : Nat                 -- its place in its view row
  deriving DecidableEq, Repr

/-- Reads a route record. -/
def routeRec (l : List Byte) (j : Nat) : RouteRec :=
  let w := leAt l 0 4
  ⟨w % 2 ^ 24, w / 2 ^ 24 % 2, w / 2 ^ 25 % 2 == 1, leAt l 4 2 % 8192, leAt l 6 2 % 16384, leAt l 8 4, leAt l 12 2 % 2048, j⟩

/-- A row of a route view. -/
structure ViewRow where
  count1 : Nat
  count2 : Nat
  expert : Nat
  recs   : List RouteRec
  deriving DecidableEq, Repr

/-- Bytes of a view row. -/
def viewStride (runMax : Nat) : Nat := 32 + 16 * runMax

/-- Row `r` of a view at an address; at most RUN_MAX records are read. -/
def viewRow (d : Dev) (base r runMax : Nat) : ViewRow :=
  let a := base + r * viewStride runMax
  let c1 := engLe d a 2
  let c2 := engLe d (a + 2) 2
  let n := min (c1 + c2) runMax
  ⟨c1, c2, engLe d (a + 4) 2, (List.range n).map fun j => routeRec (engBytes d (a + 32 + 16 * j) 16) j⟩

/-- The capacity C that an image's jobs and entries give its columns, 0 for none: a LAND, a DISPATCH and a COMBINE carry none
(log entry 110, DEDUCED). -/
def imageCap (img : Image) : Nat :=
  img.entries.foldl (fun n e => max n (match e.what with
    | .wgl 1 j => j.capacity
    | .swm _ (.route x) => x.cap
    | .swm _ (.ret x) => x.cap
    | .swm _ (.live x) => x.cap
    | _ => 0)) 0

/-- Does a view row break its bounds (R224)? -/
def viewBad (v : ViewRow) (runMax self cap : Nat) : Bool :=
  decide (runMax < v.count1 + v.count2)
    || v.recs.any fun r => r.source != self || r.expert != v.expert || (cap != 0 && decide (cap ≤ r.slot))

/-- The rows of a view from `first` on; a row that breaks its bounds gives no record. -/
def goodRows (d : Dev) (base first n runMax self cap : Nat) : List ViewRow × Nat :=
  let rows := (List.range n).map fun r => viewRow d base (first + r) runMax
  (rows.map fun v => if viewBad v runMax self cap then { v with recs := [] } else v,
    (rows.filter fun v => viewBad v runMax self cap).length)

/-- The bytes of view rows that are read. -/
def viewReads (d : Dev) (base first n runMax : Nat) : List (Nat × Nat) :=
  (List.range n).map fun r =>
    let a := base + (first + r) * viewStride runMax
    (a, 32 + 16 * min (engLe d a 2 + engLe d (a + 2) 2) runMax)

/-- Bytes of the records and counts of a SELECT region. -/
def selectBytes (eCount cap sources : Nat) : Nat := 16 * eCount * cap + 4 * eCount * sources

/-- Counts of a column and source: pass 1, pass 2. -/
def selCount (d : Dev) (base eCount cap sources col src : Nat) : Nat × Nat :=
  let a := base + 16 * eCount * cap + 4 * (col * sources + src)
  (engLe d a 2, engLe d (a + 2) 2)

/-- The records of a column. -/
def selColumn (d : Dev) (base cap col : Nat) : List RouteRec :=
  (List.range cap).map fun r => routeRec (engBytes d (base + 16 * (cap * col + r)) 16) r

/-! ## Units (R207 to R209, R212, R217) -/

/-- A unit: its landing row, its contents, whether it goes to a Waggle engine. -/
structure SwmUnit where
  row  : Nat
  data : List Byte
  deriving DecidableEq, Repr

/-- What an entry sends: units in the order of their numbers, and the units that break bounds. -/
structure SwmOut where
  units : List SwmUnit
  reads : List (Nat × Nat)
  bad   : Nat

/-- A block header (Table 07-4). -/
def blkHead (kind fmt job frame col base flags : Nat) : List Byte :=
  leBytes 1 kind ++ leBytes 1 fmt ++ leBytes 2 job ++ leBytes 2 frame ++ leBytes 2 col ++ leBytes 4 base ++ leBytes 1 flags
    ++ leBytes 19 0

/-- SCORE_FEED: one block for each expert and tile (R207). `a` is the buffer, local row t lies at OFFSET_A + t × ROW_BYTES. -/
def scoreUnits (d : Dev) (frame a : Nat) (c : SwmCommon) (x : ScoreFeedOps) : SwmOut :=
  let w := scoreBytes x.scoreFmt.val
  let live := engLe d (a + x.liveOffset) 4
  let one := fun (e u : Nat) =>
    let pres := 2 ^ (min 128 (live - 128 * u)) - 1
    blkHead 0 x.scoreFmt.val x.jobId frame (x.eFirst + e) (x.self * x.tSrc + x.tokenFirst + 128 * u) (b2n c.indexed)
      ++ leBytes 16 pres ++ leBytes 16 0
      ++ ((List.range 128).flatMap fun i => engBytes d (a + c.offsetA + (128 * u + i) * x.rowBytes + e * w) w)
      ++ if c.indexed then engBytes d (a + x.liveOffset + 32 + 512 * u) 512 else []
  let blocks := (List.range x.eCount).flatMap fun e => (List.range (x.tokens / 128)).map fun u => one e u
  ⟨blocks.zipIdx.map fun b => ⟨b.2, b.1⟩,
    [(a + c.offsetA, (x.tokens - 1) * x.rowBytes + x.eCount * w),
      (a + x.liveOffset, if c.indexed then 32 + 4 * x.tokens else 4)], 0⟩

/-- BITMAP_FEED: one block for each 4,096 bits (R208). -/
def bitmapUnits (d : Dev) (frame a : Nat) (c : SwmCommon) (x : BitmapFeedOps) : SwmOut :=
  ⟨(List.range (x.bits / 4096)).map fun v =>
      ⟨v, blkHead x.bkind.val 0 x.jobId frame (if x.bkind.val = 1 then x.home else 0) (x.tokenBase + 4096 * v) 0
        ++ engBytes d (a + c.offsetA + 512 * v) 512⟩,
    [(a + c.offsetA, x.bits / 8)], 0⟩

/-- ROUTE_RETURN: one view row for each column, with the source's counts and records (R209). -/
def routeUnits (d : Dev) (a : Nat) (c : SwmCommon) (x : RouteReturnOps) : SwmOut :=
  let base := a + c.offsetA
  let one := fun (e : Nat) =>
    let n := if x.srcNo < x.sources then selCount d base x.eCount x.cap x.sources e x.srcNo else (0, 0)
    let rs := (selColumn d base x.cap e).filter fun r => r.valid && r.source == x.srcNo
    let rs := sortBy (fun p q => decide (p.pass < q.pass) || (p.pass == q.pass && decide (p.slot < q.slot))) rs
    let body := (rs.take (n.1 + n.2)).flatMap fun r => engBytes d (base + 16 * (x.cap * e + r.j)) 16
    (⟨x.eFirst + e - x.viewEFirst,
      sliceBytes (leBytes 2 n.1 ++ leBytes 2 n.2 ++ leBytes 2 (x.eFirst + e) ++ leBytes 26 0 ++ body) 0
        (32 + 16 * (n.1 + n.2))⟩ : SwmUnit)
  ⟨(List.range x.eCount).map one, [(base, selectBytes x.eCount x.cap x.sources)], 0⟩

/-- Links of the first-hop bundle to a node: 2 on X, 4 on Y and Z (Table 12-1). -/
def bundleSize (d : Dev) (node : Nat) : Nat := if nSlot node ≠ nSlot (myNode d) then 2 else 4

/-- The records that a DISPATCH takes: view rows in ascending expert, records in ascending j; and the rows that break bounds (R212). -/
def dispatchRecs (d : Dev) (b : Nat) (c : SwmCommon) (x : MoveOps) (cap : Nat) : List RouteRec × Nat :=
  let rows := goodRows d (b + c.offsetB) (x.eFirst - x.viewEFirst) x.eCount x.runMax x.self cap
  (rows.1.flatMap fun v => v.recs.filter fun r =>
    r.valid && decide (x.slotFirst ≤ r.slot) && decide (r.slot < x.slotFirst + x.slotCount), rows.2)

/-- The descriptor of a record (R212, Table 08-7). -/
def descOfRec (d : Dev) (c : SwmCommon) (x : MoveOps) (r : RouteRec) (n : Nat) : SwmDesc :=
  ⟨r.token - x.self * x.tSrc, (r.expert - x.eFirst) * x.slotCount + (r.slot - x.slotFirst), r.expert, r.slot,
    if c.peer.node = myNode d then 2 else n % bundleSize d c.peer.node, r.pass, n⟩

/-- A descriptor in the layout of Table 08-7. -/
def SwmDesc.bytes (q : SwmDesc) : List Byte :=
  leBytes 2 q.localRow ++ leBytes 4 q.destRow ++ leBytes 2 q.expert ++ leBytes 2 q.slot ++ leBytes 1 q.port ++ leBytes 1 q.pass
    ++ leBytes 4 q.index

/-- Does every record of a DISPATCH name a row that its source buffer of n bytes holds (R225)? -/
def dispatchIn (n : Nat) (c : SwmCommon) (x : MoveOps) (rs : List RouteRec) : Bool :=
  rs.all fun r => decide (x.self * x.tSrc ≤ r.token)
    && decide (c.offsetA + (r.token - x.self * x.tSrc + 1) * x.rowBytes ≤ n)

/-- DISPATCH: the source's token rows whose places lie in the slot range (R212). -/
def dispatchUnits (d : Dev) (a b : Nat) (c : SwmCommon) (x : MoveOps) (cap : Nat) : SwmOut :=
  let rs := dispatchRecs d b c x cap
  let ds := rs.1.zipIdx.map fun e => descOfRec d c x e.1 e.2
  let src := fun (q : SwmDesc) => a + c.offsetA + q.localRow * x.rowBytes
  ⟨ds.map fun q => ⟨q.destRow, engBytes d (src q) x.rowBytes⟩,
    viewReads d (b + c.offsetB) (x.eFirst - x.viewEFirst) x.eCount x.runMax ++ ds.map fun q => (src q, x.rowBytes), rs.2⟩

/-- A DISPATCH holds its descriptors in the engine; trace capture reports them (R212). -/
def keepDescs (d : Dev) (i p idx start : Nat) (ds : List SwmDesc) : Dev :=
  ds.foldl (fun d q => traceBytes d p start q.bytes) (modSwm d i fun e => { e with descs := smPutD [] e.descs idx ds })

/-- Sum of a count over the sources below `s`. -/
def countBelow (l : List (Nat × Nat)) (s : Nat) (second : Bool) : Nat :=
  (l.take s).foldl (fun n c => n + if second then c.2 else c.1) 0

/-- RETURN: expert outputs go to the places of their records in the owner's view (R217). -/
def returnUnits (d : Dev) (a b : Nat) (c : SwmCommon) (x : MoveOps) : SwmOut :=
  let base := b + c.offsetB
  let one := fun (e : Nat) =>
    let cnt := (List.range x.sources).map fun s => selCount d base x.eCount x.cap x.sources e s
    let rs := (selColumn d base x.cap e).filter fun r =>
      r.valid && r.source == x.self && decide (x.slotFirst ≤ r.slot) && decide (r.slot < x.slotFirst + x.slotCount)
    let bad := rs.filter fun r => decide (x.cap ≤ r.slot) || r.expert != x.eFirst + e
    ((rs.filter fun r => decide (r.slot < x.cap) && r.expert == x.eFirst + e).map fun r =>
      let j := if r.pass = 0 then r.slot - countBelow cnt x.self false
        else (cnt.getD x.self (0, 0)).1 + r.slot - countBelow cnt x.sources false - countBelow cnt x.self true
      ((r.expert - x.viewEFirst) * x.runMax + j, a + c.offsetA + (e * x.slotCount + (r.slot - x.slotFirst)) * x.rowBytes),
      bad.length)
  let cols := (List.range x.eCount).map one
  let rows := cols.flatMap fun q => q.1
  ⟨rows.map fun r => ⟨r.1, engBytes d r.2 x.rowBytes⟩,
    (base, selectBytes x.eCount x.cap x.sources) :: rows.map fun r => (r.2, x.rowBytes), cols.foldl (fun n q => n + q.2) 0⟩

/-! ## Buffers of an entry (R225) -/

/-- A buffer an entry uses: reference, offset, bytes, written?, must a MODE 2 buffer lie in Tier H? -/
structure BufNeed where
  ref   : Nat
  off   : Nat
  bytes : Nat
  write : Bool
  tierH : Bool
  deriving DecidableEq, Repr

/-- Bytes of a row of `h` elements, rounded up to 32 (R218). -/
def rowStride (h code : Nat) : Nat := roundUp (ceilDiv (h * fmtWidth code) 8) 32

/-- Output scales of a row. -/
def rowScales (h group : Nat) : Nat := if groupSize group = 0 then 0 else ceilDiv h (groupSize group)

/-- A parameter record that does nothing. -/
def ParamRec.none_ : ParamRec := ⟨1, 0, 0, 7, 0⟩

/-- A parameter record. -/
def paramOf (img : Image) (n : Nat) : ParamRec := img.params.getD n ParamRec.none_

/-- The parts of a row of a landing (R201). -/
def pRow (rowBytes : Nat) : Nat := max 1 (ceilDiv rowBytes 512)

/-- The regions that an entry's fields name in its buffers (log entry 33, DEDUCED). -/
def swmNeeds (img : Image) (c : SwmCommon) : SwmOps → List BufNeed
  | .score x => [⟨c.bufA, c.offsetA, (x.tokens - 1) * x.rowBytes + x.eCount * scoreBytes x.scoreFmt.val, false, false⟩,
      ⟨c.bufA, x.liveOffset / 32 * 32, x.liveOffset % 32 + (if c.indexed then 32 + 4 * x.tokens else 4), false, false⟩]
  | .bitmap x => [⟨c.bufA, c.offsetA, x.bits / 8, false, false⟩]
  | .route x => [⟨c.bufA, c.offsetA, selectBytes x.eCount x.cap x.sources, false, false⟩]
  | .dispatch x => [⟨c.bufA, c.offsetA, x.rowBytes, false, false⟩,
      ⟨c.bufB, c.offsetB, (x.eFirst - x.viewEFirst + x.eCount) * viewStride x.runMax, false, false⟩]
  | .ret x => [⟨c.bufA, c.offsetA, x.eCount * x.slotCount * x.rowBytes, false, false⟩,
      ⟨c.bufB, c.offsetB, selectBytes x.eCount x.cap x.sources, false, false⟩]
  | .combine x =>
    let g := paramOf img x.param
    [⟨c.bufA, c.offsetA, x.viewECount * x.runMax * rowStride x.hidden x.retFmt.val, false, true⟩,
      ⟨c.bufB, c.offsetB, x.tokenCount * (rowStride x.hidden g.outFmt + 2 * rowScales x.hidden g.group), true, true⟩,
      ⟨x.viewRef, 0, x.viewECount * viewStride x.runMax, false, true⟩]
      ++ if x.resid then [⟨x.resRef, 0, (x.tokenFirst + x.tokenCount) * rowStride x.hidden x.resFmt.val, false, true⟩] else []
  | .land x => ⟨c.bufA, c.offsetA, x.rows * x.rowBytes, true, false⟩ :: (match x.expect.val with
      | 2 => [⟨c.bufB, c.offsetB, 4 * x.eCount * ceilDiv x.runMax 128, false, false⟩]
      | 3 => [⟨c.bufB, c.offsetB, x.eCount * viewStride x.runMax, false, false⟩]
      | _ => [])
  | .live x => [⟨c.bufA, c.offsetA, selectBytes x.eCount x.cap x.sources, false, false⟩,
      ⟨c.bufB, c.offsetB, 4 * x.eCount * ceilDiv x.cap 128, true, false⟩]

/-- Checks the buffers of an entry: their addresses, or code, subcode and the handle that failed. -/
def checkNeeds (d : Dev) (p : Nat) (img : Image) (sl : Nat) : List BufNeed → List Nat → Except (Nat × Nat × Option (Nat × Bool)) (List Nat)
  | [], acc => .ok acc
  | n :: l, acc =>
    let h := ((refOf d p img sl n.ref).map Prod.fst).getD 0
    let mode2 := ((img.bufList[n.ref]?).map fun b => b.mode == 2).getD false
    match handleOperand d p h n.off n.bytes n.write with
    | .error (.check c) => .error (1, c, some (h, n.write))
    | .error .range => .error (if n.tierH && mode2 && poolTier (hPool h) != 1 then 3 else 2, 0, none)
    | .ok a => if n.tierH && mode2 && poolTier (hPool h) != 1 then .error (3, 0, none)
      else checkNeeds d p img sl l (acc ++ [a - n.off])

/-- An entry fails: nothing is written and the engine stops for the frame (R225). -/
def swmFail (d : Dev) (i idx p code sub : Nat) (bad : Option (Nat × Bool)) : Dev :=
  let u := pSwm i
  let d := match bad with
    | some (h, w) => checkFailed d p h w sub
    | none => d
  let d := if rdB d u Reg.SWM_ENTRY_ERR 4 then d else wrN d u Reg.SWM_ENTRY_ERR (code + 16 + 65536 * sub)
  let d := modSwm d i fun e => { e with stopped := true, held := e.held ++ [idx] }
  swmEvent d i 7 1

/-! ## Sending (R201, R203) -/

/-- The time of scheduled bytes on a port at 100 GB/s, in cycles. -/
def portCycles (d : Dev) (bytes : Nat) : Nat := ceilDiv (bytes * clockNow d) 100000

/-- The unloaded time of a packet over h hops, 90 + 160 h ns, in cycles (R313). -/
def hopCycles (d : Dev) (h : Nat) : Nat := ceilDiv ((90 + 160 * h) * clockNow d) 1000

/-- Sends the units of an entry: packets of the scheduled class, port d mod b, or the engine's own path. Answers the state and
the completion cycle (log entry 76, DEDUCED). -/
def sendUnits (d : Dev) (i p start : Nat) (c : SwmCommon) (unit parts : Nat) (us : List SwmUnit) : Dev × Nat :=
  let own := c.peer.node == myNode d
  let b := bundleSize d c.peer.node
  let f := frameNum d p
  let d := us.zipIdx.foldl (fun d e =>
    (splitPayload e.1.data).zipIdx.foldl (fun d q =>
      let k := mkPkt d 0 0 false (mkPlace (myPod d) c.peer.node unit) (pSwm i) c.peer.part.val p f
        (c.tag + 65536 * (e.1.row * parts + q.2)) 0 (e.2 % b) q.1.2
      if own then { d with fab := { d.fab with handed := d.fab.handed ++ [k] } } else sendPkt d k) d) d
  let size := fun (u : SwmUnit) => u.data.length + (if own then 0 else 32 * (splitPayload u.data).length)
  let total := us.foldl (fun n u => n + size u) 0
  let worst := (List.range b).foldl (fun m q =>
    max m ((us.zipIdx.filter fun e => e.2 % b == q).foldl (fun n e => n + size e.1) 0)) 0
  let due := if us.isEmpty then start
    else if own then start + ceilDiv total 512 - 1
    else start + portCycles d worst + hopCycles d (hops d (myNode d) c.peer.node) - 1
  (bump (bump d (pSwm i) Reg.SWM_UNITS_SENT us.length) (pSwm i) Reg.SWM_BYTES_SENT total, due)

/-! ## COMBINE (R218, R219) -/

/-- Element `n` of packed elements in a format. -/
def packedNum (l : List Byte) (code n : Nat) : Num :=
  match fmtOf code with
  | none => .zero
  | some f =>
    let raw := if f.width = 4 then nbits (l.getD (n / 2) 0).toNat (4 * (n % 2) + 3) (4 * (n % 2)) else leAt l (f.width / 8 * n) (f.width / 8)
    decodeNum f raw

/-- A row of outputs: packed elements padded to the stride, and its scales (R131 to R135). -/
def outputRow (g : ParamRec) (stoch : Bool) (draw : Nat → Nat) (accs : List Num) : List Byte × List Byte :=
  match fmtOf g.outFmt with
  | none => ([], [])
  | some f =>
    let ys := accs.map fun a => calenderY a g.mult g.shift
    let gs := groupSize g.group
    let es := if gs = 0 then [] else (List.range (ceilDiv ys.length gs)).map fun h => outGroupE g.outFmt ((ys.drop (gs * h)).take gs)
    let outs := ys.zipIdx.map fun e =>
      let y := if gs = 0 then e.1 else e.1.scale (127 - (es.getD (e.2 / gs) 127 : Int))
      (outputNum f (if stoch then .stoch (draw e.2) else .rne) y).1
    (sliceBytes (packElems f.width outs) 0 (rowStride accs.length g.outFmt), es.flatMap fun e => leBytes 2 (e * 256 + 128))

/-- The records a token keeps: the K_MAX with the highest keys, in ascending expert; and how many are left out. -/
def keptRecs (kMax : Nat) (rs : List RouteRec) : List RouteRec × Nat :=
  let ranked := sortBy (fun a b => decide (scoreKey b.score < scoreKey a.score)
    || (scoreKey a.score == scoreKey b.score && decide (a.expert < b.expert))) rs
  (sortBy (fun a b => decide (a.expert < b.expert)) (ranked.take kMax), ranked.length - kMax)

/-- The FP32 sums of a token's row: the residual, then each expert in ascending order, one rounding an addition. -/
def combineSums (hidden : Nat) (res : Option (List Byte × Nat)) (rows : List (Num × List Byte × Nat)) : List Num :=
  (List.range hidden).map fun h =>
    let a0 : W32 := match res with
      | some r => BitVec.ofNat 32 (roundFloat fp32 (packedNum r.1 r.2 h))
      | none => 0
    decodeNum fp32 (rows.foldl (fun acc r => accAddF acc (mulOperand r.1 (packedNum r.2.1 r.2.2 h))) a0).toNat

/-- COMBINE: addresses of returned rows, output, view and residual. -/
def runCombine (d : Dev) (img : Image) (slice : Nat) (c : SwmCommon) (x : CombineOps) (ret out view res : Nat) :
    List (Nat × List Byte) × Nat × Nat × List (Nat × Nat) :=
  let g := paramOf img x.param
  let v := goodRows d view 0 x.viewECount x.runMax x.self (imageCap img)
  let all := v.1.flatMap fun r => r.recs.filter fun q => q.valid
  let sRet := rowStride x.hidden x.retFmt.val
  let sRes := rowStride x.hidden x.resFmt.val
  let sOut := rowStride x.hidden g.outFmt
  let per := rowScales x.hidden g.group
  let retAt := fun (r : RouteRec) => ret + c.offsetA + ((r.expert - x.viewEFirst) * x.runMax + r.j) * sRet
  let tok := (List.range x.tokenCount).map fun k =>
    let t := x.tokenFirst + k
    let kept := keptRecs x.kMax (all.filter fun r => r.token == x.self * x.tSrc + t)
    let rows := kept.1.map fun r =>
      ((if x.gateMode.val = 0 then (.fin false 1 0 : Num) else decodeNum fp32 r.score), engBytes d (retAt r) sRet, x.retFmt.val)
    let resRow := if x.resid then some (engBytes d (res + t * sRes) sRes, x.resFmt.val) else none
    let draw := fun h => srBits (g.key + BitVec.ofNat 64 (t / 128 * 65536 + h / 128)) slice (t % 128) (h % 128)
    let o := outputRow g x.stoch draw (combineSums x.hidden resRow rows)
    ((out + c.offsetB + k * sOut, o.1), (out + c.offsetB + x.tokenCount * sOut + 2 * k * per, o.2), kept.2,
      (kept.1.map fun r => (retAt r, sRet)) ++ if x.resid then [(res + t * sRes, sRes)] else [])
  ((tok.map fun t => t.1) ++ (if per = 0 then [] else tok.map fun t => t.2.1), tok.foldl (fun n t => n + t.2.2.1) 0, v.2,
    viewReads d view 0 x.viewECount x.runMax ++ tok.flatMap fun t => t.2.2.2)

/-- COMBINE's time (R219). -/
def combineTime (x : CombineOps) : Nat :=
  64 + ceilDiv (x.viewECount * x.runMax) 64 + ceilDiv (x.tokenCount * (x.kMax + b2n x.resid) * x.hidden) 512

/-- Live-row words (R210); none when a column's total exceeds C (R224). -/
def liveWords (d : Dev) (base : Nat) (x : LiveTableOps) : Option (List Byte) :=
  let tiles := ceilDiv x.cap 128
  let filled := (List.range x.eCount).map fun e =>
    ((List.range x.sources).map fun s => selCount d base x.eCount x.cap x.sources e s).foldl (fun n c => n + c.1 + c.2) 0
  if filled.any fun f => decide (x.cap < f) then none
  else some (filled.flatMap fun f => (List.range tiles).flatMap fun u => leBytes 4 (min 128 (f - 128 * u)))

/-! ## Landings (R213 to R215) -/

/-- The parts that row header `l` of a view names (Table 08-9, mode 1). -/
def viewParts (l : List Byte) (parts : Nat) : Nat := max 1 (min parts (ceilDiv (32 + 16 * (leAt l 0 2 + leAt l 2 2)) 512))

/-- The rows a landing expects and their parts; mode 1 reads part 0 of each row. -/
def expectRows (d : Dev) (cap : Nat) (c : SwmCommon) (x : LandOps) (g : Landing) : List (Nat × Nat) :=
  let w := pRow x.rowBytes
  match x.expect.val with
  | 0 => (List.range x.rows).map fun r => (r, w)
  | 1 => (List.range x.rows).map fun r => (r, match smGet g.parts (r * w) with
      | some l => viewParts l w
      | none => 1)
  | 2 => (List.range x.eCount).flatMap fun e =>
      let tiles := ceilDiv x.runMax 128
      let n := (List.range (x.slotCount / 128)).foldl (fun n u =>
        n + engLe d (g.src + c.offsetB + 4 * (e * tiles + x.slotFirst / 128 + u)) 4) 0
      (List.range (min x.slotCount n)).map fun r => (e * x.slotCount + r, w)
  | _ => (goodRows d (g.src + c.offsetB) 0 x.eCount x.runMax x.self cap).1.flatMap fun v =>
      (v.recs.filter fun r => r.valid && decide (x.slotFirst ≤ r.slot) && decide (r.slot < x.slotFirst + x.slotCount)).map
        fun r => ((r.expert - x.eFirst) * x.runMax + r.j, w)

/-- Is a landing complete? -/
def landedAll (d : Dev) (cap : Nat) (c : SwmCommon) (x : LandOps) (g : Landing) : Bool :=
  let w := pRow x.rowBytes
  (expectRows d cap c x g).all fun r => (List.range r.2).all fun q => (smGet g.parts (r.1 * w + q)).isSome

/-- Contents that break a landing's bounds once it is complete (R224): modes 2 and 3. -/
def landBad (d : Dev) (cap : Nat) (c : SwmCommon) (x : LandOps) (g : Landing) : Nat :=
  match x.expect.val with
  | 2 => ((List.range x.eCount).filter fun e =>
      let tiles := ceilDiv x.runMax 128
      decide (x.runMax < (List.range tiles).foldl (fun n u => n + engLe d (g.src + c.offsetB + 4 * (e * tiles + u)) 4) 0)).length
  | 3 => (goodRows d (g.src + c.offsetB) 0 x.eCount x.runMax x.self cap).2
  | _ => 0

/-- Has row `r` landed in full? -/
def rowFull (x : LandOps) (parts : SMap (List Byte)) (r : Nat) : Bool :=
  let w := pRow x.rowBytes
  match smGet parts (r * w) with
  | none => false
  | some l => (List.range (if x.expect.val = 1 then viewParts l w else w)).all fun q => (smGet parts (r * w + q)).isSome

/-- A landing that nothing has reached. -/
def Landing.new (idx : Nat) : Landing := ⟨idx, none, 0, [], [], none, 0⟩

/-- Writes a part of a landing in its place, in a cycle. -/
def putPart (d : Dev) (i p idx cycle : Nat) (c : SwmCommon) (x : LandOps) (base n : Nat) (l : List Byte) : Dev :=
  let w := pRow x.rowBytes
  engWrite d p (pSwm i) (idx % 65536) cycle (base + c.offsetA + n / w * x.rowBytes + 512 * (n % w)) l

/-- The Swarm engines of this device that send a partition's units with a tag in the frame. -/
def sendersOf (d : Dev) (p tag : Nat) : List Nat :=
  [0, 1].filterMap fun i => if ownerOf d (pSwm i) = some p ∧ (swmOf d i).runs.any (fun r => match r.what with
    | .swm _ (.land _) => false
    | .swm c _ => c.tag == tag
    | _ => false) then some (pSwm i) else none

/-- A unit from a node broke its bounds: the sending engine is to be tested, here or by the agent of its node (R20, R224). -/
def testSender (d : Dev) (p node tag : Nat) : Dev :=
  if node = myNode d then askTests d p (sendersOf d p tag) else sendManage d node p 1

/-- A unit that has landed in full is counted; a view row that breaks its bounds is kept out of the count, and of every sum (R224). -/
def rowLanded (d : Dev) (i p node cap : Nat) (c : SwmCommon) (x : LandOps) (parts : SMap (List Byte)) (r : Nat) : Dev :=
  let w := pRow x.rowBytes
  let l := (List.range w).flatMap fun q => sliceBytes (smGetD [] parts (r * w + q)) 0 512
  let n := min (leAt l 0 2 + leAt l 2 2) x.runMax
  let v : ViewRow := ⟨leAt l 0 2, leAt l 2 2, leAt l 4 2, (List.range n).map fun j => routeRec (sliceBytes l (32 + 16 * j) 16) j⟩
  if x.expect.val = 1 ∧ viewBad v x.runMax x.self cap then testSender (fileKill (swmEvent d i 6 1) p 2) p node c.tag
  else bump d (pSwm i) Reg.SWM_UNITS_LANDED 1

/-- A packet is dropped (R214). -/
def landDrop (d : Dev) (i code tag : Nat) : Dev :=
  swmEvent (bump (wrN d (pSwm i) Reg.SWM_LAST_DROP (code + 65536 * (tag % 65536))) (pSwm i) Reg.SWM_PACKETS_DROPPED 1) i 0 1

/-- The LAND of the running slice with a tag. -/
def landOf (img : Image) (sl i tag : Nat) : Option (Nat × SwmCommon × LandOps) :=
  (swmEntries img sl i).findSome? fun e => match e.what with
    | .swm c (.land x) => if c.tag = tag then some (e.index, c, x) else none
    | _ => none

/-- A landing packet arrives, in frame (R213, R214). -/
def landIn (d : Dev) (i : Nat) (k : LandPkt) : Dev :=
  match engineImage d (pSwm i) with
  | none => landDrop d i 1 k.tag
  | some (p, _, img, sl) =>
    if k.frame ≠ frameNum d p ∨ frameOver d p then landDrop d i 1 k.tag
    else match landOf img sl i k.tag with
      | none => landDrop d i 2 k.tag
      | some (idx, c, x) =>
        let g := smGetD (Landing.new idx) (swmOf d i).lands idx
        let w := pRow x.rowBytes
        if x.rows ≤ k.block / w ∨ x.rowBytes < 512 * (k.block % w) + k.payload.length then landDrop d i 3 k.tag
        else match smGet g.parts k.block with
          | some old =>
            let d := if old = k.payload then d else fileKill (swmEvent d i 1 1) p 2
            landDrop d i 4 k.tag
          | none =>
            if c.delivery.val = 1 ∧ !img.exch.contains k.src then landDrop d i 5 k.tag
            else
              let parts := smPut g.parts k.block k.payload
              let r := k.block / w
              let full := rowFull x parts r && !g.full.contains r
              let g := { g with
                parts := parts, peer := some k.src.node, full := if full then g.full ++ [r] else g.full, last := max g.last k.cycle }
              let d := modSwm d i fun e => { e with lands := smPut e.lands idx g }
              let d := match g.base with
                | some b => putPart d i p idx k.cycle c x b k.block k.payload
                | none => d
              if full then rowLanded d i p k.src.node (imageCap img) c x parts r else d

/-- The parts of a source's units with a tag that are staged for a partition, of one frame. -/
def stagedParts (d : Dev) (p tag : Nat) (src : Peer) (frame : Nat) : SMap (List Byte) :=
  d.rmt.staging.foldl (fun m o => match o.what with
    | .unit t b l => if o.part = p ∧ o.src = src ∧ o.frame = frame ∧ t = tag then smPut m b l else m
    | _ => m) []

/-- The frame whose staged units a LAND takes: the oldest that is staged for it and that R29 can publish at its tick (R221)
(log entry 32, DEDUCED). -/
def stagedFrame (d : Dev) (p tag : Nat) (src : Peer) : Option Nat :=
  let now := frameNum d p
  (d.rmt.staging.filterMap fun o => match o.what with
    | .unit t _ _ => if o.part = p ∧ o.src = src ∧ t = tag ∧ 1 ≤ serialDiff now o.frame then some o.frame else none
    | _ => none).foldl (fun m f => match m with
      | none => some f
      | some g => if serialDiff now g < serialDiff now f then some f else some g) none

/-- A landing as its LAND sees it: that of a staged TAG holds what is staged for it. -/
def landSeen (d : Dev) (p : Nat) (c : SwmCommon) (g : Landing) : Landing :=
  if c.delivery.val = 2 then
    { g with parts := ((stagedFrame d p c.tag c.peer).map (stagedParts d p c.tag c.peer)).getD [] }
  else g

/-- A staged part that completes a row counts the unit (R224, R227). -/
def stagedRow (d : Dev) (i p : Nat) (img : Image) (c : SwmCommon) (x : LandOps) (k : LandPkt) : Dev :=
  let parts := stagedParts d p k.tag k.src k.frame
  let r := k.block / pRow x.rowBytes
  if rowFull x parts r then rowLanded d i p k.src.node (imageCap img) c x parts r else d

/-- A span-mode packet goes into the staging of its source and frame (R221, R343); its PAIR_COUNT orders it. -/
def stagedIn (d : Dev) (i : Nat) (k : LandPkt) (pair : Nat) : Dev :=
  match ownerOf d (pSwm i) with
  | none => landDrop d i 2 k.tag
  | some p => match stagedLand d p k.tag k.src with
    | none => landDrop d i 2 k.tag
    | some (img, c, x) =>
      let w := pRow x.rowBytes
      let old := smGet (stagedParts d p k.tag k.src k.frame) k.block
      if !commitSource d p k.src then landDrop d i 2 k.tag
      else if x.rows ≤ k.block / w ∨ x.rowBytes < 512 * (k.block % w) + k.payload.length then landDrop d i 3 k.tag
      else if old.isSome then
        landDrop (if old = some k.payload then d else fileKill (swmEvent d i 1 1) p 2) i 4 k.tag
      else
        let o : StagedOp := ⟨p, k.src, k.frame, pair, 0, .unit k.tag k.block k.payload⟩
        let used := (d.rmt.staging.filter fun q => q.part == p && decide (q.src = k.src)).foldl (fun n q => n + stagedBytes q) 0
        if stagingFor d p k.src < used + stagedBytes o then event d (pPart p) Reg.CTL_RMT_EVENTS 2 Reg.CTL_EVT_STAGE_FULL
        else
          let d := { d with rmt := { d.rmt with staging := d.rmt.staging ++ [o] } }
          let d := bump d (pPart p) Reg.CTL_RMT_STAGED_BYTES (stagedBytes o)
          let d := match engineImage d (pSwm i) with
            | some (_, _, run, sl) => match landOf run sl i k.tag with
              | some (idx, _, _) => modSwm d i fun e => { e with
                  lands := smModD (Landing.new idx) e.lands idx fun g => { g with peer := some k.src.node, last := k.cycle } }
              | none => d
            | none => d
          stagedRow d i p img c x k

/-! ## Start and completion (R200, R203, R216, R222) -/

/-- The fields of R200 of an entry: START_CYCLE, READY, NOTIFY. -/
structure EntryCtl where
  start  : Nat
  ready  : Option (Nat × Nat × Nat)
  notify : Option (Nat × Nat)

/-- R200's fields. -/
def SlotKind.ctl : SlotKind → EntryCtl
  | .wgl _ j => ⟨j.startCycle, none, if j.notifyEn then some (j.notifySlot, j.notifyTag.val) else none⟩
  | .swm c _ => ⟨c.startCycle, if c.readyEn then some (c.readySlot, c.readyTag.val, c.readyCount) else none,
      if c.notifyEn then some (c.notifySlot, c.notifyTag.val) else none⟩
  | .col _ x => ⟨x.startCycle, if x.readyEn then some (x.readySlot, x.readyTag.val, x.readyCount) else none,
      if x.notifyEn then some (x.notifySlot, x.notifyTag.val) else none⟩

/-- The READY tag of an entry, as its cell holds it. -/
def readyTag (d : Dev) (p : Nat) (k : EntryCtl) : Option Tag :=
  k.ready.bind fun r => (slotCell d p r.1).map fun c => tagOf (cellOf d c) r.2.1

/-- A start held back for n cycles by its READY tag is charged: to the unit that a LAND waits for, or to the cause that delayed the cell
(R82, R200, R222). -/
def chargeHold (d : Dev) (p : Nat) (img : Image) (sl n : Nat) (k : EntryCtl) : Dev :=
  match k.ready with
  | none => d
  | some (slot, tag, _) =>
    if n = 0 then d
    else match landNotifying d img sl slot tag with
      | some (i, node) => heldOn d i p n node
      | none => charge d p (((readyTag d p k).map Tag.why).getD 0) n 0

/-- The cycle after the engine's last serial entry completes; none while one runs. -/
def serialFree (e : SwmEng) : Option Nat :=
  let s := e.runs.filter fun r => r.what.serial
  if s.any fun r => !r.fin then none else some (s.foldl (fun n r => max n (r.due + 1)) 0)

/-- The cycle in which an entry starts, and the one in which it would without its READY tag (R200); none while it cannot. -/
def startCycleOf (d : Dev) (i p : Nat) (img : Image) (sl : Nat) (what : SlotKind) (refs : List Nat) : Option (Nat × Nat) :=
  let e := swmOf d i
  let k := what.ctl
  if e.stopped || (partOf d p).killNow.isSome || (partOf d p).cutTaken then none
  else match refsOf d p img sl refs, (if what.serial then serialFree e else some 0) with
    | some hs, some fr =>
      let base := max k.start (max hs.2 fr)
      match k.ready with
      | none => some (base, base)
      | some (_, _, n) => ((readyTag d p k).bind fun g => g.reached n).map fun r => (max base r, base)
    | _, _ => none

/-- An entry as the image holds it: the owner's source number and tokens per source, which R218 uses and Table 08-4 gives no place,
come with the command (log entry 38, DESIGN CHOICE). -/
def SlotKind.inImage : SlotKind → SlotKind
  | .swm c (.combine x) => .swm c (.combine { x with self := 0, tSrc := 0 })
  | k => k

/-- The first entry equal to `what` that has not started. -/
def freshEntry (d : Dev) (i : Nat) (img : Image) (sl : Nat) (what : SlotKind) : Option Nat :=
  ((swmEntries img sl i).find? fun e => decide (e.what = what.inImage) && !((swmOf d i).runs.any fun r => r.id == e.index)).map
    SlotEnt.index

/-- An entry that starts in a cycle: its index, the cycle, the cycle without its READY tag, and the stall that ends, as the cycle in
which it began, its cause and its subcause (R30, R278). -/
structure EntryGo where
  idx   : Nat
  start : Nat
  own   : Nat
  base  : Nat
  stall : Option (Nat × Nat × Nat)
  deriving DecidableEq, Repr

/-- The entry that a command names, when it starts in that cycle: the cycle of R200, or a later one once its reads have stalled. -/
def entryGo (d : Dev) (i p : Nat) (img : Image) (sl cycle : Nat) (what : SlotKind) (refs : List Nat) (blocks : Nat) : Option EntryGo :=
  match freshEntry d i img sl what, startCycleOf d i p img sl what refs with
  | some idx, some (own, base) =>
    match (swmOf d i).stalls.find? fun e => e.1 == idx with
    | some (_, c0, cause, sub) =>
      if c0 < cycle ∧ cycle ≤ cutCycle d p then some ⟨idx, cycle, own, base, some (c0, cause, sub)⟩ else none
    | none => if cycle = max own blocks ∧ cycle ≤ cutCycle d p then some ⟨idx, cycle, own, base, none⟩ else none
  | _, _ => none

/-- What a start is charged: the hold of its READY tag, or the stall of its reads. -/
def chargeStart (d : Dev) (p : Nat) (img : Image) (sl : Nat) (g : EntryGo) (k : EntryCtl) : Dev :=
  match g.stall with
  | none => chargeHold d p img sl (g.own - g.base) k
  | some (c0, cause, sub) => disturb d p cause 0 (g.start - c0) sub

/-- The cause and subcause of a start's lateness, cause 0 for none. -/
def startWhy (d : Dev) (p : Nat) (g : EntryGo) (k : EntryCtl) : Nat × Nat :=
  match g.stall with
  | some (_, cause, sub) => (cause, sub)
  | none => if g.base < g.own then (((readyTag d p k).map Tag.why).getD 0, 0) else (0, 0)

/-- An entry whose reads stall: on staged data that is not published (REMOTE_DELAYED, R30), or on a poisoned chunk (TIER_LATE with
reason POISONED, R278). A read that finds lost data leaves the entry without a run. -/
def stallEntry (d : Dev) (i p : Nat) (g : EntryGo) (r : EngRead) : Dev :=
  let put := fun (d : Dev) (cause sub : Nat) => modSwm d i fun e => { e with
    stalls := if e.stalls.any fun q => q.1 == g.idx then e.stalls else e.stalls ++ [(g.idx, g.start, cause, sub)] }
  match r.remote, r.stalled.head? with
  | some node, _ => if g.stall.isSome then d else put r.dev causeRemote node
  | none, some chunk =>
    if r.lost then r.dev
    else
      let sub := tierOfAddr d chunk * 16 + if (d.tier.repairs.filter fun x => x.inst == 0 && !x.once).length < 64 then 2 else 3
      put (if g.stall.isSome then r.dev else disturb r.dev p causeTier 1 0 sub) causeTier sub
  | none, none => r.dev

/-- Do the reads of an entry give it no data yet? -/
def EngRead.holds (r : EngRead) : Bool := r.lost || !r.stalled.isEmpty

/-- The cause of an entry's lateness once its reads are done: a correction, or what held its start. -/
def readWhy (r : EngRead) (why : Nat × Nat) : Nat × Nat := if r.late = 0 then why else (causeScrub, 0)

/-- Records a running entry; a stall of its reads is over. -/
def pushRun (d : Dev) (i : Nat) (r : SwmRun) : Dev :=
  modSwm d i fun e => { e with runs := e.runs ++ [r], stalls := e.stalls.filter fun q => q.1 != r.id }

/-- A LAND starts: parts that came before it are written. -/
def startLand (d : Dev) (i p idx : Nat) (c : SwmCommon) (x : LandOps) (a b start : Nat) : Dev :=
  let g := smGetD (Landing.new idx) (swmOf d i).lands idx
  let d := g.parts.foldl (fun d e => putPart d i p idx start c x a e.1 e.2) d
  let d := modSwm d i fun e => { e with lands := smPut e.lands idx { g with base := some a, src := b } }
  pushRun d i ⟨idx, .swm c (.land x), start, (0, 0), false, [], 0, 0, false⟩

/-- What a sending kind sends, the unit it goes to, and the parts of its landing rows. -/
def unitsOf' (d : Dev) (i frame cap : Nat) (c : SwmCommon) (ops : SwmOps) (a b : Nat) : Option (SwmOut × Nat × Nat) :=
  match ops with
  | .score x => some (scoreUnits d frame a c x, pWgl x.wglInstance.val,
      ceilDiv (64 + 128 * scoreBytes x.scoreFmt.val + (if c.indexed then 512 else 0)) 512)
  | .bitmap x => some (bitmapUnits d frame a c x, pWgl x.wglInstance.val, 2)
  | .route x => some (routeUnits d a c x, pSwm i, pRow (viewStride x.runMax))
  | .dispatch x => some (dispatchUnits d a b c x cap, pSwm i, pRow x.rowBytes)
  | .ret x => some (returnUnits d a b c x, pSwm i, pRow x.rowBytes)
  | _ => none

/-- LIVE_TABLE starts: it writes its words when it completes (R210). -/
def startLive (d : Dev) (i p : Nat) (g : EntryGo) (c : SwmCommon) (l : LiveTableOps) (why : Nat × Nat) (a b : Nat) : Dev :=
  let r := engRead d 0 p g.start [(a + c.offsetA, selectBytes l.eCount l.cap l.sources)]
  if r.holds then stallEntry d i p g r
  else
    let w := liveWords r.dev (a + c.offsetA) l
    pushRun (boundDrop r.dev i p (b2n w.isNone)) i ⟨g.idx, .swm c (.live l), g.start + r.late + 64 + ceilDiv (l.eCount * l.sources) 16 - 1,
      readWhy r why, false, (w.map fun l => [(b + c.offsetB, l)]).getD [], 0, 0, w.isNone⟩

/-- COMBINE starts: it writes its rows when it completes (R218, R219). -/
def startCombine (d : Dev) (i p : Nat) (g : EntryGo) (img : Image) (slice : Nat) (c : SwmCommon) (k : CombineOps) (why : Nat × Nat)
    (as : List Nat) : Dev :=
  let o := runCombine d img slice c k (as.getD 0 0) (as.getD 1 0) (as.getD 2 0) (as.getD 3 0)
  let r := engRead d 0 p g.start o.2.2.2
  if r.holds then stallEntry d i p g r
  else pushRun (boundDrop r.dev i p o.2.2.1) i ⟨g.idx, .swm c (.combine k), g.start + r.late + combineTime k - 1, readWhy r why, false,
    o.1, o.2.1, k.tokenCount, decide (o.2.2.1 ≠ 0)⟩

/-- A sending entry starts: its reads, then its units; a destination that names no device refuses it, as code 2 (R305)
(log entry 108, DESIGN CHOICE). -/
def startSending (d : Dev) (i p : Nat) (g : EntryGo) (cap : Nat) (c : SwmCommon) (ops : SwmOps) (why : Nat × Nat) (a b : Nat) : Dev :=
  match unitsOf' d i (frameNum d p) cap c ops a b with
  | none => d
  | some (o, unit, parts) =>
    if !nodeNames d c.peer.node then swmFail (hdrDrop d) i g.idx p 2 0 none
    else
      let r := engRead d 0 p g.start o.reads
      if r.holds then stallEntry d i p g r
      else
        let d := match ops with
          | .dispatch x => keepDescs r.dev i p g.idx g.start
              ((dispatchRecs d b c x cap).1.zipIdx.map fun e => descOfRec d c x e.1 e.2)
          | _ => r.dev
        let s := sendUnits (boundDrop d i p o.bad) i p (g.start + r.late) c unit parts o.units
        pushRun s.1 i ⟨g.idx, .swm c ops, s.2, readWhy r why, false, [], 0, 0, decide (o.bad ≠ 0)⟩

/-- Do the rows that a DISPATCH reads lie in its source buffer (R225)? -/
def rowsInside (d : Dev) (p : Nat) (img : Image) (sl : Nat) (c : SwmCommon) (ops : SwmOps) (b : Nat) : Bool :=
  match ops with
  | .dispatch x =>
    dispatchIn (poolBytes (hPool (((refOf d p img sl c.bufA).map Prod.fst).getD 0))) c x (dispatchRecs d b c x (imageCap img)).1
  | _ => true

/-- An entry of the running slice starts (R200): its buffers are checked, then it sends, lands, combines or writes. -/
def swmStart (d : Dev) (i cycle : Nat) (c : SwmCommon) (ops : SwmOps) : Dev :=
  match engineImage d (pSwm i) with
  | none => d
  | some (p, x, img, sl) =>
    let d := listsBy d p cycle
    let needs := swmNeeds img c ops
    match entryGo d i p img sl cycle (.swm c ops) (needs.map BufNeed.ref) 0 with
    | none => d
    | some g =>
      let why := startWhy d p g (SlotKind.swm c ops).ctl
      let d := chargeStart d p img sl g (SlotKind.swm c ops).ctl
      match checkNeeds d p img sl needs [] with
      | .error (code, sub, bad) => swmFail d i g.idx p code sub bad
      | .ok as =>
        let a := as.getD 0 0
        let b := as.getD 1 0
        if !rowsInside d p img sl c ops b then swmFail d i g.idx p 2 0 none
        else match ops with
          | .land l => startLand d i p g.idx c l a b g.start
          | .live l => startLive d i p g c l why a b
          | .combine k => startCombine d i p g img x c k why as
          | _ => startSending d i p g (imageCap img) c ops why a b

/-- Marks an entry complete in a cycle and advances its NOTIFY tag. -/
def finishRun (d : Dev) (i p : Nat) (r : SwmRun) (due why : Nat) : Dev :=
  let d := modSwm d i fun e => { e with runs := e.runs.map fun q => if q.id = r.id then { q with fin := true, due := due } else q }
  match r.what.ctl.notify with
  | some (slot, tag) => notify d p slot tag due why
  | none => d

/-- A LAND completes in the cycle after every unit it expects has landed, and after its own start (R213). -/
def landComplete (d : Dev) (i idx cycle : Nat) : Dev :=
  match engineImage d (pSwm i), (swmOf d i).runs.find? fun r => r.id == idx && !r.fin with
  | some (p, _, img, _), some r =>
    match r.what with
    | .swm c (.land x) =>
      let g := landSeen d p c (smGetD (Landing.new idx) (swmOf d i).lands idx)
      let cap := imageCap img
      if inFrame d p cycle && landedAll d cap c x g && decide (cycle = max r.due g.last + 1) then
        finishRun (boundDrop d i p (landBad d cap c x g)) i p r cycle causeRemote
      else d
    | _ => d
  | _, _ => d

/-! ## The frame (R216, R222, R226) -/

/-- The Swarm engines of a partition. -/
def swmEngines (d : Dev) (p : Nat) : List Nat := [0, 1].filter fun i => decide (ownerOf d (pSwm i) = some p)

/-- Is an engine done (R216)? -/
def swmDone (d : Dev) (i : Nat) : Bool :=
  match engineImage d (pSwm i) with
  | none => true
  | some (_, _, img, sl) =>
    let e := swmOf d i
    !e.stopped && (swmEntries img sl i).all fun x => e.runs.any fun r => r.id == x.index && r.fin

/-- At the cut, entries still held by their tags, and those whose reads still stall, are charged (R30, R222, R278). -/
def swmCut (d : Dev) (p i cut : Nat) : Dev :=
  match engineImage d (pSwm i) with
  | none => d
  | some (_, _, img, sl) =>
    (swmEntries img sl i).foldl (fun d e =>
      let q := swmOf d i
      let k := e.what.ctl
      if q.stopped || q.held.contains e.index || q.runs.any fun r => r.id == e.index then d
      else match q.stalls.find? fun s => s.1 == e.index with
        | some (_, c0, cause, sub) => disturb d p cause 0 (cut - c0) sub
        | none =>
          let open_ := match k.ready with
            | some (_, _, n) => ((readyTag d p k).bind fun g => g.reached n).isNone
            | none => false
          if open_ then chargeHold d p img sl (cut - k.start) k else d) d

/-- A killed frame stops every window and discards partial landings (R226). -/
def swmStop (d : Dev) (i : Nat) : Dev :=
  modSwm d i fun e => { e with runs := e.runs.map fun r => if r.fin then r else { r with out := [] }, lands := [] }

/-- At a tick the frame's entries begin; SWM_GROUP shows the image's group. -/
def swmFrame (d : Dev) (i : Nat) : Dev :=
  let d := modSwm (wrF d (pSwm i) Reg.SWM_ENTRY_ERR 4 4 0) i fun _ => SwmEng.init
  match engineImage d (pSwm i) with
  | some (_, _, img, _) => wrN d (pSwm i) Reg.SWM_GROUP (img.exchGroup + 65536 * img.exch.length)
  | none => d

/-! ## Votes (R204 to R206) -/

/-- The engine whose page records a partition's votes: the lowest-numbered that it reserves (log entry 34, DEDUCED). -/
def voteEngine (d : Dev) (p : Nat) : Nat := (swmEngines d p).headD 0

/-- A vote reaches a member (R205, R206): a second copy is ignored; a PREV that differs from this member's outcome is a split. -/
def voteIn (d : Dev) (p : Nat) (v : Vote) : Dev :=
  match runImage d p with
  | none => d
  | some (_, _, img, _) =>
    if v.group ≠ img.exchGroup ∨ img.exch.length ≤ v.member.val ∨ v.member.val = img.self then d
    else
      let g := grpOf d p
      if g.votes.any fun x => x.1 == v.frame && x.2.1 == v.member.val then d
      else
        let d := modGrp d p fun g => { g with votes := g.votes ++ [(v.frame, v.member.val, v.commit)] }
        match g.outcome with
        | some (f, c) =>
          if (f + 1) % 65536 = v.frame ∧ v.prev ≠ c then
            let node := ((img.exch[v.member.val]?).map Peer.node).getD 0
            swmEvent (modGrp d p fun g => { g with split := some (v.frame, node) }) (voteEngine d p) 4 1
          else d
        | none => d

/-- The vote payload (log entry 35, DEDUCED): GROUP, FRAME, MEMBER, VOTE, PREV and the slice index, in 32 bytes. -/
def votePayload (group frame member slice : Nat) (commit prev : Bool) : List Byte :=
  sliceBytes (leBytes 2 group ++ leBytes 2 frame ++ leBytes 1 member ++ leBytes 1 (b2n !commit) ++ leBytes 1 (b2n !prev)
    ++ leBytes 1 0 ++ leBytes 4 slice) 0 32

/-- The final outcome of the previous frame, as PREV carries it: commit before any outcome. -/
def prevOutcome (g : GroupSt) (frame : Nat) : Bool :=
  match g.outcome with
  | some (f, c) => if (f + 1) % 65536 = frame then c else true
  | none => true

/-- Step 3 in a group: the decision is the vote, and it leaves on both X ports, or inside the device (R205). A member that
found a split votes abort (R206). -/
def sendVotes (d : Dev) (p : Nat) (decision : Bool) : Dev :=
  match runImage d p with
  | none => d
  | some (_, x, img, _) =>
    let f := frameNum d p
    let g := grpOf d p
    let commit := decision && decide (g.split.map Prod.fst ≠ some f)
    let prev := prevOutcome g f
    let d := modGrp d p fun g => { g with mine := some (f, commit) }
    img.exch.zipIdx.foldl (fun d m =>
      if m.2 = img.self then d
      else if m.1.node = myNode d then
        voteIn d m.1.part.val ⟨img.exchGroup, f, ⟨img.self % 16, Nat.mod_lt _ (by decide)⟩, commit, prev, x⟩
      else [0, 1].foldl (fun d lane => sendPkt d (mkPkt d 0 9 false (mkPlace (myPod d) m.1.node (pSwm 0)) (pSwm 0)
        m.1.part.val p f 0 0 lane (votePayload img.exchGroup f img.self x commit prev))) d) d

/-- At −400 ns: the group's outcome (R205, R206). Votes that are missing count as aborts. -/
def groupVote (d : Dev) (p : Nat) : Dev × Bool :=
  match runImage d p with
  | none => (d, true)
  | some (_, _, img, _) =>
    let f := frameNum d p
    let g := grpOf d p
    let others := (List.range img.exch.length).filter fun m => m != img.self
    let vote := fun m => (g.votes.find? fun v => v.1 == f && v.2.1 == m).map fun v => v.2.2
    let own := decide (g.mine = some (f, true)) && decide (g.split.map Prod.fst ≠ some f)
    let missing := others.filter fun m => (vote m).isNone
    let held := (others.filter fun m => decide (vote m = some true)) ++ if own then [img.self] else []
    let commit := own && others.all fun m => decide (vote m = some true)
    let d := swmEvent d (voteEngine d p) 3 missing.length
    let d := wrN d (pSwm (voteEngine d p)) Reg.SWM_VOTES (held.foldl (fun n m => n + 2 ^ m) 0 + 65536 * b2n commit)
    let d := modGrp d p fun g => { g with
      outcome := some (f, commit)
      votes := g.votes.filter fun v => decide (0 < serialDiff v.1 f)
      missing := others.foldl (fun s m => smPutD 0 s m (if missing.contains m then smGetD 0 s m + 1 else 0)) g.missing }
    (d, commit)

/-- A member that found a split in a frame has voted abort: its agent tears the job down, for the run-time to restart it (R40, R206, R349)
(log entry 111, DEDUCED: the node that CTL_RMT_TEARDOWN names is that of the vote). -/
def splitTear (d : Dev) (p frame : Nat) : Dev :=
  match (grpOf d p).split with
  | none => d
  | some (f, node) =>
    if f ≠ frame then d
    else
      let others := ((jobMembers d p).map Peer.node).eraseDups.filter fun n => n != myNode d
      tearDown (others.foldl (fun d n => sendManage d n p 1) (modGrp d p fun g => { g with split := none })) p node

/-! ## The meanings -/

/-- SCORE_FEED starts (R207). -/
def execScoreFeed (i : Fin 2) (cycle : Nat) (c : SwmCommon) (x : ScoreFeedOps) (s : State) : Host.Outcome State Fault Refusal :=
  onDev s fun d => swmStart d i.val cycle c (.score x)

/-- BITMAP_FEED starts (R208). -/
def execBitmapFeed (i : Fin 2) (cycle : Nat) (c : SwmCommon) (x : BitmapFeedOps) (s : State) : Host.Outcome State Fault Refusal :=
  onDev s fun d => swmStart d i.val cycle c (.bitmap x)

/-- ROUTE_RETURN starts (R209). -/
def execRouteReturn (i : Fin 2) (cycle : Nat) (c : SwmCommon) (x : RouteReturnOps) (s : State) : Host.Outcome State Fault Refusal :=
  onDev s fun d => swmStart d i.val cycle c (.route x)

/-- DISPATCH starts (R212). -/
def execDispatch (i : Fin 2) (cycle : Nat) (c : SwmCommon) (x : MoveOps) (s : State) : Host.Outcome State Fault Refusal :=
  onDev s fun d => swmStart d i.val cycle c (.dispatch x)

/-- RETURN starts (R217). -/
def execReturnRows (i : Fin 2) (cycle : Nat) (c : SwmCommon) (x : MoveOps) (s : State) : Host.Outcome State Fault Refusal :=
  onDev s fun d => swmStart d i.val cycle c (.ret x)

/-- COMBINE starts (R218). -/
def execCombine (i : Fin 2) (cycle : Nat) (c : SwmCommon) (x : CombineOps) (s : State) : Host.Outcome State Fault Refusal :=
  onDev s fun d => swmStart d i.val cycle c (.combine x)

/-- LAND starts (R213). -/
def execLand (i : Fin 2) (cycle : Nat) (c : SwmCommon) (x : LandOps) (s : State) : Host.Outcome State Fault Refusal :=
  onDev s fun d => swmStart d i.val cycle c (.land x)

/-- LIVE_TABLE starts (R210). -/
def execLiveTable (i : Fin 2) (cycle : Nat) (c : SwmCommon) (x : LiveTableOps) (s : State) : Host.Outcome State Fault Refusal :=
  onDev s fun d => swmStart d i.val cycle c (.live x)

/-- A LAND completes (R213). -/
def execLandComplete (i : Fin 2) (id : Nat) (cycle : Nat) (s : State) : Host.Outcome State Fault Refusal :=
  onDev s fun d => landComplete d i.val id cycle

/-- A vote arrives (R205, R206). -/
def execVoteArrival (p : Fin 16) (v : Vote) (s : State) : Host.Outcome State Fault Refusal :=
  onDev s fun d => absorbing d [pSwm (voteEngine d p.val)] fun d => voteIn d p.val v

end Sys2Proof.Machine
end

