-- ==== Sys2Proof/Machine/Collective.lean ====
section
/-! DEFINITION. Hierarchical collectives (14): groups and ranks, blocks and their encodings, COL_SEND and COL_FOLD, collective
staging, trailers and resends; and the completion of Swarm entries and arrival of landing packets, which serve both chapters. -/

namespace Sys2Proof.Machine

/-! ## Groups and ranks (R353 to R355) -/

/-- The places of each level of a box: slots, trays, racks, pods. -/
def GroupBox.sets (b : GroupBox) : List (List Nat) :=
  [setBits b.slotMask 8, setBits b.trayMask 16, setBits b.rackMask 16, (List.range b.podCount).map (b.podFirst + ·)]

/-- The four level sizes. -/
def GroupBox.sizes (b : GroupBox) : List Nat := b.sets.map List.length

/-- Ranks of a node and pod at X, Y, Z and E; none outside the box. -/
def GroupBox.ranks (b : GroupBox) (node pod : Nat) : Option (List Nat) :=
  (b.sets.zip [nSlot node, nTray node, nRack node, pod]).foldr (fun e acc =>
    acc.bind fun l => (e.1.idxOf? e.2).map fun r => r :: l) (some [])

/-- Node and pod of a member by its ranks. -/
def GroupBox.place (b : GroupBox) (ranks : List Nat) : Nat × Nat :=
  let at_ := fun (l : Nat) => (b.sets.getD l []).getD (ranks.getD l 0) 0
  (at_ 0 + 8 * at_ 1 + 128 * at_ 2, at_ 3)

/-- Global rank (R355). -/
def globalRank (sizes ranks : List Nat) : Nat := (sizes.zip ranks).foldl (fun n e => n * e.1 + e.2) 0

/-- The level of a phase of Table 14-3. -/
def phaseLevel (ph : Nat) : Nat := if ph < 5 then ph - 1 else if ph < 9 then 8 - ph else 12 - ph

/-- Is a phase a REDUCE, a SPREAD (else COUNTS)? -/
def isReduce (ph : Nat) : Bool := decide (1 ≤ ph) && decide (ph ≤ 4)
/-- Is a phase a SPREAD? -/
def isSpread (ph : Nat) : Bool := decide (5 ≤ ph) && decide (ph ≤ 8)

/-- The shard rule of R357: start and size. -/
def shard (length n i : Nat) : Nat × Nat :=
  let b := ceilDiv length (32 * n) * 32
  let start := min length (i * b)
  (start, min length (start + b) - start)

/-- The segment a member owns after the first `l` levels. -/
def segAfter (count : Nat) : List Nat → List Nat → Nat → Nat × Nat
  | n :: ns, r :: rs, l + 1 =>
    let s := shard count n r
    let q := segAfter s.2 ns rs l
    (s.1 + q.1, q.2)
  | _, _, _ => (0, count)

/-- The ranks of all members that agree with `ranks` up to level `l`, in ascending global rank. -/
def subRanks : List Nat → List Nat → Nat → List (List Nat)
  | _ :: ns, r :: rs, l + 1 => (subRanks ns rs l).map (r :: ·)
  | n :: ns, _ :: rs, 0 => (List.range n).flatMap fun i => (subRanks ns rs 0).map (i :: ·)
  | _, _, _ => [[]]

/-- A group with the ranks of one member and the entry that moves its data. -/
structure ColGeo where
  box   : GroupBox
  me    : List Nat
  x     : ColOps
  counts : List Nat            -- count table of an ALL_GATHERV, by global rank
  deriving DecidableEq, Repr

/-- Level of the entry's phase. -/
def ColGeo.level (g : ColGeo) : Nat := phaseLevel g.x.phase.val

/-- Members at the entry's level, in ascending rank, this one among them. -/
def ColGeo.mates (g : ColGeo) : List (List Nat) :=
  (List.range (g.box.sizes.getD g.level 1)).map fun r => g.me.set g.level r

/-- Is X the only level of the group? -/
def ColGeo.onlyX (g : ColGeo) : Bool := (g.box.sizes.drop 1).all (· == 1)

/-- The last REDUCE level with more than one member. -/
def ColGeo.lastLevel (g : ColGeo) : Nat :=
  ([0, 1, 2, 3].filter fun l => decide (1 < g.box.sizes.getD l 1)).foldl (fun _ l => l) 0

/-- Is the entry's phase the group's first REDUCE phase? -/
def ColGeo.firstReduce (g : ColGeo) : Bool := (g.box.sizes.take g.level).all (· == 1)

/-! ## Encodings (R359, Table 14-4) -/

/-- Format code of a WIRE. -/
def wireCode (w : Nat) : Nat := if w = 0 then 3 else if w = 1 then 2 else if w = 2 then 5 else 7

/-- Bytes of an element of a format. -/
def fmtBytes (code : Nat) : Nat := fmtWidth code / 8

/-- Bytes of a narrowed block of `s` elements. -/
def wireBytes (w s : Nat) : Nat := roundUp (s * fmtBytes (wireCode w) + if w < 2 then 2 * ceilDiv s 32 else 0) 32

/-- Narrows elements to WIRE: the block, and how many of them saturated or became a NaN (R359). -/
def narrow (w : Nat) (stoch : Bool) (draw : Nat → Nat) (xs : List Num) : List Byte × Nat :=
  if w = 3 then (sliceBytes (xs.flatMap fun x => leBytes 4 (roundFloat fp32 x)) 0 (wireBytes 3 xs.length), 0)
  else
    match fmtOf (wireCode w) with
    | none => ([], 0)
    | some f =>
      let es := if w < 2 then (List.range (ceilDiv xs.length 32)).map fun h => outGroupE (wireCode w) ((xs.drop (32 * h)).take 32)
        else []
      let outs := xs.zipIdx.map fun e =>
        let y := if w < 2 then e.1.scale (127 - (es.getD (e.2 / 32) 127 : Int)) else e.1
        outputNum f (if stoch then .stoch (draw e.2) else .rne) y
      (sliceBytes (packElems f.width (outs.map Prod.fst) ++ es.flatMap fun e => leBytes 2 (e * 256 + 128)) 0
          (wireBytes w xs.length),
        (outs.filter fun o => o.2.sat || o.2.nan).length)

/-- The elements of a narrowed block, with their scales. -/
def unnarrow (w n : Nat) (l : List Byte) : List Num :=
  let b := fmtBytes (wireCode w)
  (List.range n).map fun i =>
    let v := packedNum l (wireCode w) i
    if w < 2 then mulOperand v (scaleNum (leAt l (n * b + 2 * (i / 32)) 2)) else v

/-- Elements of a plain encoding. -/
def plainNums (code n : Nat) (l : List Byte) : List Num := (List.range n).map fun i => packedNum l code i

/-- Rounds elements to OUT_FMT, half to even (R360). -/
def toOutFmt (code : Nat) (xs : List Num) : List Byte :=
  match fmtOf code with
  | none => []
  | some f => xs.flatMap fun x => leBytes (f.width / 8) (roundFloat f x)

/-! ## Blocks -/

/-- Bytes of the result that a member holds after the last REDUCE phase, or contributes to a gather. -/
def ColGeo.leafBytes (g : ColGeo) (ranks : List Nat) : Nat :=
  let s := (segAfter g.x.count g.box.sizes ranks 4).2
  if g.x.op.val = 4 then (g.counts.getD (globalRank g.box.sizes ranks) g.x.count) * fmtBytes g.x.inFmt.val
  else if g.x.op.val = 3 then s * fmtBytes g.x.inFmt.val
  else if g.onlyX then s * fmtBytes g.x.outFmt.val
  else wireBytes g.x.wire.val s

/-- Bytes of the block that member `from_` of the entry's level sends to member `to_`. -/
def ColGeo.blockBytes (g : ColGeo) (from_ to_ : List Nat) : Nat :=
  let ph := g.x.phase.val
  let l := g.level
  if isReduce ph then
    let s := (segAfter g.x.count g.box.sizes to_ (l + 1)).2
    if l = 0 then s * fmtBytes g.x.inFmt.val else wireBytes g.x.wire.val s
  else
    let subs := subRanks g.box.sizes from_ (l + 1)
    if isSpread ph then (subs.map g.leafBytes).foldl (· + ·) 0 else 4 * subs.length

/-- Bytes that an entry's fold takes in and gives out; an ALL_GATHERV counts COUNT elements a member (R364). -/
def ColGeo.foldBytes (g : ColGeo) : Nat × Nat :=
  let h := { g with counts := [] }
  let ph := g.x.phase.val
  let inn := (g.mates.map fun m => h.blockBytes m g.me).foldl (· + ·) 0
  let own := (segAfter g.x.count g.box.sizes g.me (g.level + 1)).2
  let out :=
    if isReduce ph then
      (if g.level < g.lastLevel then 4 * own
        else if g.x.op.val = 2 || g.onlyX then own * fmtBytes g.x.outFmt.val else wireBytes g.x.wire.val own)
    else if ph = 8 ∧ g.x.op.val = 1 then g.x.count * fmtBytes g.x.outFmt.val
    else inn
  (inn, out)

/-! ## Bindings and staging (R354, R365) -/

/-- The binding of a LOCAL_ID of a context. -/
def bindOf (d : Dev) (c localId : Nat) : Option ColBind := d.col.binds.find? fun b => b.ctx == c && b.localId == localId

/-- The binding of a GROUP_ID. -/
def bindGid (d : Dev) (gid : Nat) : Option ColBind := d.col.binds.find? fun b => b.gid == gid

/-- The box that a binding's image declares. -/
def boxOf (d : Dev) (b : ColBind) : Option GroupBox :=
  (ctxOf d b.ctx).image.bind fun img => img.groups.find? fun g => g.localId == b.localId

/-- Is a GROUP_ID taken on another member device? The state of those devices is not this one's, so it is free (R354)
(log entry 77, DEDUCED). -/
def takenAway (seq n : Nat) : Bool := Config.freeValue seq (1 + n) % 2 == 1

/-- Binds every group of a context's image to the lowest GROUP_ID that is free on every member device; none when they run out (R354). -/
def bindGroups (d : Dev) (p c : Nat) (img : Image) : Option Dev :=
  let seq := d.freeSeq
  if img.groups.isEmpty then some d
  else img.groups.foldl (fun acc g => acc.bind fun d =>
    if (bindOf d c g.localId).isSome then some d
    else ((List.range 4096).find? fun n => (bindGid d n).isNone && !takenAway seq n).map fun n =>
      { d with col := { d.col with binds := d.col.binds ++ [⟨n, p, c, g.localId⟩] } }) (some (drawFree d))

/-- Frees the GROUP_IDs of a context with what is staged for them. -/
def unbindGroups (d : Dev) (c : Nat) : Dev :=
  let gone := (d.col.binds.filter fun b => b.ctx == c).map ColBind.gid
  { d with col := { d.col with
    binds := d.col.binds.filter fun b => b.ctx != c
    blks := d.col.blks.filter fun b => !gone.contains b.gid
    sent := d.col.sent.filter fun b => !gone.contains b.gid } }

/-- Changes the blocks of the collective staging. -/
def modBlks (d : Dev) (g : List ColBlk → List ColBlk) : Dev := { d with col := { d.col with blks := g d.col.blks } }

/-- A COL event (Table 14-8), `n` times. -/
def colEvent (d : Dev) (i bit n : Nat) : Dev := events d (pSwm i) Reg.SWM_COL_EVENTS bit (Reg.SWM_EVT_COL_LATE + 4 * bit) n

/-- A collective packet is dropped (R371). -/
def colDrop (d : Dev) (i code tag : Nat) : Dev :=
  colEvent (wrN d (pSwm i) Reg.SWM_LAST_DROP (code + 65536 * (tag % 65536))) i 3 1

/-- Is a block the one of a group, phase, source and frame? -/
def ColBlk.is (b : ColBlk) (gid phase node pod frame : Nat) : Bool :=
  b.gid == gid && b.phase == phase && b.node == node && b.pod == pod && b.frame == frame

/-- Hall time of a cycle of a partition's frame. -/
def cycleTime (d : Dev) (p cycle : Nat) : Nat := rdN d (pPart p) Reg.CTL_TICK_TIME + cycle * 1000 / clockNow d

/-- The first cycle of a partition's frame that is no earlier than a hall time. -/
def timeCycle (d : Dev) (p t : Nat) : Nat := ceilDiv ((t - rdN d (pPart p) Reg.CTL_TICK_TIME) * clockNow d) 1000

/-- The COL_FOLD of an image for a group and phase: its index and entry. -/
def foldOf (img : Image) (localId phase : Nat) : Option (SlotEnt × ColOps) :=
  img.entries.findSome? fun e => match e.what with
    | .col false x => if x.localId = localId ∧ x.phase.val = phase then some (e, x) else none
    | _ => none

/-- Geometry of an entry at a member of its group. -/
def geoOf (d : Dev) (b : GroupBox) (x : ColOps) (counts : List Nat) : Option ColGeo :=
  (b.ranks (myNode d) (myPod d)).map fun r => ⟨b, r, x, counts⟩

/-- Copies of an entry's staging: 1 in frame, 3 staged within the pod, 4 at level E (R365). -/
def ColGeo.copies (g : ColGeo) : Nat := if g.x.delivery.val = 1 then 1 else if g.level < 3 then 3 else 4

/-- Device offset of the block of a member in the staging of the fold of a partition, in the copy of a frame (R288, R365)
(log entry 113, DEDUCED). -/
def stageAddr (d : Dev) (p : Nat) (g : ColGeo) (from_ : List Nat) (frame : Nat) : Option Nat :=
  (partCombs d p)[g.x.stageComb]?.map fun k =>
    let top := ((smGet d.vat.carve p).map fun c => c.2.2).getD 0
    let slot := roundUp ((g.mates.map fun m => g.blockBytes m g.me).foldl max 0) 32
    combAddr k (16 * 2 ^ 20 - top + g.x.stageOffset + frame % g.copies * g.x.stageBytes + from_.getD g.level 0 * slot)

/-- Writes a packet of a block into the collective staging. -/
def putStage (d : Dev) (p cycle : Nat) (g : ColGeo) (from_ : List Nat) (frame n : Nat) (l : List Byte) : Dev :=
  match stageAddr d p g from_ frame with
  | some a => absorbing d (storeUnits d a) fun d => writeStore d p cycle (a + 512 * n) l
  | none => d

/-- A collective packet arrives (R365, R371). -/
def colArrive (d : Dev) (i : Nat) (k : LandPkt) : Dev :=
  let gid := k.tag % 4096
  let phase := k.block / 2 ^ 20 % 16
  let n := k.block % 2 ^ 20
  match bindGid d gid with
  | none => colDrop d i 2 k.tag
  | some b =>
    match boxOf d b, (ctxOf d b.ctx).image with
    | some box, some img =>
      let now := runImage d b.part
      match foldOf img b.localId phase with
      | none => colDrop d i 2 k.tag
      | some (ent, x) =>
        match geoOf d box x [], box.ranks k.src.node k.pod with
        | some g, some from_ =>
          let size := g.blockBytes from_ g.me
          let inFrame := x.delivery.val = 1
          let runs := match now with
            | some (c, _, _, sl) => c == b.ctx && sl == ent.what.slice
            | none => false
          if inFrame ∧ (k.frame ≠ frameNum d b.part ∨ frameOver d b.part) then colDrop d i 1 k.tag
          else if inFrame ∧ !runs then colDrop d i 2 k.tag
          else if ceilDiv size 512 ≤ n ∨ size < 512 * n + k.payload.length then colDrop d i 3 k.tag
          else
            let old := (d.col.blks.find? fun q => q.is gid phase k.src.node k.pod k.frame).getD
              ⟨gid, phase, k.src.node, k.pod, k.frame, !inFrame, [], none, none⟩
            match smGet old.pkts n with
            | some l =>
              let d := if l = k.payload then d else fileKill (swmEvent d i 1 1) b.part 2
              colDrop d i 4 k.tag
            | none =>
              if inFrame ∧ !img.exch.contains k.src then colDrop d i 5 k.tag
              else
                let pkts := smPut old.pkts n k.payload
                let full := pkts.length = ceilDiv size 512
                let q := { old with pkts := pkts
                                    ready := if inFrame ∧ full then some (cycleTime d b.part k.cycle) else old.ready }
                let d := putStage d b.part k.cycle g from_ k.frame n k.payload
                modBlks d fun l => (l.filter fun r => !r.is gid phase k.src.node k.pod k.frame) ++ [q]
        | _, _ => colDrop d i 5 k.tag
    | _, _ => colDrop d i 2 k.tag

/-! ## COL_SEND (R363) -/

/-- The bytes an entry reads at BUF_A. -/
def ColGeo.sourceBytes (g : ColGeo) : Nat :=
  let ph := g.x.phase.val
  if isReduce ph then
    (segAfter g.x.count g.box.sizes g.me g.level).2 * (if g.firstReduce then fmtBytes g.x.inFmt.val else 4)
  else g.blockBytes g.me g.me

/-- The draw of an element of the vector (R359). -/
def colDraw (key : W64) (phase slice k : Nat) : Nat :=
  srBits (key + BitVec.ofNat 64 (phase * 2 ^ 40 + k / 16384)) slice (k / 128 % 128) (k % 128)

/-- The block for a member of the level, and its saturations. `src` is the data at OFFSET_A. -/
def ColGeo.block (g : ColGeo) (key : W64) (slice : Nat) (src : List Byte) (to_ : List Nat) : List Byte × Nat :=
  let ph := g.x.phase.val
  if isReduce ph then
    let seg := segAfter g.x.count g.box.sizes g.me g.level
    let own := segAfter g.x.count g.box.sizes to_ (g.level + 1)
    let code := if g.firstReduce then g.x.inFmt.val else 7
    let part := sliceBytes src ((own.1 - seg.1) * fmtBytes code) (own.2 * fmtBytes code)
    if g.level = 0 then (part, 0)
    else narrow g.x.wire.val g.x.stoch (fun e => colDraw key ph slice (own.1 + e)) (plainNums code own.2 part)
  else (src, 0)

/-- The first-hop bundle to a peer and its width: X by slot, Y and Z by direction, Ethernet by port. -/
def firstHop (d : Dev) (node pod : Nat) : Nat × Nat :=
  let me := myNode d
  if pod ≠ myPod d then (let up := ethUp d; (4000 + up.getD ((pod + node) % up.length) 0, 1))
  else if nSlot node ≠ nSlot me then (1000 + nSlot node, 2)
  else if nTray node ≠ nTray me then (2000 + b2n (decide (0 < ringDir (nTray me) (nTray node) 16)), 4)
  else (3000 + b2n (decide (0 < ringDir (nRack me) (nRack node) (max 1 (nRacks d)))), 4)

/-- Sends the blocks of a COL_SEND: state and completion cycle. -/
def colTransmit (d : Dev) (i p start gid phase part : Nat) (bs : List ((Nat × Nat) × List Byte)) : Dev × Nat :=
  let f := frameNum d p
  let units := (bs.flatMap fun b => (splitPayload b.2).zipIdx.map fun q => (b.1, q.1.2, q.2)).zipIdx
  let d := units.foldl (fun d u =>
    let to_ := u.1.1
    let dest := mkPlace to_.2 to_.1 (pSwm i)
    let w := (firstHop d to_.1 to_.2).2
    sendPkt d (mkPkt d 0 0 false dest (pSwm i) part p f (0x8000 + gid + 65536 * (phase * 2 ^ 20 + u.1.2.2)) 0 (u.2 % w) u.1.2.1)) d
  let load := units.map fun u =>
    let h := firstHop d u.1.1.1 u.1.1.2
    (h.1 * 4 + u.2 % h.2, u.1.2.1.length + if h.1 < 4000 then 32 else 118)
  let sum := fun (k : Nat) => (load.filter fun e => e.1 == k).foldl (fun n e => n + e.2) 0
  let worst := load.foldl (fun m e => max m (sum e.1)) 0
  let far := bs.foldl (fun m b => if b.1.2 = myPod d then max m (hops d (myNode d) b.1.1) else m) 0
  let total := load.foldl (fun n e => n + e.2) 0
  let d := bump (bump d (pSwm i) Reg.SWM_UNITS_SENT units.length) (pSwm i) Reg.SWM_BYTES_SENT total
  (bump d (pSwm i) Reg.SWM_COL_BYTES total, if units.isEmpty then start else start + portCycles d worst + hopCycles d far - 1)

/-- What an entry of the running slice needs: partition, image, its geometry, GROUP_ID. -/
structure ColEnv where
  p    : Nat
  x    : Nat
  img  : Image
  sl   : Nat
  gid  : Nat
  box  : GroupBox
  deriving DecidableEq, Repr

/-- The surroundings of a collective entry of the running slice. -/
def colEnv (d : Dev) (i localId : Nat) : Option ColEnv :=
  match engineImage d (pSwm i), (engineImage d (pSwm i)).bind fun e => runImage d e.1 with
  | some (p, x, img, sl), some (c, _, _, _) =>
    match bindOf d c localId, img.groups.find? fun g => g.localId == localId with
    | some b, some box => some ⟨p, x, img, sl, b.gid, box⟩
    | _, _ => none
  | _, _ => none

/-- The count table that an ALL_GATHERV SPREAD entry reads (R368). -/
def countsNeed (box : GroupBox) (x : ColOps) : List BufNeed :=
  if x.op.val = 4 ∧ isSpread x.phase.val then
    [⟨x.countsRef, x.countsOffset, 4 * box.sizes.foldl (· * ·) 1, false, false⟩] else []

/-- Reads the count table. -/
def memberCounts (d : Dev) (box : GroupBox) (base : Option Nat) (x : ColOps) : List Nat :=
  match base with
  | none => []
  | some a => (List.range (box.sizes.foldl (· * ·) 1)).map fun m => engLe d (a + x.countsOffset + 4 * m) 4

/-- The own block of a COL_SEND goes into the member's own staging slot (R363). -/
def keepOwn (d : Dev) (v : ColEnv) (g : ColGeo) (block : List Byte) (due : Nat) : Dev :=
  let f := frameNum d v.p
  let staged := g.x.delivery.val = 2
  let d := match (foldOf v.img g.x.localId g.x.phase.val).bind fun e => geoOf d v.box e.2 g.counts with
    | some h => if block.isEmpty then d else putStage d v.p due h g.me f 0 block
    | none => d
  modBlks d fun l => l ++ [⟨v.gid, g.x.phase.val, myNode d, myPod d, f, staged,
    ((splitPayload block).zipIdx.map fun q => (q.2, q.1.2)), if staged then none else some (cycleTime d v.p due), none⟩]

/-- A source at level E keeps the bytes that it sent (R366). -/
def keepSent (d : Dev) (i : Nat) (v : ColEnv) (g : ColGeo) (others : List ((Nat × Nat) × List Byte)) : Dev :=
  if g.level < 3 then d
  else { d with col := { d.col with sent := d.col.sent ++ others.map fun o =>
    ⟨v.gid, g.x.phase.val, frameNum d v.p, v.p, mkPlace o.1.2 o.1.1 (pSwm i), (splitPayload o.2).zipIdx.map fun q => (q.2, q.1.2), none⟩ } }

/-- The blocks of a COL_SEND leave, and the entry runs until the last is written at its target (R203, R363). -/
def colLeave (d : Dev) (i : Nat) (v : ColEnv) (g : ColGeo) (e : EntryGo) (late : Nat) (why : Nat × Nat) (src : List Byte) : Dev :=
  let blocks := g.mates.map fun m => (m, g.block (paramOf v.img g.x.param).key v.x src m)
  let others := (blocks.filter fun b => b.1 != g.me).map fun b => (v.box.place b.1, b.2.1)
  let s := colTransmit (colEvent d i 1 ((blocks.map fun b => b.2.2).foldl (· + ·) 0)) i v.p (e.start + late) v.gid g.x.phase.val
    v.box.part others
  let d := keepOwn s.1 v g (((blocks.find? fun b => b.1 == g.me).map fun b => b.2.1).getD []) s.2
  pushRun (keepSent d i v g others) i ⟨e.idx, .col true g.x, s.2, why, false, [], 0, 0, false⟩

/-- A COL_SEND of the running slice starts: one block for each peer, in ascending rank (R363). A peer that no device is refuses it
(R305) (log entry 108, DESIGN CHOICE). -/
def colSend (d : Dev) (i cycle : Nat) (x : ColOps) : Dev :=
  match colEnv d i x.localId with
  | none => d
  | some v =>
    let d := listsBy d v.p cycle
    match geoOf d v.box x [] with
    | none => d
    | some g =>
      let needs := ⟨x.bufA, x.offsetA, g.sourceBytes, false, false⟩ :: countsNeed v.box x
      match entryGo d i v.p v.img v.sl cycle (.col true x) (needs.map BufNeed.ref) 0 with
      | none => d
      | some e =>
        let k := (SlotKind.col true x).ctl
        let why := startWhy d v.p e k
        let d := chargeStart d v.p v.img v.sl e k
        match checkNeeds d v.p v.img v.sl needs [] with
        | .error (code, sub, bad) => swmFail d i e.idx v.p code sub bad
        | .ok as =>
          if !(g.mates.all fun m => nodeNames d (v.box.place m).1) then swmFail (hdrDrop d) i e.idx v.p 2 0 none
          else
            let a := as.getD 0 0 + x.offsetA
            let counts := countsNeed v.box x
            let r := engRead d 0 v.p e.start ((a, g.sourceBytes) :: counts.map fun n => (as.getD 1 0 + n.off, n.bytes))
            if r.holds then stallEntry d i v.p e r
            else
              let g := { g with counts := memberCounts r.dev v.box as[1]? x }
              let above := g.counts.filter fun n => decide (x.count < n)
              if above.isEmpty then colLeave r.dev i v g e r.late (readWhy r why) (engBytes r.dev a g.sourceBytes)
              else pushRun (boundDrop r.dev i v.p above.length) i ⟨e.idx, .col true x, e.start, readWhy r why, false, [], 0, 0, true⟩

/-! ## COL_FOLD (R364, R369) -/

/-- The newest block of a peer that is complete: in frame, that of this frame. -/
def readyBlk (d : Dev) (gid phase node pod frame : Nat) (inFrame : Bool) : Option ColBlk :=
  ((d.col.blks.filter fun b => b.gid == gid && b.phase == phase && b.node == node && b.pod == pod && b.ready.isSome
    && (!inFrame || b.frame == frame)).getLast?)

/-- The bytes of a block. -/
def ColBlk.bytes (b : ColBlk) : List Byte := b.pkts.flatMap fun e => e.2

/-- The blocks of every member of the level, in rank order, with the hall time by which each is complete; none while one is
missing. An empty block is complete. -/
def foldBlocks (d : Dev) (v : ColEnv) (g : ColGeo) : Option (List (List Nat × List Byte × Nat)) :=
  let f := frameNum d v.p
  g.mates.foldr (fun m acc => acc.bind fun l =>
    let pl := v.box.place m
    let size := g.blockBytes m g.me
    if m = g.me ∧ g.x.phase.val = 1 then some ((m, [], 0) :: l)
    else if size = 0 then some ((m, [], 0) :: l)
    else (readyBlk d v.gid g.x.phase.val pl.1 pl.2 f (g.x.delivery.val == 1)).bind fun b =>
      if g.x.op.val ≠ 4 ∧ b.pkts.length < ceilDiv size 512 then none else some ((m, b.bytes, b.ready.getD 0) :: l)) (some [])

/-- The rank-order reduction of the contributions to one element (R358). -/
def reduceElem (redop : Nat) (l : List Num) : W32 :=
  match l with
  | [] => 0
  | c :: cs => cs.foldl (fun acc x =>
      if redop = 0 then accAddF acc x
      else
        let a := decodeNum fp32 acc.toNat
        BitVec.ofNat 32 (roundFloat fp32 (if redop = 1 then maxNum a x else minNum a x))) (BitVec.ofNat 32 (roundFloat fp32 c))

/-- What a fold writes at OFFSET_B, and its saturations. -/
def foldOut (g : ColGeo) (key : W64) (slice : Nat) (own : List Byte) (bs : List (List Nat × List Byte × Nat)) : List Byte × Nat :=
  let ph := g.x.phase.val
  if isReduce ph then
    let seg := segAfter g.x.count g.box.sizes g.me (g.level + 1)
    let rows := bs.map fun b =>
      if g.level = 0 then plainNums g.x.inFmt.val seg.2 (if b.1 = g.me then own else b.2.1)
      else unnarrow g.x.wire.val seg.2 b.2.1
    let accs := (List.range seg.2).map fun e => reduceElem g.x.redop.val (rows.map fun r => r.getD e .zero)
    let ys := accs.map fun a => decodeNum fp32 a.toNat
    if g.level < g.lastLevel then (accs.flatMap fun a => leBytes 4 a.toNat, 0)
    else if g.x.op.val = 2 || g.onlyX then (toOutFmt g.x.outFmt.val ys, 0)
    else narrow g.x.wire.val g.x.stoch (fun e => colDraw key ph slice (seg.1 + e)) ys
  else if ph = 8 ∧ g.x.op.val = 1 ∧ !g.onlyX then
    (bs.flatMap fun b =>
      ((subRanks g.box.sizes b.1 1).foldl (fun (acc : List Byte × List Byte) r =>
        let n := (segAfter g.x.count g.box.sizes r 4).2
        (acc.1 ++ toOutFmt g.x.outFmt.val (unnarrow g.x.wire.val n acc.2), acc.2.drop (wireBytes g.x.wire.val n)))
          (([] : List Byte), b.2.1)).1, 0)
  else (bs.flatMap fun b => b.2.1, 0)

/-- A group's window. -/
def ColStat.init : ColStat := ⟨0, 0, 0, 0, 0⟩

/-- Records the slowest peer of a fold (R369): replaced when LATE_NS is not zero. -/
def foldLate (d : Dev) (i : Nat) (v : ColEnv) (g : ColGeo) (idx : Nat) (bs : List (List Nat × List Byte × Nat)) : Dev :=
  let peers := bs.filter fun b => b.1 != g.me
  match sortBy (fun a b => decide (b.2.2 < a.2.2)) peers with
  | [] => d
  | slow :: rest =>
    let due := smGetD (cycleTime d v.p g.x.startCycle) d.col.first (i * 65536 + idx)
    let late := slow.2.2 - due
    if late = 0 then d
    else
      let pl := v.box.place slow.1
      let gap := slow.2.2 - (rest.head?.map fun b => b.2.2).getD slow.2.2
      let d := { d with col := { d.col with stats := smModD ColStat.init d.col.stats (i * 4096 + v.gid) fun w =>
        ⟨pl.1 % 2048 + pl.2 * 2048 + g.x.phase.val * 2 ^ 19, frameNum d v.p, late, gap, w.folds + 1⟩ } }
      colEvent d i 0 1

/-- The slowest peer's node. -/
def slowNode (v : ColEnv) (g : ColGeo) (bs : List (List Nat × List Byte × Nat)) : Nat :=
  match sortBy (fun a b => decide (b.2.2 < a.2.2)) (bs.filter fun b => b.1 != g.me) with
  | [] => 0
  | b :: _ => (v.box.place b.1).1

/-- The staged blocks that a fold reads: addresses and bytes. -/
def stageReads (d : Dev) (v : ColEnv) (g : ColGeo) : List (Nat × Nat) :=
  g.mates.filterMap fun m =>
    let pl := v.box.place m
    if m = g.me ∧ g.x.phase.val = 1 then none
    else (readyBlk d v.gid g.x.phase.val pl.1 pl.2 (frameNum d v.p) (g.x.delivery.val == 1)).bind fun b =>
      (stageAddr d v.p g m b.frame).map fun a => (a, b.bytes.length)

/-- The bytes that a member contributes of its own to a REDUCE_X. -/
def ColGeo.ownBytes (g : ColGeo) : Nat := (segAfter g.x.count g.box.sizes g.me 1).2 * fmtBytes g.x.inFmt.val

/-- The buffers that a fold uses. -/
def foldNeeds (v : ColEnv) (g : ColGeo) : List BufNeed :=
  ⟨g.x.bufB, g.x.offsetB, g.foldBytes.2, true, false⟩
    :: (if g.x.phase.val = 1 then [⟨g.x.bufA, g.x.offsetA, g.ownBytes, false, false⟩] else []) ++ countsNeed v.box g.x

/-- The first cycle after every block of a fold is complete. -/
def blocksCycle (d : Dev) (p : Nat) (bs : List (List Nat × List Byte × Nat)) : Nat :=
  bs.foldl (fun m b => if b.2.2 = 0 then m else max m (timeCycle d p b.2.2 + 1)) 0

/-- A fold combines its blocks; it writes the result when it completes. -/
def foldRun (d : Dev) (i : Nat) (v : ColEnv) (g : ColGeo) (e : EntryGo) (why : Nat × Nat) (as : List Nat)
    (bs : List (List Nat × List Byte × Nat)) : Dev :=
  let x := g.x
  let gatherv := decide (x.op.val = 4) && isSpread x.phase.val
  let a := as.getD 1 0 + x.offsetA
  let counts := (countsNeed v.box x).map fun n => (as.getD 1 0 + n.off, n.bytes)
  let r := engRead d 0 v.p e.start ((if x.phase.val = 1 then [(a, g.ownBytes)] else []) ++ counts ++ stageReads d v g)
  if r.holds then stallEntry d i v.p e r
  else
    let d := r.dev
    let g := { g with counts := memberCounts d v.box (if gatherv then as[1]? else none) x }
    let bad := (g.counts.filter fun n => decide (x.count < n)).length
      + (bs.filter fun q => gatherv && q.2.1.length != g.blockBytes q.1 g.me).length
    let o := foldOut g (paramOf v.img x.param).key v.x (if x.phase.val = 1 then engBytes d a g.ownBytes else []) bs
    let io := g.foldBytes
    pushRun (colEvent (boundDrop d i v.p bad) i 1 o.2) i
      ⟨e.idx, .col false x, e.start + r.late + 64 + ceilDiv io.1 512 + ceilDiv io.2 512 - 1, readWhy r why, false,
        if bad = 0 then [(as.getD 0 0 + x.offsetB, o.1)] else [], 0, 0, decide (bad ≠ 0)⟩

/-- A COL_FOLD of the running slice starts, once every block of its level is complete (R364). -/
def colFold (d : Dev) (i cycle : Nat) (x : ColOps) : Dev :=
  match colEnv d i x.localId with
  | none => d
  | some v =>
    let d := listsBy d v.p cycle
    match geoOf d v.box x [], (geoOf d v.box x []).bind (foldBlocks d v) with
    | some g, some bs =>
      let needs := foldNeeds v g
      match entryGo d i v.p v.img v.sl cycle (.col false x) (needs.map BufNeed.ref) (blocksCycle d v.p bs) with
      | none => d
      | some e =>
        let k := (SlotKind.col false x).ctl
        let late := e.stall.isNone && decide (e.own < e.start)
        let why := if late then (causeRemote, slowNode v g bs) else startWhy d v.p e k
        let d := chargeStart d v.p v.img v.sl e k
        let d := if late then heldOn d i v.p (e.start - e.own) (slowNode v g bs) else d
        match checkNeeds d v.p v.img v.sl needs [] with
        | .error (code, sub, bad) => swmFail d i e.idx v.p code sub bad
        | .ok as => foldRun (if e.stall.isNone then foldLate d i v g e.idx bs else d) i v g e why as bs
    | _, _ => d

/-- The node of the first member whose block a fold of the running slice still misses. -/
def missingPeer (d : Dev) (v : ColEnv) (g : ColGeo) : Option Nat :=
  (g.mates.find? fun m =>
    let pl := v.box.place m
    !(m = g.me ∧ g.x.phase.val = 1) && decide (g.blockBytes m g.me ≠ 0)
      && (readyBlk d v.gid g.x.phase.val pl.1 pl.2 (frameNum d v.p) (g.x.delivery.val == 1)).isNone).map fun m => (v.box.place m).1

/-- At the cut, a fold that still waits for a block is charged to the member that has not sent it (R222, R369). -/
def colCut (d : Dev) (p i cut : Nat) : Dev :=
  match engineImage d (pSwm i) with
  | none => d
  | some (_, _, img, sl) =>
    (swmEntries img sl i).foldl (fun d e => match e.what with
      | .col false x =>
        let q := swmOf d i
        if q.stopped || q.held.contains e.index || q.runs.any fun r => r.id == e.index then d
        else match colEnv d i x.localId, (colEnv d i x.localId).bind fun v => geoOf d v.box x [] with
          | some v, some g => match missingPeer d v g, startCycleOf d i p img sl e.what ((foldNeeds v g).map BufNeed.ref) with
            | some node, some (own, _) => heldOn d i p (cut - own) node
            | _, _ => d
          | _, _ => d
      | _ => d) d

/-! ## Completion of a Swarm entry (R203, R210, R218, R364) -/

/-- A Swarm entry completes in its completion cycle: what it computed is written, counted, and its NOTIFY tag advances. -/
def swmComplete (d : Dev) (i idx cycle : Nat) : Dev :=
  match engineImage d (pSwm i), (swmOf d i).runs.find? fun r => r.id == idx && !r.fin with
  | some (p, _, _, _), some r =>
    match r.what with
    | .swm _ (.land _) => d
    | w =>
      if cycle ≠ r.due || !inFrame d p cycle then d
      else
        let d := r.out.foldl (fun d o => engWrite d p (pSwm i) (idx % 65536) cycle o.1 o.2) d
        let d := match w with
          | .swm _ (.combine _) =>
            let d := bump (bump d (pSwm i) Reg.SWM_COMBINE_DROPPED r.dropped) (pSwm i) Reg.SWM_ROWS_COMBINED r.rows
            swmEvent d i 5 (min 1 r.dropped)
          | .col false _ => bump d (pSwm i) Reg.SWM_COL_FOLDS 1
          | _ => d
        finishRun d i p r r.due r.why.1
  | _, _ => d

/-- A landing packet arrives: a collective's block, a staged unit, or a unit of this frame. -/
def landArrive (d : Dev) (i : Nat) (k : LandPkt) : Dev :=
  if 0x8000 ≤ k.tag % 65536 then colArrive d i k
  else if k.staged then stagedIn d i k k.pairCount
  else landIn d i k

/-! ## Level E: trailers and resends (R366, R367) -/

/-- A collective control packet of level E: TRAILER (13) or RESEND (14). -/
def colControl (d : Dev) (i p cls gid phase frame to_ part : Nat) (payload : List Byte) : Dev :=
  sendPkt d (mkPkt d cls 0 false to_ (pSwm i) part p frame (0x8000 + gid + 65536 * (phase * 2 ^ 20)) 0 0 (sliceBytes payload 0 32))

/-- Trailer payload: source frame, commit or abort, packet count. -/
def trailerBytes (frame : Nat) (commit : Bool) (count : Nat) : List Byte :=
  leBytes 2 frame ++ leBytes 1 (b2n !commit) ++ leBytes 1 0 ++ leBytes 4 count

/-- The owners and counts of what a partition sent at level E in a frame: GROUP_ID, place, packets. -/
def sentTo (d : Dev) (p frame : Nat) : List (Nat × Nat × Nat) :=
  let l := d.col.sent.filter fun s => s.part == p && s.frame == frame
  (l.map fun s => (s.gid, s.to_)).eraseDups.map fun e =>
    (e.1, e.2, (l.filter fun s => s.gid == e.1 && s.to_ == e.2).foldl (fun n s => n + s.pkts.length) 0)

/-- Step 5: a trailer to every owner at level E (R366). -/
def sendTrailers (d : Dev) (p frame : Nat) (commit : Bool) : Dev :=
  let d := (sentTo d p frame).foldl (fun d e =>
    let part := ((bindGid d e.1).bind fun b => boxOf d b).map fun b => b.part
    colControl d (e.2.1 % 32) p 0 e.1 13 frame e.2.1 (part.getD 0) (trailerBytes frame commit e.2.2)) d
  { d with col := { d.col with sent := d.col.sent.map fun s =>
    if s.part = p ∧ s.frame = frame then { s with commit := some commit } else s } }

/-- A trailer arrives: it is kept with the source's blocks of its frame (R366). -/
def trailerIn (d : Dev) (src : Peer) (pod gid frame : Nat) (commit : Bool) (count : Nat) : Dev :=
  if (bindGid d gid).isNone ∨ (d.col.blks.any fun b => b.is gid 13 src.node pod frame) then d
  else modBlks d fun l => l ++ [⟨gid, 13, src.node, pod, frame, true, [], none, some (commit, count)⟩]

/-- Packets held from a source for a frame. -/
def heldPkts (d : Dev) (gid node pod frame : Nat) : Nat :=
  (d.col.blks.filter fun b => b.gid == gid && b.node == node && b.pod == pod && b.frame == frame && decide (b.phase < 13)).foldl
    (fun n b => n + b.pkts.length) 0

/-- Has everything that a source's trailer counts arrived? -/
def colWhole (d : Dev) (gid node pod frame : Nat) : Bool :=
  match d.col.blks.find? fun b => b.is gid 13 node pod frame with
  | some b => (match b.trailer with
      | some (_, n) => decide (n ≤ heldPkts d gid node pod frame)
      | none => false)
  | none => false

/-- Joins rising indices into ranges: first index and count. -/
def toRanges : List Nat → List (Nat × Nat)
  | [] => []
  | n :: l => match toRanges l with
    | (a, c) :: r => if a = n + 1 then (n, c + 1) :: r else (n, 1) :: (a, c) :: r
    | [] => [(n, 1)]

/-- Packet indices of a source's blocks that are missing, with the phase in bits 23:20; at most 60 ranges. -/
def missingRanges (d : Dev) (gid node pod frame : Nat) : List (Nat × Nat) :=
  match bindGid d gid with
  | none => []
  | some b =>
    match boxOf d b, (ctxOf d b.ctx).image with
    | some box, some img =>
      let all := [4, 5, 9].filter fun ph => (foldOf img b.localId ph).isSome
      let seen := all.filter fun ph => d.col.blks.any fun q => q.is gid ph node pod frame
      ((if seen.isEmpty then all else seen).flatMap fun ph =>
        match foldOf img b.localId ph, box.ranks node pod with
        | some (_, x), some from_ =>
          match geoOf d box x [] with
          | some g =>
            let held := ((d.col.blks.find? fun q => q.is gid ph node pod frame).map ColBlk.pkts).getD []
            (toRanges ((List.range (ceilDiv (g.blockBytes from_ g.me) 512)).filter fun n => (smGet held n).isNone)).map
              fun r => (ph * 2 ^ 20 + r.1, r.2)
          | none => []
        | _, _ => []).take 60
    | _, _ => []

/-- An owner asks for what is missing at the cut of the tick that ends F + 2 (R367). -/
def resendAsk (d : Dev) (i : Nat) (src : Peer) (pod gid frame : Nat) : Dev :=
  match bindGid d gid with
  | none => d
  | some b =>
    if colWhole d gid src.node pod frame || !cutPast d b.part frame 2 then d
    else
      let noTrailer := !(d.col.blks.any fun q => q.is gid 13 src.node pod frame)
      let rs := if noTrailer then [] else missingRanges d gid src.node pod frame
      let pay := leBytes 2 frame ++ leBytes 6 0 ++ rs.flatMap fun r => leBytes 4 r.1 ++ leBytes 4 r.2
      let d := sendPkt d (mkPkt d 1 0 false (mkPlace pod src.node (pSwm i)) (pSwm i) src.part.val b.part frame
        (0x8000 + gid + 65536 * (14 * 2 ^ 20)) 0 0 (sliceBytes pay 0 (roundUp pay.length 32)))
      colEvent d i 2 1

/-- A source sends the packets that a RESEND names, and its trailer, again in the dynamic class (R367). -/
def resendServe (d : Dev) (i : Nat) (src : Peer) (pod gid frame : Nat) (ranges : List (Nat × Nat)) : Dev :=
  let to_ := mkPlace pod src.node (pSwm i)
  let l := d.col.sent.filter fun s => s.gid == gid && s.frame == frame && placeNode s.to_ == src.node && placePod s.to_ == pod
  match l with
  | [] => d
  | s :: _ =>
    let d := l.foldl (fun d s => s.pkts.foldl (fun d e =>
      let n := s.phase * 2 ^ 20 + e.1
      if ranges.any fun r => decide (r.1 ≤ n) && decide (n < r.1 + r.2) then
        sendPkt d (mkPkt d 1 0 false to_ (pSwm i) src.part.val s.part frame (0x8000 + gid + 65536 * n) 0 0 e.2)
      else d) d) d
    let d := match s.commit with
      | some c => colControl d i s.part 1 gid 13 frame to_ src.part.val
          (trailerBytes frame c (l.foldl (fun n s => n + s.pkts.length) 0))
      | none => d
    colEvent d i 2 1

/-- Blocks that are still incomplete at the cut of the tick that ends F + 5: the agent asks the source through the
controller tree, which no packet carries (R367). -/
def collectiveQuery (d : Dev) (p : Nat) (src : Peer) (pod frame : Nat) : Dev :=
  let open_ := d.col.binds.any fun b => b.part == p && !colWhole d b.gid src.node pod frame
  if !open_ || !cutPast d p frame 5 then d
  else
    let d := event d (pPart p) Reg.CTL_RMT_EVENTS 4 Reg.CTL_EVT_QUERY
    { d with rmt := { d.rmt with queries := d.rmt.queries ++ [⟨p, src.node, .collective, false⟩] } }

/-! ## The tick (R29, R365, R366) -/

/-- Does a commit or abort trailer, or marker, decide a staged block at the tick that ends frame `now`? -/
def blkFate (d : Dev) (p now : Nat) (committed : Bool) (b : ColBlk) : Option Bool :=
  if b.node = myNode d ∧ b.pod = myPod d then (if b.frame = now then some committed else none)
  else if b.pod = myPod d then
    (d.rmt.held.find? fun m => m.part == p && m.peer.node == b.node && m.frame == b.frame).bind fun m =>
      if !m.commit then some false else if m.atCut ∧ 1 ≤ serialDiff now b.frame then some true else none
  else
    (d.col.blks.find? fun q => q.is b.gid 13 b.node b.pod b.frame).bind fun q => q.trailer.bind fun t =>
      if !t.1 then some false
      else if 1 ≤ serialDiff now b.frame ∧ t.2 ≤ heldPkts d b.gid b.node b.pod b.frame then some true else none

/-- At the tick that ends frame `now` of a partition: staged blocks are published or discarded, in-frame blocks and the
blocks that a committed fold consumed are forgotten, and a block published replaces an older one. -/
def colTick (d : Dev) (p now : Nat) (committed : Bool) : Dev :=
  let mine := fun (gid : Nat) => ((bindGid d gid).map fun b => b.part == p).getD false
  let used := if !committed then [] else [0, 1].flatMap fun i =>
    if ownerOf d (pSwm i) ≠ some p then [] else (swmOf d i).runs.filterMap fun r => match r.what with
      | .col false x => if r.fin then (d.col.binds.find? fun b => b.part == p && b.localId == x.localId).map
          fun b => (b.gid, x.phase.val) else none
      | _ => none
  let blks := d.col.blks.filterMap fun b =>
    if !mine b.gid then some b
    else if !b.staged then none
    else if b.phase = 13 then (if 16 < serialDiff now b.frame then none else some b)
    else if b.ready.isSome then (if used.contains (b.gid, b.phase) then none else some b)
    else match blkFate d p now committed b with
      | some true => some { b with ready := some d.hall }
      | some false => none
      | none => if 16 < serialDiff now b.frame then none else some b
  let fresh := fun (b : ColBlk) => b.ready == some d.hall
  let blks := blks.filter fun b => b.phase == 13 || !b.ready.isSome || fresh b
    || !(blks.any fun q => fresh q && q.gid == b.gid && q.phase == b.phase && q.node == b.node && q.pod == b.pod)
  { d with col := { d.col with
    blks := blks
    sent := d.col.sent.filter fun s => s.part != p || decide (serialDiff now s.frame < 4) } }

/-- Remembers the hall time of START_CYCLE of each fold of a slice in the frame of its first attempt (R369). -/
def colFrame (d : Dev) (p i : Nat) (img : Image) (sl : Nat) (retry : Bool) : Dev :=
  (swmEntries img sl i).foldl (fun d e => match e.what with
    | .col false x =>
      let k := i * 65536 + e.index
      if retry && (smGet d.col.first k).isSome then d
      else { d with col := { d.col with first := smPut d.col.first k (cycleTime d p x.startCycle) } }
    | _ => d) d

/-! ## The meanings -/

/-- COL_SEND starts (R363). -/
def execColSend (i : Fin 2) (cycle : Nat) (x : ColOps) (s : State) : Host.Outcome State Fault Refusal :=
  onDev s fun d => colSend d i.val cycle x

/-- COL_FOLD starts (R364). -/
def execColFold (i : Fin 2) (cycle : Nat) (x : ColOps) (s : State) : Host.Outcome State Fault Refusal :=
  onDev s fun d => colFold d i.val cycle x

/-- A Swarm entry completes (R203). -/
def execSwarmEntryComplete (i : Fin 2) (id : Nat) (cycle : Nat) (s : State) : Host.Outcome State Fault Refusal :=
  onDev s fun d => swmComplete d i.val id cycle

/-- A landing packet arrives (R213, R214, R371). -/
def execLandPacketArrival (i : Fin 2) (k : LandPkt) (s : State) : Host.Outcome State Fault Refusal :=
  onDev s fun d => absorbing d [pSwm i.val] fun d => landArrive d i.val k

/-- A trailer arrives (R366). -/
def execTrailerArrival (i : Fin 2) (src : Peer) (pod : Nat) (groupId : Nat) (frame : Nat) (commit : Bool) (count : Nat)
    (s : State) : Host.Outcome State Fault Refusal :=
  onDev s fun d => absorbing d [pSwm i.val] fun d => trailerIn d src pod groupId frame commit count

/-- An owner sends a RESEND (R367). -/
def execResendRequest (i : Fin 2) (src : Peer) (pod : Nat) (groupId : Nat) (frame : Nat) (s : State) :
    Host.Outcome State Fault Refusal :=
  onDev s fun d => resendAsk d i.val src pod groupId frame

/-- A RESEND reaches its source (R367). -/
def execResendArrival (i : Fin 2) (src : Peer) (pod : Nat) (groupId : Nat) (frame : Nat) (ranges : List (Nat × Nat)) (s : State) :
    Host.Outcome State Fault Refusal :=
  onDev s fun d => absorbing d [pSwm i.val] fun d => resendServe d i.val src pod groupId frame ranges

/-- The agent asks after a collective's source (R367). -/
def execCollectiveSourceQuery (p : Fin 16) (src : Peer) (pod : Nat) (frame : Nat) (s : State) :
    Host.Outcome State Fault Refusal :=
  onDev s fun d => collectiveQuery d p.val src pod frame

end Sys2Proof.Machine
end

