-- ==== Sys2Proof/Machine/Brood.lean ====
section
/-! DEFINITION. The brood table (09): entries, ream builds, step boundaries and the operations that change the table. -/

namespace Sys2Proof.Machine

/-- A FREE entry (R231). -/
def BrdEnt.init : BrdEnt := ⟨0, 0, 0, 0, 0, 0, 0, 0, 0, 0, 0, 0, false, false⟩

/-- A brood entry. -/
def brdOf (d : Dev) (e : Nat) : BrdEnt := smGetD BrdEnt.init d.brd.table_ e

/-- Changes a brood entry. -/
def modBrd (d : Dev) (e : Nat) (g : BrdEnt → BrdEnt) : Dev :=
  { d with brd := { d.brd with table_ := smModD BrdEnt.init d.brd.table_ e g } }

/-- Frees a brood entry. -/
def freeBrd (d : Dev) (e : Nat) : Dev := { d with brd := { d.brd with table_ := smDel d.brd.table_ e } }

/-- The entries of a range, rising. -/
def brdRange (r : BroodRec) : List Nat := (List.range r.count).map (r.base + ·)

/-- A brood event (Table 09-9). -/
def brdEvent (d : Dev) (bit n : Nat) : Dev := events d pBrd Reg.BRD_EVENTS bit (Reg.BRD_EVT_FULL + 4 * bit) n

/-- Is a model slot ready (BRD_SLOT_READY)? -/
def slotReady (d : Dev) (m : Nat) : Bool := decide (m < 64) && rdB d pBrd Reg.BRD_SLOT_READY m

/-- PREFILL or DECODE by position (R229). -/
def phaseOf (position promptEnd : Nat) : Nat := if position < promptEnd then 2 else 3

/-- Effective priority (R236). -/
def effPrio (e : BrdEnt) (age : Nat) : Nat := min 7 (e.prio + if age = 0 then 0 else e.wait / age)

/-- The reams of a partition's step. -/
def reamsOf (d : Dev) (p : Nat) : List Ream := smGetD [] d.brd.reams p

/-- Is an entry taken in the partition's step? -/
def inStep (d : Dev) (p e : Nat) : Bool :=
  (brdOf d e).inStep || (reamsOf d p).any (fun r => r.taken.any fun t => t.1 == e)
    || d.brd.builds.any fun b => b.part == p && b.ream.taken.any fun t => t.1 == e

/-- Are both copies of an entry uncorrectable (R230)? -/
def brdGone (d : Dev) (e : Nat) : Bool :=
  match smGet d.brd.lost e with
  | some (a, b, _) => a && b
  | none => false

/-- Is an entry eligible for a class (R238)? One that is lost counts as FREE (R230). -/
def brdEligible (d : Dev) (p : Nat) (r : BroodRec) (k : ReamClass) (e : Nat) : Bool :=
  let x := brdOf d e
  !brdGone d e && x.modelSlot == r.slot && x.phase == k.phase && !inStep d p e && decide (x.position < x.kvLimit)

/-- The eligible entries of a class in the order in which they are taken (R238). -/
def eligibleOrder (d : Dev) (p : Nat) (r : BroodRec) (k : ReamClass) : List Nat :=
  sortBy (fun a b =>
    let x := brdOf d a
    let y := brdOf d b
    let pa := effPrio x k.ageStep
    let pb := effPrio y k.ageStep
    decide (pb < pa) || (pa == pb && (decide (x.admitSeq < y.admitSeq) || (x.admitSeq == y.admitSeq && decide (a < b)))))
    ((brdRange r).filter (brdEligible d p r k))

/-- Rows taken from each entry until the capacity is full (R238). -/
def takeRows (d : Dev) (k : ReamClass) : Nat → List Nat → List (Nat × Nat)
  | _, [] => []
  | row, e :: l =>
    let x := brdOf d e
    let n := min k.chunk (min (k.rCap - row) (x.kvLimit - x.position))
    let n := if k.phase = 2 then min n (x.promptEnd - x.position) else n
    if n = 0 then [] else (e, n) :: takeRows d k (row + n) l

/-- Rows of a ream. -/
def Ream.rows (r : Ream) : Nat := r.taken.foldl (fun n t => n + t.2) 0

/-- SRAM copies that have gone bad since the block last read them. -/
def brdBad (d : Dev) (l : List (Nat × Bool × Bool)) : Dev :=
  l.foldl (fun d e => { d with brd := { d.brd with
    lost := smModD (false, false, false) d.brd.lost e.1 fun q => (q.1 || e.2.1, q.2.1 || e.2.2, q.2.2) } }) d

/-- A read of the range finds uncorrectable copies: one is rewritten from the other; with both gone the entry is lost, which is
reported once (R230). The table itself does not change before the boundary (R232). -/
def brdScan (d : Dev) (r : BroodRec) : Dev :=
  (d.brd.lost.filter fun e => decide (r.base ≤ e.1) && decide (e.1 < r.base + r.count)).foldl (fun d e =>
    let x := brdOf d e.1
    if e.2.1 && e.2.2.1 then
      if e.2.2.2 then d
      else
        let d := brdEvent { d with brd := { d.brd with lost := smPut d.brd.lost e.1 (true, true, true) } } 4 1
        if x.phase = 0 then d else eventCpl d x.context 12 (leBytes 2 e.1)
    else
      let d := { d with brd := { d.brd with lost := smDel d.brd.lost e.1 } }
      if e.2.1 || e.2.2.1 then hdrEvent d pBrd .errCorr else d) d

/-- At the boundary the lost entries of the range are freed (R230, R232). -/
def brdFreeLost (d : Dev) (r : BroodRec) : Dev :=
  let l := (brdRange r).filter (brdGone d)
  let d := l.foldl freeBrd d
  { d with brd := { d.brd with lost := l.foldl smDel d.brd.lost } }

/-- Entries that have reached KV_LIMIT for the first time (R238): they are told at the boundary, the one point at which the table
changes (R232) (log entry 114, DEDUCED). -/
def brdKvFull (d : Dev) (r : BroodRec) : Dev :=
  ((brdRange r).filter fun e =>
    let x := brdOf d e
    (x.phase == 2 || x.phase == 3) && decide (x.kvLimit ≤ x.position) && !x.kvFull).foldl (fun d e =>
      brdEvent (eventCpl (modBrd d e fun x => { x with kvFull := true }) (brdOf d e).context 11 (leBytes 2 e)) 2 1) d

/-- Offsets of the ream buffer (Table 09-5): row descriptors, result words, end. -/
def reamOffsets (k : ReamClass) : Nat × Nat × Nat :=
  let rows := 0x40 + roundUp (4 * (k.rCap / k.tile)) 32
  let res := rows + 16 * k.rCap
  (rows, res, res + roundUp (4 * k.rCap) 32)

/-- The classes built in a slice, with their indices. -/
def buildsOf (r : BroodRec) (sl : Nat) : List (Nat × ReamClass) :=
  (r.classes.zipIdx.map fun e => (e.2, e.1)).filter fun e => e.2.buildSlice == sl

/-- The cycles of a build (R239). -/
def buildLen (r : BroodRec) (k : ReamClass) : Nat := 96 + ceilDiv r.count 16 + ceilDiv k.rCap 8

/-- The cycle in which a build starts: the later of START_CYCLE, the cycle after the block's previous build, of whichever partition,
and the cycle after its buffer is allocated (R197, R239). -/
def buildStart (d : Dev) (p : Nat) (k : ReamClass) (got : Nat) : Nat :=
  max (max k.startCycle (cycleAt d p (d.brd.free + 999))) (got + 1)

/-- A build starts, in ascending class (R238, R239); `bad` lists the copies that have gone bad since the block last read them. -/
def reamBuild (d : Dev) (p cls cycle : Nat) (bad : List (Nat × Bool × Bool)) : Dev :=
  let d := listsBy (brdBad d bad) p cycle
  match runImage d p with
  | none => d
  | some (_, _, img, sl) =>
    match img.brood with
    | none => d
    | some r =>
      match (buildsOf r sl).find? fun e => e.1 == cls, smGet (partOf d p).listGot ((r.classes.getD cls ⟨0, 0, 0, 0, 0, 0, 0, 0, 0, 0, false⟩).outRef) with
      | some (_, k), some (h, got) =>
        let mine := d.brd.builds.filter fun b => b.part == p
        let before := (buildsOf r sl).filter fun e => e.1 < cls
        let ofs := reamOffsets k
        if (mine.any fun b => b.cls == cls) || !(before.all fun e => mine.any fun b => b.cls == e.1 && b.done)
            || (d.brd.builds.any fun b => !b.done) || !inFrame d p cycle || (partOf d p).killNow.isSome
            || cycle ≠ buildStart d p k got then d
        else match handleOperand d p h 0 ofs.2.2 true with
          | .error (.check code) => checkFailed d p h true code
          | .error .range => d
          | .ok a =>
            let d := brdScan d r
            let order := eligibleOrder d p r k
            let taken := takeRows d k 0 order
            let ream : Ream := ⟨cls, taken, order.filter fun e => !(taken.any fun t => t.1 == e), h, ofs.2.1, frameNum d p, false⟩
            let due := cycle + buildLen r k - 1
            { d with brd := { d.brd with builds := d.brd.builds ++ [⟨p, cls, due, false, ream, a⟩] } }
      | _, _ => d

/-- A row descriptor (Table 09-6). -/
def rowDesc (d : Dev) (e seqK pos : Nat) (first last : Bool) : List Byte :=
  leBytes 2 (e + 2 ^ 15) ++ leBytes 2 seqK ++ leBytes 4 pos ++ leBytes 4 (brdOf d e).kvHandle
    ++ leBytes 1 (b2n first + 2 * b2n last) ++ leBytes 3 0

/-- The bytes of a ream but its result words (Table 09-5). -/
def reamBytes (d : Dev) (p : Nat) (r : BroodRec) (k : ReamClass) (m : Ream) : List Byte :=
  let rows := m.rows
  let head := leBytes 4 (smGetD 0 d.brd.steps p) ++ leBytes 2 rows ++ leBytes 2 m.taken.length ++ leBytes 1 r.slot
    ++ leBytes 1 k.phase ++ leBytes 1 m.cls ++ leBytes 1 0 ++ leBytes 2 m.frame
  let live := (List.range (k.rCap / k.tile)).flatMap fun u => leBytes 4 (min k.tile (rows - k.tile * u))
  let descs := m.taken.zipIdx.flatMap fun t => (List.range t.1.2).flatMap fun i =>
    rowDesc d t.1.1 t.2 ((brdOf d t.1.1).position + i) (i == 0) (i + 1 == t.1.2)
  sliceBytes head 0 0x40 ++ sliceBytes live 0 (roundUp (4 * (k.rCap / k.tile)) 32) ++ sliceBytes descs 0 (16 * k.rCap)

/-- A build completes: the ream is written, counted, and its NOTIFY tag advances (R239). -/
def reamComplete (d : Dev) (p cls cycle : Nat) : Dev :=
  match runImage d p, d.brd.builds.find? fun b => b.part == p && b.cls == cls && !b.done with
  | some (_, _, img, _), some b =>
    match img.brood with
    | none => d
    | some r =>
      match r.classes[cls]? with
      | none => d
      | some k =>
        if cycle ≠ b.due ∨ !inFrame d p cycle then d
        else
          let d := engWrite d p pBrd cls cycle b.addr (reamBytes d p r k b.ream)
          let d := bump (bump d pBrd Reg.BRD_REAMS 1) pBrd Reg.BRD_ROWS b.ream.rows
          let d := { d with brd := { d.brd with
            free := momentOf d p (b.due + 1)
            builds := d.brd.builds.map fun q => if q.part = p ∧ q.cls = cls then { q with done := true } else q } }
          if k.notifyEn then
            notify d p k.notifySlot k.notifyTag cycle (if k.startCycle + buildLen r k ≤ cycle then causeTier else 0) else d
  | _, _ => d

/-- Is the brood block done with a partition's slice (R239)? -/
def brdDone (d : Dev) (p : Nat) : Bool :=
  match runImage d p with
  | some (_, _, img, sl) =>
    (match img.brood with
    | some r => (buildsOf r sl).all fun e => d.brd.builds.any fun b => b.part == p && b.cls == e.1 && b.done
    | none => true)
  | none => true

/-- At the tick that ends a frame its builds join the step when it committed, and are forgotten when it did not (R232). -/
def brdTick (d : Dev) (p : Nat) (committed : Bool) : Dev :=
  let mine := if committed then (d.brd.builds.filter fun b => b.part == p && b.done).map fun b => { b.ream with ok := true } else []
  let d := mine.foldl (fun d r => r.taken.foldl (fun d t => modBrd d t.1 fun x => { x with inStep := true }) d) d
  { d with brd := { d.brd with
    builds := d.brd.builds.filter fun b => b.part != p
    reams := if mine.isEmpty then d.brd.reams else smPut d.brd.reams p (reamsOf d p ++ mine) } }

/-! ## Results (R240) -/

/-- Applies the result of one sequence. -/
def applySeq (d : Dev) (m : Ream) (seq e rows : Nat) : Dev :=
  let w := engLe d (bufAddr d.vat m.handle + m.result + 4 * seq) 4
  let bad := decide (1 < w)
  let d := if bad then brdEvent d 3 1 else d
  let d := modBrd d e fun x =>
    let pos := x.position + rows
    { x with position := pos, wait := 0, phase := if x.phase = 2 ∧ x.promptEnd ≤ pos then 3 else x.phase }
  let x := brdOf d e
  if x.phase = 3 ∧ ((w = 1) ∨ x.stopAt ≤ x.position) then
    eventCpl (freeBrd d e) x.context 9 (leBytes 2 e ++ leBytes 4 x.position ++ leBytes 4 x.kvHandle)
  else d

/-- Applies the results of one ream: its sequences, then the eligible entries that it did not take age (R240). -/
def applyReam (d : Dev) (m : Ream) : Dev :=
  let d := m.taken.zipIdx.foldl (fun d t => applySeq d m t.2 t.1.1 t.1.2) d
  m.passed.foldl (fun d e =>
    if (brdOf d e).phase = 0 then d else modBrd d e fun x => { x with wait := min 65535 (x.wait + 1) }) d

/-- Applies the results of the step's reams, in class order (R240). -/
def applyReams (d : Dev) (p : Nat) : Dev :=
  (sortBy (fun a b => decide (a.cls < b.cls)) (reamsOf d p)).foldl applyReam d

/-! ## Operations (R233 to R235) -/

/-- The next ADMIT_SEQ of a partition; the live entries are renumbered before it would pass 32 bits (R235). -/
def nextAdmit (d : Dev) (p : Nat) (r : BroodRec) : Dev × Nat :=
  let n := smGetD 0 d.brd.admits p
  if n < 2 ^ 32 then ({ d with brd := { d.brd with admits := smPut d.brd.admits p (n + 1) } }, n)
  else
    let live := sortBy (fun a b => decide ((brdOf d a).admitSeq < (brdOf d b).admitSeq))
      ((brdRange r).filter fun e => (brdOf d e).phase != 0)
    let d := live.zipIdx.foldl (fun d e => modBrd d e.1 fun x => { x with admitSeq := e.2 }) d
    ({ d with brd := { d.brd with admits := smPut d.brd.admits p (live.length + 1) } }, live.length)

/-- AGE_STEP of an entry: that of the first class of its phase (R236). -/
def ageOf (r : BroodRec) (phase : Nat) : Nat := ((r.classes.find? fun k => k.phase == phase).map ReamClass.ageStep).getD 0

/-- The victim of an ADMIT with EVICT_EN (R234). -/
def victim (d : Dev) (r : BroodRec) (prio : Nat) : Option Nat :=
  let eff := fun (e : Nat) => effPrio (brdOf d e) (ageOf r (brdOf d e).phase)
  (sortBy (fun a b =>
    let sa := (brdOf d a).admitSeq
    let sb := (brdOf d b).admitSeq
    decide (eff a < eff b) || (eff a == eff b && (decide (sb < sa) || (sa == sb && decide (b < a)))))
    ((brdRange r).filter fun e => (brdOf d e).phase != 0 && decide (eff e < prio))).head?

/-- Completes a brood operation. -/
def brdReply (d : Dev) (q : BrdReq) (opcode status : Nat) (res : List Byte) : Dev := ctxCpl d q.ctx opcode status q.tag res

/-- Writes an admitted entry. -/
def admitAt (d : Dev) (p : Nat) (r : BroodRec) (ctx e : Nat) (seqId : W64) (kv kvLimit pos promptEnd stopAt slot prio : Nat) : Dev :=
  let n := nextAdmit d p r
  modBrd n.1 e fun _ => ⟨seqId, kv, kvLimit, pos, promptEnd, stopAt, n.2, slot,
    if slotReady d slot then phaseOf pos promptEnd else 1, prio, ctx, 0, false, false⟩

/-- Does a KV_HANDLE pass the Vat manager's check? A failure is recorded (R299). -/
def kvOk (d : Dev) (p h : Nat) : Dev × Bool :=
  let code := handleCode d p h 0 false
  if code = 0 then (d, true) else (checkFailed d p h false code, false)

/-- Applies one brood operation at the boundary (Table 09-3). -/
def applyBrd (d : Dev) (p : Nat) (r : BroodRec) (q : BrdReq) : Dev :=
  let named := fun (seqId : W64) (e : Nat) =>
    decide (r.base ≤ e) && decide (e < r.base + r.count) && (brdOf d e).phase != 0 && (brdOf d e).seqId == seqId
  match q.op with
  | .admitSeq seqId kv kvLimit pos promptEnd stopAt slot prio evict =>
    let ok := kvOk d p kv
    let d := ok.1
    if kvLimit < pos ∨ stopAt < promptEnd ∨ 7 < prio ∨ !ok.2 then brdReply d q 0x10 2 []
    else if (smGet d.host.slots slot).isNone then brdReply d q 0x10 10 []
    else match (brdRange r).find? fun e => (brdOf d e).phase == 0 with
      | some e =>
        brdReply (admitAt d p r q.ctx e seqId kv kvLimit pos promptEnd stopAt slot prio) q 0x10 0 (leBytes 2 e)
      | none =>
        match (if evict then victim d r prio else none) with
        | some e =>
          let x := brdOf d e
          let d := brdEvent (freeBrd d e) 1 1
          let d := eventCpl d x.context 10 (leBytes 2 e ++ leBytes 4 x.position ++ leBytes 4 x.kvHandle)
          let d := admitAt d p r q.ctx e seqId kv kvLimit pos promptEnd stopAt slot prio
          brdReply d q 0x10 9 (leBytes 2 e ++ leBytes 4 x.position ++ leBytes 4 x.kvHandle)
        | none => brdReply (brdEvent d 0 1) q 0x10 8 []
  | .update seqId e mask kv kvLimit stopAt prio =>
    if !named seqId e then brdReply d q 0x11 7 []
    else
      let x := brdOf d e
      let has := bitAt mask
      let lim := if has 1 then kvLimit else x.kvLimit
      let stop := if has 2 then stopAt else x.stopAt
      let ok := if has 0 then kvOk d p kv else (d, true)
      let d := ok.1
      if mask = 0 ∨ 15 < mask ∨ (has 3 ∧ 7 < prio) ∨ lim < x.position ∨ stop < x.promptEnd ∨ stop ≤ x.position
          ∨ !ok.2 then brdReply d q 0x11 2 []
      else
        brdReply (modBrd d e fun x => { x with
          kvHandle := if has 0 then kv else x.kvHandle
          kvLimit := lim, stopAt := stop
          prio := if has 3 then prio else x.prio
          kvFull := x.kvFull && !(has 1 && decide (x.position < lim)) }) q 0x11 0 []
  | .hold seqId e =>
    if !named seqId e then brdReply d q 0x12 7 []
    else brdReply (modBrd d e fun x => { x with phase := 4 }) q 0x12 0 []
  | .resume seqId e =>
    if !named seqId e then brdReply d q 0x13 7 []
    else if (brdOf d e).phase ≠ 4 then brdReply d q 0x13 2 []
    else brdReply (modBrd d e fun x => { x with phase := phaseOf x.position x.promptEnd }) q 0x13 0 []
  | .remove seqId e =>
    if !named seqId e then brdReply d q 0x14 7 []
    else
      let x := brdOf d e
      brdReply (freeBrd d e) q 0x14 0 (leBytes 4 x.position ++ leBytes 4 x.kvHandle)

/-- Queues a brood operation until its step boundary (R232, R384). -/
def queueBrd (d : Dev) (p : Nat) (q : BrdReq) : Dev :=
  { d with brd := { d.brd with queue := smPut d.brd.queue p (smGetD [] d.brd.queue p ++ [q]) } }

/-- A step boundary of a partition, in the order of R232; entries of closed contexts are freed (R385) (log entry 79, DEDUCED).
`stepped` says that a step has ended here, which the step count counts. -/
def stepBoundary (d : Dev) (p : Nat) (r : BroodRec) (stepped : Bool) : Dev :=
  let d := applyReams (brdFreeLost (brdScan d r) r) p
  let q := smGetD [] d.brd.queue p
  let d := { d with brd := { d.brd with
    queue := smDel d.brd.queue p, reams := smDel d.brd.reams p, steps := if stepped then smModD 0 d.brd.steps p fun n => (n + 1) % 2 ^ 32 else d.brd.steps } }
  let d := ((brdRange r).filter fun e => (brdOf d e).phase != 0 && decide ((ctxOf d (brdOf d e).context).state = .free)).foldl freeBrd d
  let d := q.foldl (fun d x => applyBrd d p r x) d
  let d := (brdRange r).foldl (fun d e =>
    let x := brdOf d e
    if x.phase = 0 then d
    else modBrd d e fun x =>
      { x with phase := if x.phase = 1 ∧ slotReady d x.modelSlot then phaseOf x.position x.promptEnd else x.phase, inStep := false }) d
  let d := brdKvFull d r
  { d with brd := { d.brd with shown := (brdRange r).foldl (fun m e => smPutD BrdEnt.init m e (brdOf d e)) d.brd.shown } }

/-- The highest effective priority of an eligible entry of an image's classes; none when no entry is eligible (R241). -/
def bestEff (d : Dev) (p : Nat) (r : BroodRec) : Option Nat :=
  (r.classes.flatMap fun k => ((brdRange r).filter (brdEligible d p r k)).map fun e => effPrio (brdOf d e) k.ageStep).foldl
    (fun acc n => some (max n (acc.getD 0))) none

/-- An entry as the window shows it (Table 09-1). -/
def brdBytes (x : BrdEnt) : List Byte :=
  sliceBytes (leBytes 8 x.seqId.toNat ++ leBytes 4 x.kvHandle ++ leBytes 4 x.kvLimit ++ leBytes 4 x.position ++ leBytes 4 x.promptEnd
    ++ leBytes 4 x.stopAt ++ leBytes 4 x.admitSeq ++ leBytes 1 x.modelSlot ++ leBytes 1 x.phase ++ leBytes 1 x.prio
    ++ leBytes 1 x.context ++ leBytes 2 x.wait ++ leBytes 2 (b2n x.inStep + 2 * b2n x.kvFull)) 0 64

/-! ## The meanings -/

/-- REAM_BUILD (R238). -/
def execReamBuild (p : Fin 16) (cls : Fin 8) (x : ReamAt) (s : State) : Host.Outcome State Fault Refusal :=
  onDev s fun d => reamBuild d p.val cls.val x.cycle (x.bad.map fun e => (e.1.val, e.2))

/-- REAM_BUILD_COMPLETE (R239). -/
def execReamBuildComplete (p : Fin 16) (cls : Fin 8) (cycle : Nat) (s : State) : Host.Outcome State Fault Refusal :=
  onDev s fun d => reamComplete d p.val cls.val cycle

end Sys2Proof.Machine
end

