-- ==== Sys2Proof/Machine/Convert.lean ====
section
/-! DEFINITION. What the entries of the Foragers move: MX conversions (05 R137), block-sparse objects (06 R156 to R160), gathers
(06 R166) and KV rows (10 R272). -/

namespace Sys2Proof.Machine

/-! ## Conversions (R137, R160, R271) -/

/-- Element `n` of packed `w`-bit elements. -/
def rawElem (l : List Byte) (w n : Nat) : Nat :=
  if w = 4 then nbits (l.getD (n / 2) 0).toNat (4 * (n % 2) + 3) (4 * (n % 2)) else leAt l (w / 8 * n) (w / 8)

/-- Element width of an MX kind that the device converts. -/
def mxWidth (kind : Nat) : Option Nat := if kind = 1 ∨ kind = 2 ∨ kind = 4 then some 8 else if kind = 3 then some 4 else none

/-- Imports an E8M0 scale: E × 256 + M. -/
def mxImport (kind x : Nat) : Nat :=
  if x = 255 then 255 * 256 + 128
  else
    let e : Int := if kind = 4 then (x : Int) - 6 else x
    if 0 ≤ e then e.toNat * 256 + 128 else 2 ^ (e + 7).toNat

/-- Exports a scale: none is a format error. -/
def mxExport (kind sc : Nat) : Option Nat :=
  let e := sc / 256 % 256
  let m := sc % 256
  if e = 255 then some 255
  else if m = 0 then none
  else
    let p := Nat.log2 m
    let x : Int := (e : Int) + p - (if kind = 4 then 1 else 7)
    if 2 ^ p = m ∧ 0 ≤ x ∧ x ≤ 254 then some x.toNat else none

/-- Bytes of the elements of one group of 32 steps of 128 lanes, and of its MX scales (log entry 36, DEDUCED). -/
def mxGroup (w : Nat) : Nat × Nat := (512 * w, 128)

/-! ## Block-sparse objects (06 R156 to R158) -/

/-- A block-sparse object with its header read (Table 06-8); the offsets are device offsets. -/
structure Sparse where
  form   : Nat
  w      : Nat                 -- element width
  rows   : Nat
  cols   : Nat
  nOfM   : Bool
  n      : Nat
  m      : Nat
  dd     : Nat                 -- D
  trans  : Bool                -- TRANSPOSE_PRESENT
  bytes  : Nat                 -- BLOCK_BYTES
  blocks : Nat                 -- PRESENT
  bitmap : Nat
  rank   : Nat
  data   : Nat

/-- Bytes of a block's bitmaps, and of its payload (Table 06-9). -/
def Sparse.maps (f : Sparse) : Nat :=
  if f.form = 0 then 0 else if f.form = 3 then 32 else if f.trans then 4096 else 2048

/-- Bytes of a block's slot vectors. -/
def Sparse.slotBytes (f : Sparse) : Nat := if f.form = 0 then 2048 * f.w else 16 * f.w * f.dd

/-- Bytes of a dense block. -/
def Sparse.dense (f : Sparse) : Nat := 2048 * f.w

/-- The header at an address; none when it is none of R156, or its payload does not fit BLOCK_BYTES. -/
def sparseAt (d : Dev) (a : Nat) : Option Sparse :=
  let at_ := fun (o n : Nat) => engLe d (a + o) n
  let form := at_ 7 1
  let decl := at_ 0x10 1
  let n := nbits decl 4 0
  let m := mOf (nbits decl 6 5)
  let f : Sparse := ⟨form, fmtWidth (at_ 6 1), at_ 8 4, at_ 0xC 4, form == 1, n, m, if form = 1 then n * 128 / m else nbits decl 6 0 + 1,
    bitAt (at_ 0x12 2) 0, at_ 0x14 4, at_ 0x18 4, a + at_ 0x20 8, a + at_ 0x28 8, a + at_ 0x30 8⟩
  if at_ 0 4 ≠ 0x42535042 ∨ at_ 4 2 ≠ 1 ∨ 3 < form ∨ f.w = 0 ∨ f.rows = 0 ∨ f.cols = 0 ∨ 2 ≤ at_ 0x12 2 ∨ f.bytes % 32 ≠ 0
      ∨ at_ 0x1C 4 ≠ 0 ∨ at_ 0x38 8 ≠ 0 ∨ f.bytes < f.maps + f.slotBytes then none
  else some f

/-- Word `x` of the block bitmap. -/
def Sparse.word (f : Sparse) (d : Dev) (x : Nat) : Nat := engLe d (f.bitmap + 8 * x) 8

/-- Is block `n` present (R157)? -/
def Sparse.present (f : Sparse) (d : Dev) (n : Nat) : Bool := decide (n < f.rows * f.cols) && bitAt (f.word d (n / 64)) (n % 64)

/-- The rank of a present block (R157). -/
def Sparse.rankOf (f : Sparse) (d : Dev) (n : Nat) : Nat :=
  engLe d (f.rank + 4 * (n / 64)) 4 + popBits (f.word d (n / 64)) (n % 64)

/-- The device offset of the present block of a rank. -/
def Sparse.block (f : Sparse) (r : Nat) : Nat := f.data + r * f.bytes

/-- The present block of a rank, by its number. -/
def Sparse.ofRank (f : Sparse) (d : Dev) (r : Nat) : Option Nat :=
  (List.range (f.rows * f.cols)).find? fun n => f.present d n && f.rankOf d n == r

/-- The steps that a block in lane form keeps for a lane, from the bitmaps at its start (R148). -/
def Sparse.keep (f : Sparse) (d : Dev) (at_ l : Nat) : Nat := keepDecl f.nOfM f.n f.m f.dd (engLe d (at_ + 16 * l) 16)

/-- Packs a dense 128 × 128 block against the mask's block at an address: its D slot vectors (R160). -/
def packBlock (d : Dev) (f : Sparse) (at_ : Nat) (dense : List Byte) : List Byte :=
  packElems f.w ((List.range f.dd).flatMap fun c => (List.range 128).map fun l =>
    let ka := f.keep d at_ l
    match (List.range 128).find? fun t => bitAt ka t && aSlot f.nOfM f.n f.m ka t == c with
    | some t => rawElem dense f.w (128 * t + l)
    | none => 0)

/-- Unpacks D slot vectors into a dense block (R160). -/
def unpackBlock (d : Dev) (f : Sparse) (at_ : Nat) (slots : List Byte) : List Byte :=
  packElems f.w ((List.range 128).flatMap fun t => (List.range 128).map fun l =>
    let ka := f.keep d at_ l
    if bitAt ka t then rawElem slots f.w (128 * aSlot f.nOfM f.n f.m ka t + l) else 0)

/-! ## What an entry moves (Table 10-5, R271, R272) -/

/-- The buffers of an entry: handles and device offsets of byte 0, 0 for none. -/
structure FgrBufs where
  src  : Nat
  dst  : Nat
  aux  : Nat
  hDst : Nat

/-- What an entry reads, writes, skips; why it fails, as code, subcode and the handle, code 0 for no failure. -/
structure FgrPlan where
  reads  : List (Nat × Nat)
  writes : List (Nat × List Byte)
  hand   : List Nat            -- handle of each write
  skip   : Nat
  trunc  : Nat
  absent : Nat                 -- absent blocks named
  checks : List (Nat × Nat)    -- handles that failed a check, with the code (R299)
  code   : Nat
  sub    : Nat
  bad    : Option Nat

/-- A plan that moves one run of bytes and more. -/
def FgrPlan.move (reads : List (Nat × Nat)) (writes : List (Nat × List Byte)) (h : Nat) : FgrPlan :=
  ⟨reads, writes, [h], 0, 0, 0, [], 0, 0, none⟩

/-- A plan that fails with a format error (R137, R160). -/
def FgrPlan.format : FgrPlan := ⟨[], [], [], 0, 0, 0, [], 3, 0, none⟩

/-- The object that a buffer reference names, and its descriptor. -/
def refDesc (d : Dev) (p : Nat) (img : Image) (ref : Nat) : Desc :=
  match img.bufList[ref]? with
  | some b => if b.mode = 0 then Desc.init else descOf d p b.object
  | none => Desc.init

/-- MX blocks to one device group of the scale array that an export reads: 1, 2 or 4. Nothing in an entry says which group size the
array has (log entry 124, DESIGN CHOICE). -/
def groupBlocks (p ref : Nat) : Nat := 2 ^ (Config.exportGroup p ref % 3)

/-- MX groups of an import or export, and bytes of the device scale array. -/
def mxSizes (p : Nat) (e : FgrEntry) (w : Nat) : Nat × Nat :=
  if e.convert.val = 1 then
    let n := e.length / ((mxGroup w).1 + (mxGroup w).2)
    (n, 32 + 256 * n)
  else
    let n := e.length / (mxGroup w).1
    (n, 32 + 256 * ceilDiv n (groupBlocks p e.auxRef))

/-- A block that a pack or unpack names: its number, the offset of its packed form, and of its dense form, from where the entry
points. -/
structure PackBlock where
  n      : Nat
  packed : Nat
  dense  : Nat

/-- The blocks that an entry packs or unpacks, and how many absent ones it names. A dense object holds block n at n dense blocks; a packed
one holds its stored form (LAYOUT 1), present blocks by rank, or bare slot vectors of every block (log entry 125, DESIGN CHOICE). -/
def packBlocks (d : Dev) (f : Sparse) (a : Nat) (stored pack : Bool) (off length : Nat) : List PackBlock × Nat :=
  let size := if pack then f.dense else if stored then f.bytes else f.slotBytes
  let count := length / max 1 size
  if pack || !stored then
    let n0 := off / max 1 size
    let l := (List.range count).filter fun k => f.present d (n0 + k)
    let r0 := (l.head?.map fun k => f.rankOf d (n0 + k)).getD 0
    (l.map fun k => ⟨n0 + k, if stored then (f.rankOf d (n0 + k) - r0) * f.bytes else k * f.slotBytes, k * f.dense⟩, count - l.length)
  else
    let r0 := (off - (f.data - a)) / f.bytes
    let l := (List.range count).filterMap fun k => (f.ofRank d (r0 + k)).map fun n => (n, k)
    let n0 := (l.head?.map Prod.fst).getD 0
    (l.map fun e => ⟨e.1, e.2 * f.bytes, (e.1 - n0) * f.dense⟩, count - l.length)

/-- A stored block: the mask's bitmaps, the slot vectors, zeros to BLOCK_BYTES (R158). -/
def storedBlock (d : Dev) (f : Sparse) (at_ : Nat) (slots : List Byte) : List Byte :=
  sliceBytes (engBytes d at_ f.maps ++ slots) 0 f.bytes

/-- The object of a pack or unpack that carries PACK, its own object at the packed end, and whether that end is stored form; none where
an end has group scales (R160, R271). -/
def packEnds (d : Dev) (p : Nat) (img : Image) (e : FgrEntry) : Option (Desc × Bool) :=
  let packed := refDesc d p img (if e.convert.val = 3 then e.dstRef else e.srcRef)
  let dense := refDesc d p img (if e.convert.val = 3 then e.srcRef else e.dstRef)
  let ds := if packed.pack then packed else dense
  if !ds.pack || packed.layout == 2 || dense.layout == 2 then none else some (ds, packed.layout == 1)

/-- The mask of a pack or unpack: its device offset and header, once its handle passes the checks. -/
def maskOf (d : Dev) (p : Nat) (ds : Desc) : Except (Nat × Nat × Option Nat) (Nat × Sparse) :=
  let h := smGetD 0 (partOf d p).objects ds.maskObject
  match handleOperand d p h 0 64 false with
  | .error (.check c) => .error (1, c, some h)
  | .error .range => .error (2, 0, none)
  | .ok a => match sparseAt d a with
    | some f => if f.form = 1 ∨ f.form = 2 then .ok (a, f) else .error (3, 0, none)
    | none => .error (3, 0, none)

/-- FETCH and WRITE that pack or unpack (R160). -/
def planPack (d : Dev) (p : Nat) (img : Image) (e : FgrEntry) (b : FgrBufs) : FgrPlan :=
  match packEnds d p img e with
  | none => .format
  | some (ds, stored) =>
    match maskOf d p ds with
    | .error (code, sub, bad) => { FgrPlan.format with code := code, sub := sub, bad := bad }
    | .ok (a, f) =>
      let pack := decide (e.convert.val = 3)
      let q := packBlocks d f a stored pack e.srcOffset e.length
      let rows := q.1.map fun k =>
        let mask := f.block (f.rankOf d k.n)
        let from_ := b.src + e.srcOffset + if pack then k.dense else k.packed + if stored then f.maps else 0
        let n := if pack then f.dense else f.slotBytes
        let l := engBytes d from_ n
        let out := if !pack then unpackBlock d f mask l
          else if stored then storedBlock d f mask (packBlock d f mask l) else packBlock d f mask l
        (([(from_, n), (mask, f.maps)] : List (Nat × Nat)), (b.dst + e.dstOffset + if pack then k.packed else k.dense, out))
      { FgrPlan.move (rows.flatMap Prod.fst) (rows.map Prod.snd) b.hDst with absent := q.2 }

/-- FETCH and WRITE, with their conversions (R137, R271). -/
def planMove (d : Dev) (p : Nat) (img : Image) (e : FgrEntry) (b : FgrBufs) : FgrPlan :=
  let a := b.src + e.srcOffset
  let o := b.dst + e.dstOffset
  let x := b.aux + e.auxOffset
  match e.convert.val with
  | 0 => .move [(a, e.length)] [(o, engBytes d a e.length)] b.hDst
  | 1 =>
    let ds := refDesc d p img e.srcRef
    match (if ds.layout = 2 then mxWidth ds.mxKind else none) with
    | none => .format
    | some w =>
      let g := mxGroup w
      let n := (mxSizes p e w).1
      let scales := (List.range (n * 128)).flatMap fun k => leBytes 2 (mxImport ds.mxKind (engByte d (a + n * g.1 + k)).toNat)
      .move [(a, e.length)] [(o, engBytes d a (n * g.1)), (x, leBytes 1 e.base ++ leBytes 31 0 ++ scales)] b.hDst
  | 2 =>
    let ds := refDesc d p img e.dstRef
    match (if ds.layout = 2 then mxWidth ds.mxKind else none) with
    | none => .format
    | some w =>
      let n := mxSizes p e w
      let k := groupBlocks p e.auxRef
      let xs := (List.range (n.1 * 128)).map fun j => mxExport ds.mxKind (engLe d (x + 32 + 2 * (j / 128 / k * 128 + j % 128)) 2)
      if xs.any Option.isNone then .format
      else .move [(a, e.length), (x, n.2)] [(o, engBytes d a e.length ++ xs.map fun v => BitVec.ofNat 8 (v.getD 0))] b.hDst
  | _ => planPack d p img e b

/-- GATHER: rows of the neurons that each segment's bitmap selects, in slots of K_SEG (R166). -/
def planGather (d : Dev) (e : FgrEntry) (b : FgrBufs) : FgrPlan :=
  let rows := (List.range (e.length / 128)).map fun g =>
    (g, (setBits (engLe d (b.aux + e.auxOffset + 16 * g) 16) 128).take e.count)
  let at_ := fun (n : Nat) => b.src + e.srcOffset + n * e.rowBytes
  let out := rows.flatMap fun r => sliceBytes (r.2.flatMap fun n => engBytes d (at_ (128 * r.1 + n)) e.rowBytes) 0 (e.count * e.rowBytes)
  ⟨(b.aux + e.auxOffset, 16 * (e.length / 128)) :: rows.flatMap fun r => r.2.map fun n => (at_ (128 * r.1 + n), e.rowBytes),
    [(b.dst + e.dstOffset, out)], [b.hDst], 0, 0, 0, [], 0, 0, none⟩

/-- A row of a ream as the KV kinds read it. -/
structure ReamRow where
  seqK  : Nat
  pos   : Nat
  kv    : Nat
  first : Bool

/-- ROWS, SEQS and the live rows of a ream buffer (Tables 09-5, 09-6). -/
def reamRows (d : Dev) (img : Image) (a : Nat) : Nat × Nat × List ReamRow :=
  let rows := engLe d (a + 4) 2
  let k := (img.brood.bind fun r => r.classes[engLe d (a + 10) 1]?).getD ⟨0, 32, 0, 0, 0, 0, 0, 0, 0, 0, false⟩
  let base := a + 0x40 + roundUp (4 * (k.rCap / k.tile)) 32
  (rows, engLe d (a + 6) 2, (List.range (min rows k.rCap)).map fun r =>
    let x := base + 16 * r
    ⟨engLe d (x + 2) 2 % 8192, engLe d (x + 4) 4, engLe d (x + 8) 4, engLe d (x + 12) 1 % 2 == 1⟩)

/-- Bytes of a ream buffer up to its result words. -/
def reamSize (d : Dev) (img : Image) (a : Nat) : Nat :=
  let k := (img.brood.bind fun r => r.classes[engLe d (a + 10) 1]?).getD ⟨0, 32, 0, 0, 0, 0, 0, 0, 0, 0, false⟩
  0x40 + roundUp (4 * (k.rCap / k.tile)) 32 + 16 * k.rCap

/-- A KV row's place: the device offset of position `q`, when the handle passes the checks and lies in Tier H; else the code of the check
that fails, 0 for none (R272, R299). -/
def kvPlace (d : Dev) (p h q rowBytes : Nat) (write : Bool) : Except Nat Nat :=
  match handleOperand d p h (q * rowBytes) rowBytes write with
  | .error (.check c) => .error c
  | .error .range => .error 0
  | .ok a => if poolTier (hPool h) = 1 then .ok a else .error 0

/-- The failed check of a row, for the record. -/
def kvCheck (h : Nat) : Except Nat Nat → List (Nat × Nat)
  | .error c => if c = 0 then [] else [(h, c)]
  | .ok _ => []

/-- What KV_READ does for one sequence: reads, the bytes of its slots, skipped, truncated, failed checks. -/
structure KvSeq where
  reads  : List (Nat × Nat)
  bytes  : List Byte
  skip   : Nat
  trunc  : Nat
  checks : List (Nat × Nat)

/-- KV_READ of one sequence (R272): positions max(0, P − LENGTH) to P − 1, in slots from 0, zeros in the others. -/
def kvSeq (d : Dev) (p : Nat) (e : FgrEntry) (rows : List ReamRow) (k seqs : Nat) : KvSeq :=
  let n := e.length * e.rowBytes
  match (if k < seqs then rows.find? fun r => r.first && r.seqK == k else none) with
  | none => ⟨[], List.replicate n 0, 0, 0, []⟩
  | some r =>
    let lo := r.pos - e.length
    let places := (List.range (r.pos - lo)).map fun q => kvPlace d p r.kv (lo + q) e.rowBytes false
    match places.find? fun x => match x with | .ok _ => false | .error _ => true with
    | some x => ⟨[], List.replicate n 0, 1, 0, kvCheck r.kv x⟩
    | none =>
      let as := places.filterMap Except.toOption
      ⟨as.map fun a => (a, e.rowBytes), sliceBytes (as.flatMap fun a => engBytes d a e.rowBytes) 0 n, 0, b2n (decide (e.length < r.pos)), []⟩

/-- KV_READ (R272). -/
def planKvRead (d : Dev) (p : Nat) (img : Image) (e : FgrEntry) (b : FgrBufs) : FgrPlan :=
  let ream := b.aux + e.auxOffset
  let rr := reamRows d img ream
  let parts := (List.range e.count).map fun k => kvSeq d p e rr.2.2 k rr.2.1
  ⟨(ream, reamSize d img ream) :: parts.flatMap KvSeq.reads, [(b.dst + e.dstOffset, parts.flatMap KvSeq.bytes)], [b.hDst],
    parts.foldl (fun n x => n + x.skip) 0, parts.foldl (fun n x => n + x.trunc) 0 + (rr.2.1 - e.count), 0, parts.flatMap KvSeq.checks,
    0, 0, none⟩

/-- KV_WRITE (R272). -/
def planKvWrite (d : Dev) (p : Nat) (img : Image) (e : FgrEntry) (b : FgrBufs) : FgrPlan :=
  let ream := b.aux + e.auxOffset
  let rr := reamRows d img ream
  let rows := (rr.2.2.take e.count).zipIdx.map fun r =>
    (b.src + e.srcOffset + r.2 * e.rowBytes, r.1.kv, kvPlace d p r.1.kv r.1.pos e.rowBytes true)
  let good := rows.filterMap fun r => r.2.2.toOption.map fun a => (r.1, r.2.1, a)
  ⟨(ream, reamSize d img ream) :: good.map fun r => (r.1, e.rowBytes),
    good.map fun r => (r.2.2, engBytes d r.1 e.rowBytes), good.map fun r => r.2.1,
    rows.length - good.length, 0, 0, rows.flatMap fun r => kvCheck r.2.1 r.2.2, 0, 0, none⟩

/-- The plan of an entry of a kind. -/
def fgrPlan (d : Dev) (p : Nat) (img : Image) (kind : Nat) (e : FgrEntry) (b : FgrBufs) : FgrPlan :=
  match kind with
  | 3 => planGather d e b
  | 4 => planKvRead d p img e b
  | 5 => planKvWrite d p img e b
  | 6 => .move [] [] 0
  | _ => planMove d p img e b

/-- M of a FETCH or WRITE: the larger of bytes read and bytes written (Table 10-5, R271). -/
def moveSize (d : Dev) (p : Nat) (img : Image) (e : FgrEntry) : Nat :=
  match e.convert.val with
  | 0 => e.length
  | 1 =>
    let w := (mxWidth (refDesc d p img e.srcRef).mxKind).getD 8
    let n := mxSizes p e w
    max e.length (n.1 * (mxGroup w).1 + n.2)
  | 2 =>
    let w := (mxWidth (refDesc d p img e.dstRef).mxKind).getD 8
    let n := mxSizes p e w
    max (e.length + n.2) (e.length + 128 * n.1)
  | c =>
    match packEnds d p img e with
    | none => e.length
    | some (ds, stored) =>
      match maskOf d p ds with
      | .error _ => e.length
      | .ok (a, f) =>
        let n := (packBlocks d f a stored (decide (c = 3)) e.srcOffset e.length).1.length
        let packed := if stored then f.bytes else f.slotBytes
        if c = 3 then max (n * (f.dense + f.maps)) (n * packed) else max (n * (f.slotBytes + f.maps)) (n * f.dense)

/-- M of an entry (Table 10-5). -/
def fgrMoves (d : Dev) (p : Nat) (img : Image) (kind : Nat) (e : FgrEntry) : Nat :=
  match kind with
  | 3 => e.count * e.rowBytes * (e.length / 128)
  | 4 => e.count * e.length * e.rowBytes
  | 5 => e.count * e.rowBytes
  | 6 => 0
  | _ => moveSize d p img e

end Sys2Proof.Machine
end

