-- ==== Sys2Proof/Machine/Flow.lean ====
section
/-! DEFINITION. The tiers' figures for the schedule (10 R257, Table 10-2): latencies, what an entry takes of each resource, a
partition's shares of them, and the rates of entries that share a tier once one of them starts late (R276). -/

namespace Sys2Proof.Machine

/-! ## Table 10-2 -/

/-- Slots of a port's cache in force since the last reset: 16,384 to the GiB. -/
def cacheSlots (d : Dev) (port : Nat) : Nat := smGetD 4 d.tier.cache port * 16384

/-- Read latency of a tier. -/
def tierReadLat (t : Nat) : Nat := if t = 0 then 64 else if t = 1 then 400 else if t = 2 then 1200 else if t = 3 then 4700 else 0

/-- Write latency of a tier and port: 400 through a write-back cache. -/
def tierWriteLat (d : Dev) (t port : Nat) : Nat :=
  if t = 2 ∨ t = 3 then (if cacheSlots d port = 0 then tierReadLat t else 400) else tierReadLat t

/-- The stacks in service. -/
def stacksInService (d : Dev) : Nat := ((stacksOf d.fuses).filter fun s => !retiredStack d s).length

/-- The schedulable rate of a port: 112 B per cycle at 64 GT/s, 56 at 32 GT/s. -/
def portRate (d : Dev) (port : Nat) : Nat := if rdB d (pCxl port) Reg.CXL_STATUS 1 then 112 else 56

/-- Tier and comb slot or port of a buffer reference; a MODE 2 buffer is looked up in the object table, and one that
is not bound has no tier yet (4). -/
def refTier (d : Dev) (p : Nat) (img : Image) (ref : Nat) : Nat × Nat :=
  match img.bufList[ref]? with
  | none => (4, 0)
  | some b =>
    if b.mode = 2 then
      let h := smGetD 0 (partOf d p).objects b.object
      let t := poolTier (hPool h)
      if h = 0 then (4, 0)
      else (t, if t = 0 then (partCombs d p).idxOf (poolSub (hPool h) (hIndex h)) else if t = 1 then 0 else poolSub (hPool h) (hIndex h))
    else (b.tier, if b.tier = 0 then b.comb else if b.tier = 2 then img.portC else if b.tier = 3 then img.portF else 0)

/-- The ends of an entry: source and destination tiers; the KV caches lie in Tier H. -/
def fgrEnds (d : Dev) (p : Nat) (img : Image) (kind : Nat) (e : FgrEntry) : (Nat × Nat) × (Nat × Nat) :=
  (if kind = 4 then (1, 0) else refTier d p img e.srcRef, if kind = 5 then (1, 0) else refTier d p img e.dstRef)

/-- The cycles of an entry beside those of its bytes (R269). -/
def fgrFix (d : Dev) (kind : Nat) (ends : (Nat × Nat) × (Nat × Nat)) : Nat :=
  max (tierReadLat ends.1.1) (tierWriteLat d ends.2.1 ends.2.2) + if kind = 4 ∨ kind = 5 then 64 else 0

/-- The time of an entry (R269). -/
def fgrTime (d : Dev) (p : Nat) (img : Image) (kind : Nat) (e : FgrEntry) : Nat :=
  fgrFix d kind (fgrEnds d p img kind e) + ceilDiv (fgrMoves d p img kind e) (max 1 e.rate)

/-- Units of 4 KiB that `n` bytes at an offset of a buffer touch. -/
def unitsIn (off n : Nat) : Nat := if n = 0 then 0 else (off + n - 1) / 4096 - off / 4096 + 1

/-- The most units that `n` bytes aligned to 32 B touch. -/
def unitsMost (n : Nat) : Nat := ceilDiv (n + 4064) 4096

/-- The units of 4 KiB that an entry touches at its source and its destination. Where a bitmap or a ream decides which, it is the most
that they can be (log entry 117, DEDUCED). -/
def fgrUnits (d : Dev) (p : Nat) (img : Image) (kind : Nat) (e : FgrEntry) : Nat × Nat :=
  let out := e.count * e.rowBytes * (e.length / 128)
  match kind with
  | 3 => (min (unitsIn e.srcOffset (e.length * e.rowBytes)) (e.count * (e.length / 128) * unitsMost e.rowBytes), unitsIn e.dstOffset out)
  | 4 => (e.count * unitsMost (e.length * e.rowBytes), unitsIn e.dstOffset (e.count * e.length * e.rowBytes))
  | 5 => (unitsIn e.srcOffset (e.count * e.rowBytes), e.count * unitsMost e.rowBytes)
  | _ => (unitsIn e.srcOffset e.length, unitsIn e.dstOffset (if e.convert.val = 0 then e.length else moveSize d p img e))

/-- The largest RATE of one entry at an end, where it touches `u` units of Tier H in all. -/
def rateLimit (d : Dev) (t : Nat × Nat) (u : Nat) : Nat :=
  match t.1 with
  | 0 => 256
  | 1 => 1536 * min (max 1 u) (stacksInService d)
  | 4 => 1536 * stacksInService d
  | _ => portRate d t.2

/-- Does an entry keep RATE within Table 10-2? -/
def rateOk (d : Dev) (p : Nat) (img : Image) (kind : Nat) (e : FgrEntry) : Bool :=
  let ends := fgrEnds d p img kind e
  let u := fgrUnits d p img kind e
  let h := (if ends.1.1 = 1 then u.1 else 0) + if ends.2.1 = 1 then u.2 else 0
  kind == 6 || (decide (e.rate ≤ rateLimit d ends.1 h) && decide (e.rate ≤ rateLimit d ends.2 h))

/-! ## Resources and shares (R266, R270, R273)

Resources are Tier H (0), read and write of a CXL port (1 + port, 5 + port), an entry engine of an instance (9 + instance), and read
and write of a comb slot's external port (16 + 2 × slot, one more). -/

/-- What an entry takes at one end. -/
def endTakes (d : Dev) (t : Nat × Nat) (rate : Nat) (write : Bool) : List (Nat × Nat) :=
  match t.1 with
  | 0 => [(16 + 2 * t.2 + b2n write, rate)]
  | 1 => [(0, rate)]
  | 4 => []
  | _ => if write ∧ cacheSlots d t.2 ≠ 0 then [(0, rate)] else [((if write then 5 else 1) + t.2, rate)]

/-- What an entry takes of the tiers' and ports' rates. -/
def fgrTakes (d : Dev) (ends : (Nat × Nat) × (Nat × Nat)) (rate : Nat) : List (Nat × Nat) :=
  endTakes d ends.1 rate false ++ endTakes d ends.2 rate true

/-- Usable cycles of the compiled frame at the compiled clock (Table 01-1), and that clock in MHz. -/
def usableOf (exp clock : Nat) : Nat × Nat := ((2 ^ (exp + 3) - 1) * clockMHz clock, clockMHz clock)

/-- The largest total block size over an image's slices. -/
def stagingBytes (img : Image) : Nat :=
  let total := fun (s : Nat) => (img.blocks.filter fun b => b.slice == s).foldl (fun n b => n + b.raw.length) 0
  img.blocks.foldl (fun m b => max m (total b.slice)) 0

/-- The staging rate of R273 in B per cycle: of the largest slice of the partition's images. -/
def stagingRate (imgs : List Image) (usable : Nat) : Nat :=
  ceilDiv (imgs.foldl (fun m i => max m (stagingBytes i)) 0) (usable - 400)

/-- The share that an image has of a resource, staging taken off. -/
def shareOf (img : Image) (staging r : Nat) : Nat :=
  if r = 0 then img.hRate - staging
  else if r < 5 then img.readShare.getD (r - 1) 0
  else if r < 9 then img.writeShare.getD (r - 5) 0
  else if r < 16 then img.forEngines.getD (r - 9) 0
  else 256

/-! ## Entries that share a tier (R276) -/

/-- The flow of an entry's bytes: what it still moves, from when and how fast, and the resources it takes, one for each time. -/
structure Flow where
  id    : Nat × Nat            -- instance, entry
  start : Nat
  rem   : Nat
  rate  : Nat
  takes : List Nat
  deriving DecidableEq, Repr

/-- What some takes use of a resource. -/
def usedOf (used : List (Nat × Nat)) (r : Nat) : Nat := (used.filter fun u => u.1 == r).foldl (fun n u => n + u.2) 0

/-- The rates of the flows that are open, the first served first: RATE, or what the resources have left. -/
def flowRates (cap : Nat → Nat) : List (Nat × Nat) → List Flow → List (Flow × Nat)
  | _, [] => []
  | used, f :: l =>
    let x := f.takes.foldl (fun m r => min m ((cap r - usedOf used r) / f.takes.count r)) f.rate
    (f, x) :: flowRates cap (f.takes.map (fun r => (r, x)) ++ used) l

/-- The least of some numbers. -/
def least : List Nat → Option Nat
  | [] => none
  | n :: l => some (l.foldl min n)

/-- When each flow has moved its bytes, from a cycle on: the flow's entry, and the cycle after its last byte. The flows stand in the order
in which they are served. -/
def flowEnds (cap : Nat → Nat) : Nat → Nat → List Flow → List ((Nat × Nat) × Nat)
  | 0, _, _ => []
  | n + 1, t, l =>
    let rates := flowRates cap [] (l.filter fun f => decide (f.start ≤ t))
    let next := least ((l.map Flow.start).filter fun s => decide (t < s))
    let ends := least ((rates.filter fun e => decide (0 < e.2)).map fun e => ceilDiv e.1.rem e.2)
    match (next.map fun s => s - t), ends with
    | none, none => []
    | a, b =>
      let len := min (a.getD (b.getD 0)) (b.getD (a.getD 0))
      let moved := fun (f : Flow) => match rates.find? fun e => e.1.id == f.id with
        | some e => e.2 * len
        | none => 0
      let left := l.map fun f => { f with rem := f.rem - moved f }
      let done := fun (f : Flow) => decide (f.start ≤ t) && f.rem == 0
      (left.filter done).map (fun f => (f.id, t + len)) ++ flowEnds cap n (t + len) (left.filter fun f => !done f)

/-- The flow of a run. -/
def FgrRun.flow (r : FgrRun) : Flow := ⟨(r.inst, r.id), r.start, r.bytes, r.rate, r.takes.map Prod.fst⟩

/-- Is one run served before another: by START_CYCLE, then by its place in the schedule? -/
def FgrRun.before (a b : FgrRun) : Bool := decide (a.key < b.key) || (a.key == b.key && decide (a.id < b.id))

/-- The cycle in which the bytes of a run of a partition have moved, when the partition's runs share its rates (log entry 120, DEDUCED). -/
def flowEnd (cap : Nat → Nat) (runs : List FgrRun) (r : FgrRun) : Nat :=
  let l := sortBy FgrRun.before (runs.filter fun q => q.part == r.part)
  let t := (least (l.map FgrRun.start)).getD 0
  (((flowEnds cap (4 * l.length + 4) t (l.map FgrRun.flow)).find? fun e => e.1 == (r.inst, r.id)).map Prod.snd).getD
    (r.start + ceilDiv r.bytes r.rate)

end Sys2Proof.Machine
end

