-- ==== Sys2Proof/Machine/Forager.lean ====
section
/-! DEFINITION. The Foragers at work (10): the write-back caches, entries that start, wait, run late and complete, and the refetch of
poisoned chunks. -/

namespace Sys2Proof.Machine

/-- A Forager event (Table 10-11). -/
def fgrEvent (d : Dev) (i bit n : Nat) : Dev := events d (pFor i) Reg.FOR_EVENTS bit (Reg.FOR_EVT_LATE + 4 * bit) n

/-! ## The write-back caches (R260 to R263) -/

/-- Slots of a port in use. -/
def dirtySlots (d : Dev) (port : Nat) : Nat := (d.tier.slots.filter fun s => s.port == port).length

/-- The chunks of a range. -/
def chunksIn (a n : Nat) : List Nat :=
  if n = 0 then [] else (List.range ((a + n - 1) / 65536 - a / 65536 + 1)).map fun i => (a / 65536 + i) * 65536

/-- Writes the part of a range that lies in a chunk into the chunk's slot. -/
def cacheChunk (d : Dev) (p h port a : Nat) (bs : List Byte) (chunk : Nat) : Dev :=
  let lo := max a chunk
  let hi := min (a + bs.length) (chunk + 65536)
  let part := (bs.drop (lo - a)).take (hi - lo)
  let secs := (List.range 2048).filter fun s => decide (lo - chunk < 32 * s + 32) && decide (32 * s < hi - chunk)
  let old := (slotOf d.tier chunk).getD ⟨port, chunk, h, [], [], p, frameNum d p, false, false⟩
  let new := { old with
    valid := sortBy (fun a b => decide (a < b)) (old.valid ++ secs.filter fun s => !old.valid.contains s)
    data := putBytes old.data (lo - chunk) part }
  modTier d fun t => { t with
    slots := if (slotOf t chunk).isSome then t.slots.map (fun s => if s.chunk = chunk then new else s) else t.slots ++ [new] }

/-- Writes bytes as an engine entry does: through the write-back cache into Tier C and F (R261), else in place. -/
def fgrWrite (d : Dev) (p unit record cycle h a : Nat) (bs : List Byte) : Dev :=
  match portOfAddr d a with
  | some port =>
    if cacheSlots d port = 0 then engWrite d p unit record cycle a bs
    else
      let old := tierBytes d a bs.length
      keepOld ((chunksIn a bs.length).foldl (fun d c => cacheChunk d p h port a bs c) (noteWrite d p unit record a bs.length)) p a old
  | none => engWrite d p unit record cycle a bs

/-- The port that has too few free slots for writes; none when they fit (R262). -/
def cacheShort (d : Dev) (ws : List (Nat × List Byte)) : Option Nat :=
  (List.range 4).find? fun port =>
    let need := ((ws.filter fun w => decide (portOfAddr d w.1 = some port)).flatMap fun w => chunksIn w.1 w.2.length).eraseDups
    let new := need.filter fun c => (slotOf d.tier c).isNone
    decide (0 < cacheSlots d port) && decide (cacheSlots d port < dirtySlots d port + new.length)

/-! ## Starting an entry (R269, R277) -/

/-- A buffer an entry uses: reference, offset, bytes, written? -/
structure FgrNeed where
  ref   : Nat
  off   : Nat
  bytes : Nat
  write : Bool

/-- The buffers of an entry; the first is the destination, or the source of a KV_WRITE. -/
def fgrNeeds (kind : Nat) (e : FgrEntry) : List FgrNeed :=
  let src : FgrNeed := ⟨e.srcRef, e.srcOffset, e.length, false⟩
  let aux := fun (n : Nat) (w : Bool) => (⟨e.auxRef, e.auxOffset, n, w⟩ : FgrNeed)
  match kind with
  | 3 => [⟨e.dstRef, e.dstOffset, e.count * e.rowBytes * (e.length / 128), true⟩, ⟨e.srcRef, e.srcOffset, e.length * e.rowBytes, false⟩,
      aux (16 * (e.length / 128)) false]
  | 4 => [⟨e.dstRef, e.dstOffset, e.count * e.length * e.rowBytes, true⟩, aux 64 false]
  | 5 => [⟨e.srcRef, e.srcOffset, e.count * e.rowBytes, false⟩, aux 64 false]
  | 6 => [⟨e.dstRef, 0, 0, false⟩]
  | _ => [⟨e.dstRef, e.dstOffset, if e.convert.val = 0 then e.length else 0, true⟩, src]
      ++ if e.convert.val = 1 then [aux 32 true] else if e.convert.val = 2 then [aux 32 false] else []

/-- Checks the buffers of an entry: addresses of byte 0 and handles, or code, subcode and the handle that failed (R277). -/
def fgrCheck (d : Dev) (p : Nat) (img : Image) (sl : Nat) : List FgrNeed → List (Nat × Nat) →
    Except (Nat × Nat × Option (Nat × Bool)) (List (Nat × Nat))
  | [], acc => .ok acc
  | n :: l, acc =>
    let h := ((refOf d p img sl n.ref).map Prod.fst).getD 0
    match handleOperand d p h n.off n.bytes n.write with
    | .error (.check c) => .error (1, c, some (h, n.write))
    | .error .range => .error (2, 0, none)
    | .ok a => fgrCheck d p img sl l (acc ++ [(a - n.off, h)])

/-- An entry fails: it writes nothing, and the partition's entries on the instance are stopped for the frame, those that run among them
(R277). -/
def fgrFail (d : Dev) (i p code sub : Nat) (bad : Option (Nat × Bool)) : Dev :=
  let u := pFor i
  let d := match bad with
    | some (h, w) => checkFailed d p h w sub
    | none => d
  let d := if rdB d u Reg.FOR_ENTRY_ERR 4 then d else wrN d u Reg.FOR_ENTRY_ERR (code + 16 + 65536 * sub)
  fgrEvent (modTier d fun t => { t with
    stopped := t.stopped ++ [(i, p)], runs := t.runs.filter fun r => r.inst != i || r.part != p || r.fin }) i 5 1

/-- The buffers of a kind from the checked list. -/
def fgrBufs (kind : Nat) (l : List (Nat × Nat)) : FgrBufs :=
  let at_ := fun (n : Nat) => (l.getD n (0, 0)).1
  match kind with
  | 4 => ⟨0, at_ 0, at_ 1, (l.getD 0 (0, 0)).2⟩
  | 5 => ⟨at_ 0, 0, at_ 1, 0⟩
  | _ => ⟨at_ 1, at_ 0, at_ 2, (l.getD 0 (0, 0)).2⟩

/-- The tier whose lateness an entry shows: that of the slower end, at least H. -/
def fgrTier (d : Dev) (ends : (Nat × Nat) × (Nat × Nat)) : Nat :=
  max 1 (if tierWriteLat d ends.2.1 ends.2.2 < tierReadLat ends.1.1 then ends.1.1 else ends.2.1)

/-- The Forager entries of a slice. -/
def fgrEntries (img : Image) (sl : Nat) : List FgrSlot := img.fgr.filter fun x => x.e.slice == sl

/-- Has an entry of the frame started or completed? -/
def fgrStarted (d : Dev) (i p id : Nat) : Bool :=
  d.tier.done.contains (i, p, id) || d.tier.runs.any fun r => r.inst == i && r.part == p && r.id == id

/-- The first entry equal to `e` that has not started. -/
def freshFgr (d : Dev) (i p : Nat) (img : Image) (sl kind : Nat) (e : FgrEntry) : Option Nat :=
  ((fgrEntries img sl).find? fun x => x.kind == kind && x.inst == i && decide (x.e = e) && !fgrStarted d i p x.index).map FgrSlot.index

/-- R269's fields of an entry. -/
def fgrCtl (e : FgrEntry) : EntryCtl :=
  ⟨e.startCycle, if e.readyEn then some (e.readySlot, e.readyTag.val, e.readyCount) else none,
    if e.notifyEn then some (e.notifySlot, e.notifyTag.val) else none⟩

/-- The wait of an entry, if it waits. -/
def fgrWaitOf (d : Dev) (i p id : Nat) : Option FgrWait := d.tier.waits.find? fun w => w.inst == i && w.part == p && w.id == id

/-- The entry that a command names, when it starts in that cycle: the latest of R269's three cycles, or a later one once it waits for a
cache slot or for data. `alloc` is the cycle after its buffers are allocated. -/
def fgrGo (d : Dev) (i p : Nat) (img : Image) (sl cycle kind : Nat) (e : FgrEntry) (alloc : Nat) : Option EntryGo :=
  if d.tier.stopped.contains (i, p) || (partOf d p).killNow.isSome || !inFrame d p cycle
      || decide (256 ≤ (d.tier.runs.filter fun r => r.inst == i && !r.fin).length) then none
  else
    (freshFgr d i p img sl kind e).bind fun idx =>
      let base := max e.startCycle alloc
      let own := match (fgrCtl e).ready with
        | none => some base
        | some (_, _, n) => ((readyTag d p (fgrCtl e)).bind fun g => g.reached n).map (max base)
      own.bind fun own => match fgrWaitOf d i p idx with
        | some w => if w.since < cycle then some ⟨idx, cycle, own, base, some (w.since, w.cause, w.sub)⟩ else none
        | none => if cycle = own then some ⟨idx, cycle, own, base, none⟩ else none

/-- TIER_LATE of an entry: one event with its tier and reason, and the late cycles (R275). -/
def tierLate (d : Dev) (i p t reason events n : Nat) : Dev :=
  let u := pFor i
  disturb (bump (bump d u (Reg.FOR_TL_EVENTS t reason) events) u (Reg.FOR_TL_CYCLES t reason) n) p causeTier events n (t * 16 + reason)

/-- An entry begins to wait; a wait for a cache slot is counted in the tier's page (R30, R262). -/
def fgrHold (d : Dev) (i p t idx since cause sub : Nat) : Dev :=
  if (fgrWaitOf d i p idx).isSome then d
  else
    let d := modTier d fun s => { s with waits := s.waits ++ [⟨i, p, idx, since, cause, sub⟩] }
    if cause = causeTier then tierLate d i p t 5 1 0 else d

/-- The cycles of a wait that ends, or that the cut finds: a cache wait's are counted in the tier's page too. -/
def fgrHeld (d : Dev) (i p cause sub n : Nat) : Dev :=
  if cause = causeTier then tierLate d i p (sub / 16) 5 0 n else disturb d p cause 0 n sub

/-- What a start is charged: the hold of its READY tag, or its wait. -/
def fgrCharge (d : Dev) (i p : Nat) (img : Image) (sl : Nat) (g : EntryGo) (e : FgrEntry) : Dev :=
  match g.stall with
  | none => chargeHold d p img sl (g.own - g.base) (fgrCtl e)
  | some (c0, cause, sub) => fgrHeld d i p cause sub (g.start - c0)

/-- The cause of a late start, 0 for none: its wait, its READY tag, or the Vat pool of its buffers. -/
def fgrWhy (d : Dev) (p t : Nat) (g : EntryGo) (e : FgrEntry) : Nat × Nat :=
  let w := startWhy d p g (fgrCtl e)
  if w.1 = 0 ∧ e.startCycle < g.base then (causeTier, t * 16 + 7) else w

/-- The first entry that reads a tier with an injected delay completes so much later (R516, MODE 3). -/
def fgrInjected (d : Dev) (reads : List (Nat × Nat)) : Dev × Nat :=
  let hit := (reads.filter fun a => decide (0 < a.2)).findSome? fun a =>
    let t := tierOfAddr d a.1
    (smGet d.tier.delayed t).map fun n => (t, n)
  match hit with
  | none => (d, 0)
  | some (t, n) => (injUsed (modTier d fun s => { s with delayed := smDel s.delayed t }), n)

/-- Applies the writes of a plan, and counts what it skipped. -/
def fgrApply (d : Dev) (i p idx cycle : Nat) (q : FgrPlan) (write : Bool) : Dev :=
  let d := (q.writes.zip (q.hand ++ List.replicate q.writes.length (q.hand.headD 0))).foldl (fun d w =>
    fgrWrite d p (pFor i) (idx % 65536) cycle w.2 w.1.1 w.1.2) d
  let d := q.checks.foldl (fun d c => checkFailed d p c.1 write c.2) d
  let d := if q.absent = 0 then d else modTier d fun t => { t with absent := smModD 0 t.absent i (· + q.absent) }
  fgrEvent (fgrEvent d i 3 q.skip) i 4 q.trunc

/-- FLUSH moves a buffer's dirty chunks ahead and completes in its start cycle. DURABLE is wanted of the object at whose index the buffer
is, or is to be, published (R263, R269). -/
def fgrFlush (d : Dev) (i p idx cycle h : Nat) (img : Image) (e : FgrEntry) (why : Nat) : Dev :=
  let obj := match img.bufList[e.dstRef]? with
    | some b => if b.mode = 1 then some b.object else none
    | none => none
  let d := modTier d fun t => { t with
    slots := t.slots.map fun s => if s.handle = h then { s with first := true } else s
    flushes := match obj with
      | some o => t.flushes ++ [⟨p, h, o⟩]
      | none => t.flushes
    done := t.done ++ [(i, p, idx)] }
  let d := bump d (pFor i) Reg.FOR_ENTRIES 1
  if e.notifyEn then notify d p e.notifySlot e.notifyTag.val cycle why else d

/-- Do the writes of FETCH and WRITE end inside their buffers: destination, then scales? -/
def fgrFits (d : Dev) (kind : Nat) (l : List (Nat × Nat)) (q : FgrPlan) : Bool :=
  let fits := fun (w : Option (Nat × List Byte)) (h : Nat) => match w with
    | some w => decide (w.1 + w.2.length ≤ bufAddr d.vat h + poolBytes (hPool h))
    | none => true
  decide (2 < kind) || (fits q.writes[0]? (l.getD 0 (0, 0)).2 && fits q.writes[1]? (l.getD 2 (0, 0)).2)

/-- Does a read meet a unit of a retired stack (R283)? -/
def redirected (d : Dev) (l : List (Nat × Nat)) : Bool :=
  !d.tier.retire.isEmpty && l.any fun e => (List.range (unitsIn (e.1 % 4096) e.2)).any fun k =>
    let a := e.1 + 4096 * k
    decide (tierOfAddr d a = 1) && retiredStack d (tierHPlace d.fuses a).1

/-- The run of an entry that starts, once its reads have been met. -/
def fgrRun (d : Dev) (i p : Nat) (img : Image) (kind : Nat) (e : FgrEntry) (g : EntryGo) (q : FgrPlan) (r : EngRead) (slow : Nat) : FgrRun :=
  let ends := fgrEnds d p img kind e
  let full := decide (64 ≤ (d.tier.repairs.filter fun x => x.inst == i && !x.once).length)
  { inst := i, part := p, id := g.idx, notify := (fgrCtl e).notify, start := g.start, key := e.startCycle
    fix := fgrFix d kind ends, rate := max 1 e.rate, takes := fgrTakes d ends e.rate, bytes := fgrMoves d p img kind e
    why := fgrWhy d p (fgrTier d ends) g e, late := r.late, link := 0, slow := slow, ready := 0
    reason := if !r.stalled.isEmpty then (if full then 3 else 2) else if redirected d q.reads then 4 else 0
    tier := fgrTier d ends, ports := (q.reads.filterMap fun x => portOfAddr d x.1).eraseDups, stalled := r.stalled, fin := false }

/-- The cycle in which a byte of an entry's data is read, counted from its first (log entry 121, DEDUCED). -/
def fgrClock (d : Dev) (p : Nat) (img : Image) (kind start : Nat) (e : FgrEntry) (pos : Nat) : Nat :=
  start + tierReadLat (fgrEnds d p img kind e).1.1 + pos / max 1 e.rate

/-- An entry whose buffers and plan are good starts, or waits for a slot of a cache or for data (R30, R262). -/
def fgrBegin (d : Dev) (i p : Nat) (img : Image) (sl kind : Nat) (e : FgrEntry) (g : EntryGo) (q : FgrPlan) : Dev :=
  let t := fgrTier d (fgrEnds d p img kind e)
  match cacheShort d q.writes with
  | some port =>
    let d := if g.stall.isSome then d else event d (pCxl port) Reg.CXL_EVENTS 3 Reg.CXL_EVT_CACHE_FULL
    fgrHold d i p t g.idx g.start causeTier (t * 16 + 5)
  | none =>
    let r := engReadAt d i p (fgrClock d p img kind g.start e) false 0 q.reads
    match r.remote with
    | some node => if g.stall.isSome then d else fgrHold r.dev i p t g.idx g.start causeRemote node
    | none =>
      if r.lost then r.dev
      else
        let j := fgrInjected r.dev q.reads
        let d := fgrCharge j.1 i p img sl g e
        let run := fgrRun d i p img kind e g q r j.2
        let d := if r.stalled.isEmpty then fgrApply d i p g.idx g.start q (decide (kind = 5)) else d
        modTier d fun s => { s with
          runs := s.runs ++ [run], waits := s.waits.filter fun w => !(w.inst == i && w.part == p && w.id == g.idx) }

/-- An entry of the running slice starts (R269, R277). -/
def fgrStart (d : Dev) (i p cycle kind : Nat) (e : FgrEntry) : Dev :=
  match runImage d p with
  | none => d
  | some (_, _, img, sl) =>
    let d := listsBy d p cycle
    let needs := fgrNeeds kind e
    match (refsOf d p img sl (needs.map FgrNeed.ref)).bind fun hs => fgrGo d i p img sl cycle kind e hs.2 with
    | none => d
    | some g =>
      match fgrCheck d p img sl needs [] with
      | .error (code, sub, bad) => fgrFail d i p code sub bad
      | .ok l =>
        if kind = 6 then
          fgrFlush (fgrCharge d i p img sl g e) i p g.idx cycle (l.getD 0 (0, 0)).2 img e (fgrWhy d p 1 g e).1
        else
          let q := fgrPlan d p img kind e (fgrBufs kind l)
          if q.code ≠ 0 then fgrFail d i p q.code q.sub (q.bad.map fun h => (h, false))
          else if !fgrFits d kind l q then fgrFail d i p 2 0 none
          else fgrBegin d i p img sl kind e g q

/-! ## Lateness and completion (R269, R275, R276) -/

/-- The images of a partition's contexts. -/
def partImages (d : Dev) (p : Nat) : List Image := (images d p).map Prod.snd

/-- The shares that a running image has, as the caps of its entries' flows (R266, R276). -/
def flowCap (d : Dev) (p : Nat) : Nat → Nat :=
  match runImage d p with
  | some (_, _, img, _) => shareOf img (stagingRate (partImages d p) (usableOf img.frameExp img.clock).1)
  | none => fun _ => 0

/-- When a run completes by the rates alone: the cycle of its tabulated completion, and the cycles that sharing adds (R269, R276). -/
def FgrRun.tab (r : FgrRun) : Nat := r.start + r.fix + ceilDiv r.bytes r.rate - 1

/-- The cycles that the sharing of a tier adds to a run. -/
def fgrStretch (d : Dev) (r : FgrRun) : Nat :=
  flowEnd (flowCap d r.part) d.tier.runs r - (r.start + ceilDiv r.bytes r.rate)

/-- Is a stack in service throttled, so that it carries 768 B per cycle instead of 1,536 (R503)? -/
def stackHot (d : Dev) : Bool := (stacksOf d.fuses).any fun s => !retiredStack d s && rdB d pPwr Reg.PWR_STATUS (16 + s)

/-- The cycles that a throttled stack adds to a run: Tier H lies across every stack, so the partition's share of it is halved
(R503, Table 20-4) (log entry 120, DEDUCED). -/
def fgrThrottle (d : Dev) (r : FgrRun) : Nat :=
  let cap := flowCap d r.part
  if stackHot d then flowEnd (fun n => if n = 0 then cap 0 / 2 else cap n) d.tier.runs r - flowEnd cap d.tier.runs r else 0

/-- The cause of the first delay among a partition's entries that started late (R276). -/
def firstDelay (d : Dev) (r : FgrRun) : Nat × Nat :=
  let l := d.tier.runs.filter fun q => q.part == r.part && decide (q.why.1 ≠ 0)
  ((l.foldl (fun (m : Option FgrRun) q => match m with
    | none => some q
    | some x => if q.start < x.start then some q else m) none).map FgrRun.why).getD r.why

/-- The reason of Table 10-6 that holds a run beyond its cycles: the one the model knows, ABSENT where a port it reads is down, else
SLOW. -/
def fgrReason (d : Dev) (r : FgrRun) (told : Nat) : Nat :=
  if r.reason ≠ 0 then r.reason
  else if told = 6 ∧ r.ports.any (fun k => !rdB d (pCxl k) Reg.CXL_STATUS 0) then 6 else 1

/-- The first cycle in which a run can complete: its rates, what its reads met, the cycle of a refetched chunk, and at least one cycle
late where it reads a retired stack (R275, R278, R283). -/
def fgrDue (d : Dev) (r : FgrRun) : Nat :=
  max (r.tab + fgrStretch d r + fgrThrottle d r + r.late + r.link + r.slow + b2n (decide (r.reason = 4))) r.ready

/-- Charges what a run is late by up to a cycle: sharing to the cause of the first delay, the rest to the tier, with its reason
(corrections and link retries have been charged) (R275, R276). -/
def fgrLate (d : Dev) (r : FgrRun) (cycle told : Nat) : Dev :=
  let s := min (fgrStretch d r) (cycle - r.tab)
  let n := cycle - (r.tab + s + r.late + r.link)
  let d := charge d r.part (firstDelay d r).1 s (firstDelay d r).2
  if n = 0 then d else tierLate d r.inst r.part r.tier (fgrReason d r told) 1 n

/-- The cause that a late run passes on with its NOTIFY, 0 when it is on time. -/
def fgrCause (d : Dev) (r : FgrRun) (cycle : Nat) : Nat :=
  if cycle ≤ r.tab then r.why.1
  else if r.tab + fgrStretch d r + r.late + r.link < cycle then causeTier
  else if 0 < r.link then causeLink else if 0 < r.late then causeScrub else (firstDelay d r).1

/-- An entry completes: its lateness is charged, LATE is set when it is late, and its NOTIFY tag advances (R269, R275). -/
def fgrComplete (d : Dev) (i p id cycle told : Nat) : Dev :=
  match d.tier.runs.find? fun r => r.inst == i && r.part == p && r.id == id && !r.fin with
  | none => d
  | some r =>
    if !r.stalled.isEmpty ∨ cycle < fgrDue d r ∨ !inFrame d p cycle then d
    else
      let why := fgrCause d r cycle
      let d := fgrLate d r cycle told
      let d := if r.tab < cycle then fgrEvent d i 0 1 else d
      let d := bump (bump d (pFor i) Reg.FOR_BYTES r.bytes) (pFor i) Reg.FOR_ENTRIES 1
      let d := modTier d fun t => { t with
        runs := t.runs.map fun q => if q.inst = i ∧ q.part = p ∧ q.id = id then { q with fin := true } else q
        done := t.done ++ [(i, p, id)] }
      match r.notify with
      | some (slot, tag) => notify d p slot tag cycle why
      | none => d

/-- At the cut, what holds a partition's entries is charged: READY tags, waits, and runs that are late (R30, R262, R275). -/
def fgrCut (d : Dev) (p cut : Nat) : Dev :=
  match runImage d p with
  | none => d
  | some (_, _, img, sl) =>
    let d := (fgrEntries img sl).foldl (fun d x =>
      if fgrStarted d x.inst p x.index || d.tier.stopped.contains (x.inst, p) then d
      else match fgrWaitOf d x.inst p x.index with
        | some w => fgrHeld d x.inst p w.cause w.sub (cut - w.since)
        | none =>
          let k := fgrCtl x.e
          let open_ := match k.ready with
            | some (_, _, n) => ((readyTag d p k).bind fun g => g.reached n).isNone
            | none => false
          if open_ then chargeHold d p img sl (cut - k.start) k else d) d
    (d.tier.runs.filter fun r => r.part == p && !r.fin && decide (r.tab < cut)).foldl (fun d r => fgrEvent (fgrLate d r cut 0) r.inst 0 1) d

/-! ## Refetch (R278 to R280) -/

/-- Repair slots of an instance in use. -/
def repairsUsed (d : Dev) (i : Nat) : Nat := (d.tier.repairs.filter fun r => r.inst == i && !r.once).length

/-- Moves the data of a stalled entry once nothing stalls it. -/
def fgrResume (d : Dev) (cycle : Nat) (r : FgrRun) : Dev :=
  match runImage d r.part with
  | none => d
  | some (_, _, img, sl) =>
    match (fgrEntries img sl).find? fun x => x.index == r.id && x.inst == r.inst with
    | none => d
    | some x =>
      match fgrCheck d r.part img sl (fgrNeeds x.kind x.e) [] with
      | .error _ => d
      | .ok l => fgrApply d r.inst r.part r.id cycle (fgrPlan d r.part img x.kind x.e (fgrBufs x.kind l)) (decide (x.kind = 5))

/-- A chunk has been refetched, a node replica's no sooner than R278 says: it enters the repair area, and every entry that waited for it is
served. When the area is full it serves those that wait and is not kept; the other engines find it until their frame ends (R278, R279)
(log entry 128, DESIGN CHOICE). -/
def refetched (d : Dev) (i chunk cycle : Nat) (data : List Byte) : Dev :=
  match d.tier.refetches.find? fun r => r.inst == i && r.chunk == chunk with
  | none => d
  | some r =>
    if cycle < (if r.host then r.start else r.due) then d
    else
      let full := decide (64 ≤ repairsUsed d i)
      let h := smGetD 0 (partOf d r.part).objects r.object
      let new : Repair := ⟨i, r.part, r.object, h, chunk, putBytes [] 0 (data.take 65536), full⟩
      let d := bump d (pFor i) Reg.FOR_REFETCH_CHUNKS 1
      let d := modTier d fun t => { t with
        refetches := t.refetches.filter fun q => !(q.inst == i && q.chunk == chunk)
        repairs := (t.repairs.filter fun q => q.chunk != chunk) ++ [new] }
      let d := if full then fgrEvent d i 6 1 else d
      let waits := d.tier.runs.filter fun q => q.stalled.contains chunk
      let d := modTier d fun t => { t with
        runs := t.runs.map fun q =>
          if q.stalled.contains chunk then
            { q with stalled := q.stalled.filter (· != chunk), ready := max q.ready cycle, reason := if full then 3 else q.reason }
          else q }
      (waits.filter fun q => q.stalled.all (· == chunk)).foldl (fun d q => fgrResume d cycle q) d

/-- A refetch fails: the node replica gives way to the host replica; when that fails too the object's data are lost
(R278 step 3, R280). -/
def refetchFails (d : Dev) (i chunk : Nat) : Dev :=
  match d.tier.refetches.find? fun r => r.inst == i && r.chunk == chunk with
  | none => d
  | some r =>
    let x := descOf d r.part r.object
    if !r.host && x.hostRep then
      let d := modTier d fun t => { t with
        refetches := t.refetches.map fun q => if q.inst = i ∧ q.chunk = chunk then { q with host := true } else q }
      hostFetch d i chunk x.hostKey.toNat (chunk - bufAddr d.vat (smGetD 0 (partOf d r.part).objects r.object))
    else
      let d := modTier d fun t => { t with refetches := t.refetches.filter fun q => !(q.inst == i && q.chunk == chunk) }
      haltWith (fgrEvent d i 2 1) r.part 3 (leBytes 4 r.object)

/-! ## The frame (R273, R274) -/

/-- Is a partition's Forager work done (R274)? Staging completes with the frame it is named in. -/
def fgrDone (d : Dev) (p : Nat) : Bool :=
  match runImage d p with
  | none => true
  | some (_, _, img, sl) => (fgrEntries img sl).all fun x => d.tier.done.contains (x.inst, p, x.index)

/-- Does a handle name a buffer that goes with a killed frame? -/
def frameBuf (d : Dev) (h : Nat) : Bool :=
  let b := bufOf d.vat (hPool h) (hIndex h)
  decide (b.gen = hGen h) && decide (b.state = .frame)

/-- A killed frame stops its entries, frees the cache slots it wrote, and forgets the flushes of its buffers (R261, R263, R274). -/
def fgrStop (d : Dev) (p : Nat) : Dev :=
  modTier d fun t => { t with
    runs := t.runs.filter fun r => r.part != p
    waits := t.waits.filter fun w => w.part != p
    flushes := t.flushes.filter fun f => f.part != p || !frameBuf d f.handle
    slots := t.slots.filter fun s => !(s.part == p && s.frame == frameNum d p && !s.eligible) }

/-- At the tick that ends a committed frame its chunks become eligible for draining (R261). -/
def fgrCommit (d : Dev) (p now : Nat) : Dev :=
  modTier d fun t => { t with slots := t.slots.map fun s => if s.part = p ∧ s.frame = now then { s with eligible := true } else s }

/-- A frame of `n` cycles has ended and the next begins: entries, errors and stops of the partition are those of the new slice; refetches
that run are counted from its cycle 0. -/
def fgrFrame (d : Dev) (p n : Nat) : Dev :=
  let d := modTier d fun t => { t with
    runs := t.runs.filter fun r => r.part != p
    waits := t.waits.filter fun w => w.part != p
    stopped := t.stopped.filter fun e => e.2 != p
    done := t.done.filter fun e => e.2.1 != p
    repairs := t.repairs.filter fun r => r.part != p || !r.once
    refetches := t.refetches.map fun r => if r.part = p then { r with start := r.start - n, due := r.due - n } else r }
  wrF (wrF d (pFor 0) Reg.FOR_ENTRY_ERR 4 4 0) (pFor 1) Reg.FOR_ENTRY_ERR 4 4 0

/-- DURABLE at the first tick after the last chunk of a flushed buffer has drained (R263). -/
def durableTick (d : Dev) (p : Nat) : Dev :=
  let fin := fun (f : Flush) => f.part == p && !(d.tier.slots.any fun s => s.handle == f.handle)
  let d' := modTier d fun t => { t with flushes := t.flushes.filter fun f => !fin f }
  (d.tier.flushes.filter fin).foldl (fun d f =>
    if smGetD 0 (partOf d f.part).objects f.object = f.handle then modDesc d f.part f.object (fun x => { x with durable := true })
    else d) d'

/-- A new handle at an object's index clears POISONED and DURABLE and frees its repair slots (R259, R279). -/
def newHandle (d : Dev) (p obj : Nat) : Dev :=
  let d := modDesc d p obj fun x => { x with poisoned := false, durable := false }
  modTier d fun t => { t with repairs := t.repairs.filter fun r => !(r.part == p && r.object == obj) }

/-! ## The meanings -/

/-- FETCH starts (R269, R271). -/
def execFetch (i : Fin 2) (p : Fin 16) (cycle : Nat) (e : FgrEntry) (s : State) : Host.Outcome State Fault Refusal :=
  onDev s fun d => fgrStart d i.val p.val cycle 1 e

/-- WRITE starts (R261, R269). -/
def execForagerWrite (i : Fin 2) (p : Fin 16) (cycle : Nat) (e : FgrEntry) (s : State) : Host.Outcome State Fault Refusal :=
  onDev s fun d => fgrStart d i.val p.val cycle 2 e

/-- GATHER starts (R166). -/
def execGather (i : Fin 2) (p : Fin 16) (cycle : Nat) (e : FgrEntry) (s : State) : Host.Outcome State Fault Refusal :=
  onDev s fun d => fgrStart d i.val p.val cycle 3 e

/-- KV_READ starts (R272). -/
def execKvRead (i : Fin 2) (p : Fin 16) (cycle : Nat) (e : FgrEntry) (s : State) : Host.Outcome State Fault Refusal :=
  onDev s fun d => fgrStart d i.val p.val cycle 4 e

/-- KV_WRITE starts (R272). -/
def execKvWrite (i : Fin 2) (p : Fin 16) (cycle : Nat) (e : FgrEntry) (s : State) : Host.Outcome State Fault Refusal :=
  onDev s fun d => fgrStart d i.val p.val cycle 5 e

/-- FLUSH (R263). -/
def execFlush (i : Fin 2) (p : Fin 16) (cycle : Nat) (e : FgrEntry) (s : State) : Host.Outcome State Fault Refusal :=
  onDev s fun d => fgrStart d i.val p.val cycle 6 e

/-- A Forager entry completes (R269, R275). -/
def execForagerEntryComplete (i : Fin 2) (p : Fin 16) (id : Nat) (cycle : Nat) (reason : Fin 8) (s : State) :
    Host.Outcome State Fault Refusal :=
  onDev s fun d => fgrComplete d i.val p.val id cycle reason.val

/-- A refetch completes; `id` is the number of its 64 KiB chunk (R278, R279). -/
def execRefetchComplete (i : Fin 2) (id : Nat) (x : BytesAt) (s : State) : Host.Outcome State Fault Refusal :=
  onDev s fun d => refetched d i.val (id * 65536) x.cycle x.data

/-- A refetch fails (R280). -/
def execRefetchFail (i : Fin 2) (id : Nat) (s : State) : Host.Outcome State Fault Refusal :=
  onDev s fun d => refetchFails d i.val (id * 65536)

end Sys2Proof.Machine
end

