-- ==== Sys2Proof/Machine/Power.lean ====
section
/-! DEFINITION. Power domains (20 R497, R498): which domain feeds a unit, which domains exist, are locked or on, and what a
unit is while its domain is off (02 R62). -/

namespace Sys2Proof.Machine

/-- The domain of a unit (Table 20-3); 0x7F when it has none of its own. -/
def domOf (d : Dev) (u : Nat) : Nat :=
  let i := u % 1024
  match pageKind u with
  | .comb => physCombOf d i
  | .cell => physCombOf d (i / 8)
  | .physCell => i / 8
  | .physComb => i - 288
  | .die => 52 + i
  | .block t =>
    let b := i % 32
    match t with
    | 0 => 76 + b
    | 1 => 58 + b
    | 2 => 58 + b
    | 6 => 44 + b
    | 7 => 68 + b
    | 8 => 60 + b / 4
    | 9 => 74 + b
    | 10 => 72 + b / 2
    | 12 => 78 + b
    | _ => 0x7F
  | _ => 0x7F

/-- Is a domain off in the grade (Table 20-3)? -/
def domAbsent (f : Fuses) (n : Nat) : Bool :=
  (f.small && decide (n < 36) && n % 9 == 7)
    || (decide (f.grade = .m576) && (n == 39 || n == 43 || n == 47 || n == 51))
    || (decide (f.grade = .m768t) && (n == 64 || n == 65 || n == 66 || n == 73)) || decide (80 ≤ n)

/-- Is a domain on? -/
def domOn (d : Dev) (n : Nat) : Bool :=
  if n < 64 then rdB d pPwr Reg.PWR_DOM_ON n else rdB d pPwr Reg.PWR_DOM_ON_HI (n - 64)

/-- Is a unit powered? A block with no domain of its own runs on its I/O die's spine (R497). -/
def unitOn (d : Dev) (u : Nat) : Bool :=
  if domOf d u ≠ 0x7F then domOn d (domOf d u)
  else match pageKind u with
    | .block t => domOn d (52 + dieOfBlock t (u % 32))
    | _ => true

/-- Marks a domain on or off. -/
def markDom (d : Dev) (n : Nat) (on : Bool) : Dev :=
  if n < 64 then wrF d pPwr Reg.PWR_DOM_ON n n (b2n on) else wrF d pPwr Reg.PWR_DOM_ON_HI (n - 64) (n - 64) (b2n on)

/-- The control complex that is ACTIVE (R396). -/
def activeCpx (d : Dev) : Option Nat := [0, 1].find? fun i => rdF d (pCtl i) Reg.CTL_CX_STATUS 1 0 == 2

/-- Is the device READY (R498)? -/
def deviceReady (d : Dev) : Bool := let s := unitState d pDev; s == 2 || s == 3

/-- Is a domain locked (R498)? -/
def domLocked (d : Dev) (n : Nat) : Bool :=
  deviceReady d && ((decide (52 ≤ n) && decide (n ≤ 57)) || n == 78 || n == 79
    || ((activeCpx d).map (76 + ·) == some n))

/-- The present units that a domain feeds: an I/O die's spine also feeds the blocks that have no domain of their own (R497). -/
def fedBy (d : Dev) (n : Nat) : List Nat :=
  let f := d.fuses
  if n < 36 then
    (pPhysComb n :: (List.range 8).map fun j => pPhysCell (8 * n + j))
      ++ ((List.range f.nCombs).filter fun k => physCombOf d k == n).flatMap fun k =>
        pComb k :: (List.range 8).map fun j => pCell (8 * k + j)
  else if 52 ≤ n ∧ n < 56 then [pDie (n - 52)]
  else
    let blocks := fun (sel : Nat → Nat → Bool) => (List.range 15).flatMap fun t => (List.range 32).filterMap fun b =>
      if f.block t b && sel t b then some (pBlock t b) else none
    if n < 56 ∨ 58 ≤ n then blocks fun t b => domOf d (pBlock t b) == n
    else pDie (n - 52) :: blocks fun t b => domOf d (pBlock t b) == 0x7F && dieOfBlock t b == n - 52

/-- The domain that a switch takes with it: a compute spine takes the comb domains of its die (R498). -/
def domGroup (n : Nat) (on : Bool) : List Nat :=
  if 52 ≤ n ∧ n < 56 ∧ !on then (List.range 9).map (fun j => 9 * (n - 52) + j) ++ [n] else [n]

/-- STATE of a unit that comes into service: SPARED when it is kept out of service or a logical unit has moved off it (R48, Table 17-3),
RUNNING when a loaded partition owns it (Table 02-6). -/
def serviceState (d : Dev) (u : Nat) : UState :=
  let own := match pageKind u with
    | .comb | .cell | .block _ => ((ownerOf d u).map (loaded d)).getD false
    | _ => false
  if d.bup.journal.soft.contains u || d.bup.journal.left.contains u then .spared else if own then .running else .ready

/-- The physical comb that holds the spare cells of a die (R438). -/
def spareComb (die : Nat) : Nat := 9 * die + 8

/-- Advances GENERATION (R437). -/
def nextGen (d : Dev) (u : Nat) : Dev := wrF d u Reg.UNIT_STATE 15 8 ((rdF d u Reg.UNIT_STATE 15 8 + 1) % 256)

/-- A domain goes off: its units are OFF. A RESET or SELF_TEST that runs in one of them runs on (log entry 129, DESIGN CHOICE). -/
def domOff (d : Dev) (n : Nat) : Dev := (fedBy d n).foldl (fun d u => setState d u .off) (markDom d n false)

/-- Domains go off with what depends on them. -/
def domsOff (d : Dev) (n : Nat) : Dev := (domGroup n false).foldl domOff d

/-- The running repair ends with a result (R443, Table 17-12). -/
def repairEnd (d : Dev) (result : Nat) : Dev :=
  match d.bup.repair with
  | none => d
  | some r =>
    let d := { d with bup := { d.bup with repair := none } }
    wrF (wrN d pBup Reg.BUP_REPAIR_STATUS (r.seq + 256 * result + 4096)) pBup Reg.BUP_STATUS 5 5 0

/-- UNIT_POWER (Table 02-6). -/
def unitPower (d : Dev) (u : Nat) : Nat :=
  let n := domOf d u
  if n = 0x7F then n else n + 256 * b2n (domOn d n)

end Sys2Proof.Machine
end

