-- ==== Sys2Proof/Machine/Tier.lean ====
section
/-! DEFINITION. What the tiers do beside the Foragers (10): draining of the write-back caches, patrol, row repair, the
redirection of a retired stack, and CXL link retries. -/

namespace Sys2Proof.Machine

/-! ## Draining (R261 to R263) -/

/-- Does one slot drain before another: FLUSH first, then ascending commit frame, then ascending device offset? -/
def drainBefore (a b : CacheSlot) : Bool :=
  (a.first && !b.first)
    || (a.first == b.first && (decide (serialDiff a.frame b.frame < 0) || (a.frame == b.frame && decide (a.chunk < b.chunk))))

/-- Runs of consecutive sectors: (first, count). -/
def sectorRuns : List Nat → List (Nat × Nat)
  | [] => []
  | s :: l => match sectorRuns l with
    | (t, n) :: r => if t = s + 1 then (s, n + 1) :: r else (s, 1) :: (t, n) :: r
    | [] => [(s, 1)]

/-- A chunk that is next in the drain order of its port is drained: its valid sectors are written, its slot is freed. -/
def drainChunk (d : Dev) (port chunk : Nat) : Dev :=
  match slotOf d.tier chunk with
  | none => d
  | some s =>
    let ahead := d.tier.slots.any fun q => q.port == port && q.eligible && drainBefore q s
    if s.port ≠ port || !s.eligible || ahead then d
    else
      let d := modTier d fun t => { t with slots := t.slots.filter fun q => q.chunk != chunk }
      let d := (sectorRuns s.valid).foldl (fun d r =>
        tierWrite d (chunk + 32 * r.1) ((List.range (32 * r.2)).map fun i => smGetD 0 s.data (32 * r.1 + i))) d
      bump d (pCxl port) Reg.CXL_DRAINED_BYTES (32 * s.valid.length)

/-! ## Patrol (R248, R250, R251) -/

/-- A patrol pass over a stack or a port's device: it reads every line of the unit, those that have gone wrong, as `x` names them by
device offset and wrong bytes, and those marked before, and collects the on-die counts. Lines of other units are none of this pass
(log entry 80, DEDUCED). Its corrections are no disturbances. -/
def patrol (d : Dev) (cxl : Bool) (unit : Nat) (x : PatrolFacts) : Dev :=
  let u := if cxl then pCxl unit else pMem unit
  if !present d.fuses u || (!cxl && retiredStack d unit) then d
  else
    let mine := fun (l : Nat) => l % 64 == 0 && (tierOfAddr d l != 0) && memUnit d l == u && !listedLine d l
    let d := (x.wrong.filter fun e => mine e.1).foldl (fun d e =>
      { d with marks := smPut d.marks e.1 ⟨false, false, none, e.2.map fun w => (w.1.val, w.2)⟩ }) d
    let marks := d.marks.filter fun e => !inStore e.1 && mine e.1
    let lost := ((marks.filter fun e => e.2.lost).map Prod.fst) ++
      (d.tier.tmRecord.filter fun l => mine l && !(marks.any fun e => e.1 == l))
    let d := marks.foldl (fun d e => readMarked d e.1 e.2) d
    let d := (lost.filter fun l => !(marks.any fun e => e.1 == l)).foldl findUncorr d
    let d := lost.foldl ownerLost d
    if cxl then d
    else
      let d := bump d u Reg.MEM_INNER_CORR (x.dieCounts.foldl (· + ·) 0)
      let d := events d u Reg.MEM_EVENTS 3 Reg.MEM_EVT_INNER_HIGH (x.dieCounts.filter fun n => decide (4096 < n)).length
      let d := modTier d fun t => { t with rowCorr := smDel t.rowCorr unit }
      bump d u Reg.MEM_PATROL_PASSES 1

/-- A raw byte of the capacity behind a CXL port's window at `base`, of `gib` GiB of data: data bytes, then the check bytes of each
line (R254). -/
def cxlRawByte (d : Dev) (base gib a : Nat) : Byte :=
  let size := gib * 2 ^ 30
  if a < size then (lineWord d (base + a / 64 * 64)).getD (a % 64) 0
  else (lineWord d (base + (a - size) / 8 * 64)).getD (64 + a % 8) 0

/-! ## Row repair and retirement (R251, R252, R282) -/

/-- The copy of a row is complete: accesses go to the spare row. -/
def rowSwitch (d : Dev) (st row : Nat) : Dev :=
  if (rowsOf d st).any fun r => r.row == row && r.copying then
    let d := modTier d fun t => { t with
      rows := smPutD [] t.rows st ((rowsOf d st).map fun r => if r.row = row then { r with copying := false } else r) }
    classEvent (event d (pMem st) Reg.MEM_EVENTS 2 Reg.MEM_EVT_ROW_REPAIR) 3 (pMem st) 0
  else d

/-- The first tick after a retiring stack has been copied: its lines have passed through the outer code, its units redirect to the
ports' extents, its poisoned lines to the ports' lists, and its domains go off. -/
def redirect (d : Dev) (st : Nat) : Dev :=
  match smGet d.tier.retire st with
  | some (.copying ex) =>
    let mine := fun (l : Nat) => tierOfAddr d l == 1 && poisonKey d l == st && !listedLine d l
    let marks := d.marks.filter fun e => !inStore e.1 && mine e.1
    let d := marks.foldl (fun d e => readMarked d e.1 e.2) d
    let d := { d with marks := d.marks.filter fun e => inStore e.1 || !(mine e.1 && !e.2.lost) }
    let listed := smGetD [] d.tier.poison st
    let d := modTier d fun t => { t with retire := smPut t.retire st (.retired ex), poison := smDel t.poison st }
    let d := listed.foldl (fun d l =>
      let k := poisonKey d l
      let old := smGetD [] d.tier.poison k
      if old.length < 512 then poisonSync (modTier d fun t => { t with poison := smPut t.poison k (old ++ [l]) }) k
      else modTier d fun t => { t with tmRecord := t.tmRecord ++ [l] }) d
    let d := wrF (wrF (wrN d (pMem st) Reg.MEM_MIGRATE 100) (pMem st) Reg.MEM_STATE 1 0 2) (pMem st) Reg.MEM_STATE 25 16 0
    let d := classEvent d 3 (pMem st) 0
    let d := journalled (domsOff (domsOff d (36 + st)) (44 + st)) 5 st (some (ex.map Prod.snd))
    match d.bup.repair with
    | some r => if r.op = 5 ∧ r.path = pMem st then repairEnd d 0 else d
    | none => d
  | _ => d

/-! ## CXL links (R246, R255) -/

/-- The run that a retry of a port delays: the partition's first that reads there. -/
def retriedRun (d : Dev) (port p : Nat) : Option FgrRun :=
  (sortBy (fun (a b : FgrRun) => decide (a.start < b.start)) (d.tier.runs.filter fun r =>
    r.part == p && !r.fin && r.ports.contains port)).head?

/-- A flit is retried, and the link is retrained when retries do not help (Table 10-1); a retry or retraining that delays a read by `late`
cycles is a disturbance of the partition that reads, and its entry completes so much later (R255, R275). -/
def flitRetry (d : Dev) (port late p : Nat) : Dev :=
  let d := event d (pCxl port) Reg.CXL_EVENTS 2 Reg.CXL_EVT_LINK_RETRY
  if late = 0 then d
  else
    let d := disturb d p causeLink 1 late (pCxl port)
    match retriedRun d port p with
    | none => d
    | some r => modTier d fun t => { t with
        runs := t.runs.map fun q => if q.inst = r.inst ∧ q.part = r.part ∧ q.id = r.id then { q with link := q.link + late } else q }

/-! ## What the tier manager does after a patrol pass (R265, R281, R282, R292) (log entry 119, DESIGN CHOICE) -/

/-- Does a range meet a retirement extent? -/
def inExtents (d : Dev) (a n : Nat) : Bool :=
  d.tier.retire.any fun e => (match e.2 with
    | .copying ex => ex
    | .retired ex => ex).any fun x => decide (x.2 < a + n) && decide (a < x.2 + 24 * 2 ^ 30)

/-- Does a buffer lie in a preload range? -/
def inPreload (d : Dev) (pool i : Nat) : Bool :=
  d.tier.preload.any fun q => q.pool == pool && decide (q.first ≤ i) && decide (i < q.first + q.count)

/-- A preload range opens: FREE buffers of a Tier C or F pool whose tier is READ_ONLY, a multiple of 64 KiB, at most 16 ranges to a port;
they are WITHHELD while it is open (R265, R294). -/
def openPreload (d : Dev) (pool first count c : Nat) : Dev :=
  let port := poolSub pool first
  let pos := poolPos pool first
  let bytes := count * poolBytes pool
  let l := (List.range count).map (pos + ·)
  if poolTier pool < 2 ∨ !tierRO d (poolTier pool) port ∨ count = 0 ∨ bytes % 65536 ≠ 0 ∨ (ctxOf d c).state = .free
      ∨ 16 ≤ (d.tier.preload.filter fun q => q.port == port).length ∨ (regionOf d.vat pool port).count < pos + count
      ∨ !(l.all (posFree d.vat pool port)) then d
  else
    let base := (regionOf d.vat pool port).base + pos * poolBytes pool
    modTier { d with vat := withholdPos d.vat pool port l } fun t => { t with
      preload := t.preload ++ [⟨pool, first, count, port, base, bytes, c, false⟩] }

/-- A range is to close at the next tick of its context's partition. -/
def closePreload (d : Dev) (pool first : Nat) : Dev :=
  modTier d fun t => { t with
    preload := t.preload.map fun q => if q.pool = pool ∧ q.first = first then { q with closing := true } else q }

/-- At a tick of a partition the ranges of its contexts that are to close become HELD buffers, charged to their context (R265, R294). -/
def preloadTick (d : Dev) (p : Nat) : Dev :=
  let mine := fun (q : Preload) => q.closing && (ctxOf d q.ctx).part == p
  let l := d.tier.preload.filter mine
  l.foldl (fun d q =>
    let v := (List.range q.count).foldl (fun v k => modBuf v q.pool (q.first + k) fun b =>
      { b with state := .held, part := p, ctx := q.ctx }) d.vat
    { d with vat := { v with used := smModD 0 v.used (q.ctx * 4 + poolTier q.pool) (· + q.bytes) } })
    (modTier d fun t => { t with preload := t.preload.filter fun q => !mine q })

/-- A FREE buffer is kept out of service. -/
def withholdBuf (d : Dev) (pool i : Nat) : Dev :=
  let sub := poolSub pool i
  if posFree d.vat pool sub (poolPos pool i) then { d with vat := withholdPos d.vat pool sub [poolPos pool i] } else d

/-- A WITHHELD buffer that is in no preload range and no extent is returned: its lines under R249 are rewritten whole, with bytes that
nothing gives, and once its 64 KiB chunk holds no such line it becomes FREE at its list's tail (R249, R292). -/
def giveBack (d : Dev) (pool i : Nat) : Dev :=
  let sub := poolSub pool i
  let n := poolBytes pool
  let a := (regionOf d.vat pool sub).base + poolPos pool i * n
  if (bufOf d.vat pool i).state ≠ .withheld ∨ inPreload d pool i ∨ inExtents d a n then d
  else
    let bad := ((d.tier.poison.flatMap Prod.snd) ++ d.tier.tmRecord).filter fun l => decide (a ≤ l) && decide (l < a + n)
    let seq := d.freeSeq
    let d := bad.zipIdx.foldl (fun d l =>
      tierWrite d l.1 ((List.range 64).map fun k => Config.freeByte seq (64 * l.2 + k))) (if bad.isEmpty then d else drawFree d)
    let r := regionOf d.vat pool sub
    if holdsPoison d pool i then d
    else { d with vat := { modBuf d.vat pool i (fun b => { b with state := .free }) with
      regions := smPut d.vat.regions (pool * 64 + sub) { r with freed := r.freed ++ [poolPos pool i] } } }

/-- The share of a retiring stack that has been copied (R282). -/
def copiedShare (d : Dev) (st n : Nat) : Dev :=
  match smGet d.tier.retire st with
  | some (.copying _) => if rdN d (pMem st) Reg.MEM_MIGRATE ≤ n then wrN d (pMem st) Reg.MEM_MIGRATE n else d
  | _ => d

/-- One act of the tier manager. -/
def tierAct (d : Dev) : TierAct → Dev
  | .openPreload pool first count c => openPreload d pool.val first count c.val
  | .closePreload pool first => closePreload d pool.val first
  | .withhold pool i => withholdBuf d pool.val i
  | .giveBack pool i => giveBack d pool.val i
  | .lanesFailed st => if d.fuses.stack st.val then startRetire d st.val else d
  | .copied st n => copiedShare d st.val n.val

/-! ## The meanings -/

/-- CACHE_DRAIN (R261, R262): a chunk of the write-back cache reaches its device. -/
def execCacheDrain (port : Fin 4) (chunk : Nat) (s : State) : Host.Outcome State Fault Refusal :=
  onDev s fun d => drainChunk d port.val chunk

/-- PATROL_PASS (R250): the pass, then what the tier manager and the health agent do (log entry 119, DESIGN CHOICE). -/
def execPatrolPass (cxl : Bool) (unit : Fin 8) (x : PatrolFacts) (s : State) : Host.Outcome State Fault Refusal :=
  onDev s fun d => x.acts.foldl tierAct (patrol d cxl unit.val x)

/-- ROW_REPAIR_SWITCH (R251). -/
def execRowRepairSwitch (stack : Fin 8) (row : Nat) (s : State) : Host.Outcome State Fault Refusal :=
  onDev s fun d => rowSwitch d stack.val row

/-- RETIREMENT_REDIRECT (R282). -/
def execRetirementRedirect (stack : Fin 8) (s : State) : Host.Outcome State Fault Refusal :=
  onDev s fun d => redirect d stack.val

/-- CXL_FLIT_RETRY (R255). -/
def execCxlFlitRetry (port : Fin 4) (lateCycles : Nat) (p : Fin 16) (s : State) : Host.Outcome State Fault Refusal :=
  onDev s fun d => flitRetry d port.val lateCycles p.val

end Sys2Proof.Machine
end

