-- ==== Sys2Proof/Machine/Units.lean ====
section
/-! DEFINITION. Unit commands (02 R51 to R55, R523), unit reset (17 R436, R437), events and their summary (02 R56, R57). -/

namespace Sys2Proof.Machine

/-! ## What a reset clears (Table 17-8) -/

/-- RO registers of a block that report a fact a reset of the block does not change (log entry 37, DEDUCED). -/
def factOffs : PageKind → List Nat
  | .block 0 => [Reg.CTL_CX_STATUS, Reg.CTL_HEARTBEAT]
  | .block 6 => [Reg.MEM_STATE, Reg.MEM_MIGRATE]
  | .block 7 => [Reg.CXL_STATUS, Reg.CXL_CAP, Reg.CXL_POISON]
  | .block 8 => [Reg.BOL_PORT_STATUS, Reg.BOL_PARTNER]
  | .block 9 => [Reg.HXV_STATUS, Reg.HXV_LAST_SEQ]
  | .block 10 => [Reg.ETH_STATUS]
  | .block 11 => [Reg.TIM_STATUS, Reg.TIM_LS_STATUS]
  | .block 12 => [Reg.SEC_STATUS, Reg.SEC_POLICY, Reg.SEC_LINK_POLICY, Reg.SEC_SVN, Reg.SEC_LOG_SEQ]
  | .block 13 => [Reg.PWR_STATUS, Reg.PWR_PKG_POWER, Reg.PWR_DOM_ON_HI, Reg.PWR_TEMP_PEAK]
  | .block 14 => [Reg.BUP_STATUS, Reg.BUP_READY_US, Reg.BUP_WAIT_IMAGE_US, Reg.BUP_JOURNAL, Reg.BUP_JOURNAL_SEQ]
  | _ => []

/-- The 64-bit registers that hold no total. -/
def wideNoTotal : PageKind → List Nat
  | .block 6 => [Reg.MEM_ERR_ADDR]
  | .block 13 => [Reg.PWR_CLOCK_SWITCH]
  | .block 5 => [Reg.BRD_SLOT_READY]
  | .block 11 => [Reg.TIM_LS_DIV_ORDINAL]
  | _ => []

/-- Does a reset of the unit keep a register? -/
def keptReg (u off : Nat) : Bool :=
  let k := pageKind u
  decide (off < 0x100) || (countOffs k).contains off || ((wideOffs k).contains off && !(wideNoTotal k).contains off)
    || (factOffs k).contains off

/-- A unit's own registers go back to their reset values; counts and totals stay. -/
def resetOwn (d : Dev) (u : Nat) : Dev := { d with regs := d.regs.filter fun e => e.1 / 4096 != u || keptReg u (e.1 % 4096) }

/-- A range of data space becomes zeros with valid codewords. -/
def zeroRange (d : Dev) (a n : Nat) : Dev :=
  let out := fun (k : Nat) => decide (k < a) || decide (a + n ≤ k)
  let d := (d.marks.filter fun e => !out e.1).foldl (fun d e => dropMark d e.1) d
  { d with mem := d.mem.filter fun e => out e.1 }

/-- A logical cell's store, engine and front end are cleared. -/
def clearCell (d : Dev) (c : Nat) : Dev :=
  let d := zeroRange d (cellAddr c 0) 0x400000
  resetOwn { d with cells := smDel d.cells c, acc := smDel (smDel d.acc (2 * c)) (2 * c + 1) } (pCell c)

/-- A logical comb's store and broadcast are cleared. -/
def clearComb (d : Dev) (k : Nat) : Dev :=
  let d := zeroRange d (combAddr k 0) 0x1000000
  resetOwn { d with combs := smDel d.combs k } (pComb k)

/-- Entries and queues of a block are cleared. -/
def clearBlock (d : Dev) (t i : Nat) : Dev :=
  let d := match t with
    | 1 => { d with wgl := smDel d.wgl i }
    | 2 => { d with swm := smDel d.swm i }
    | 3 => modTier d fun t => { t with
      runs := t.runs.filter fun r => r.inst != i
      refetches := t.refetches.filter fun r => r.inst != i
      repairs := t.repairs.filter fun r => r.inst != i
      waits := t.waits.filter fun w => w.inst != i
      stopped := t.stopped.filter fun e => e.1 != i }
    | 4 => vatSync { d with vat := { d.vat with waiting := d.vat.waiting.filter fun r => tierInst r.tier != i } }
    | 5 => { d with brd := { d.brd with table_ := [], shown := [], queue := [], reams := [], builds := [], lost := [] } }
    | 8 => bolRetrain d i
    | 9 => wrN (modHxv d i fun q => { q with queue := [], sent := [], out := [], retry := [], fetches := [], pulls := [] })
      (pHxv i) Reg.HXV_CPL_QUEUE 0
    | 12 => { d with sec := { d.sec with att := smDel d.sec.att i } }
    | 14 => { d with bup := { d.bup with bcast := none } }
    | _ => d
  resetOwn d (pBlock t i)

/-- The logical unit that a physical unit carries. -/
def carried (d : Dev) (u : Nat) : Option Nat :=
  match pageKind u with
  | .physCell => ((List.range d.fuses.nCells).find? fun c => physOf d c == u % 1024).map pCell
  | .physComb => ((List.range d.fuses.nCombs).find? fun k => physCombOf d k == u % 1024 - 288).map pComb
  | _ => none

/-- Clears the state of Table 17-8 for one unit, members apart. -/
def clearUnit (d : Dev) (u : Nat) : Dev :=
  match pageKind u with
  | .cell => clearCell d (u % 1024)
  | .comb => clearComb d (u % 1024)
  | .partition => { d with rmt := { d.rmt with staging := d.rmt.staging.filter fun s => s.part != u % 1024 } }
  | .block t => clearBlock d t (u % 32)
  | _ => resetOwn d u

/-- A reset ends: the state is clear, GENERATION advances, STATE is READY (R437). A physical unit takes along the logical
unit that it carries (Table 17-8). -/
def resetEnd (d : Dev) (u : Nat) : Dev :=
  let one := fun (d : Dev) (u : Nat) => setState (nextGen (clearUnit d u) u) u (serviceState d u)
  let d := one d u
  match carried d u with
  | some l => one d l
  | none => d

/-! ## Results (R52 to R54) -/

/-- Writes UNIT_CMD_STATUS and sets CMD_DONE or CMD_FAILED. -/
def cmdStatus (d : Dev) (u seq res failed : Nat) : Dev :=
  hdrEvent (wrN d u Reg.UNIT_CMD_STATUS (seq % 256 + 256 * res + 65536 * (failed % 1024))) u (if res = 0 then .cmdDone else .cmdFailed)

/-- The order in which R54 reports results that are not OK. -/
def resultOrder : List Nat := [1, 7, 2, 5, 6, 4]

/-- The result of a group from all results, the unit's own first. -/
def groupResult (all : List Nat) : Nat :=
  if all.headD 0 = 3 then 3 else (resultOrder.find? fun r => all.contains r).getD 0

/-- Reports a finished command. -/
def cmdReport (d : Dev) (u : Nat) (r : UnitRun) : Dev :=
  let own := (r.results.filter fun e => e.1 == u).map Prod.snd
  let mem := (r.results.filter fun e => e.1 != u).map Prod.snd
  let first := r.fails.foldl (fun (m : Option (Nat × Nat)) e => match m with
    | none => some e
    | some b => if e.1 < b.1 then some e else m) none
  let d := wrF { d with runs := smDel d.runs u } u Reg.UNIT_STATE 3 3 0
  let d := wrN d u Reg.UNIT_CMD_FIRST_FAIL ((first.map fun e => e.1 + 65536 * e.2).getD 0)
  cmdStatus d u r.seq (groupResult (own ++ mem)) (mem.filter (· != 0)).length

/-- The result that a finished run hands to who forwarded it. -/
def runResult (u : Nat) (r : UnitRun) : Nat :=
  groupResult ((r.results.filter fun e => e.1 == u).map Prod.snd ++ (r.results.filter fun e => e.1 != u).map Prod.snd)

/-- `who` has completed its part of the command at `u`; the command ends with the last part, and is reported upward. -/
def partDone : Nat → Dev → Nat → Nat → Nat → List (Nat × Nat) → Dev
  | 0, d, _, _, _, _ => d
  | n + 1, d, u, who, res, fails =>
    match smGet d.runs u with
    | none => d
    | some r =>
      if !r.left.contains who then d
      else
        let r := { r with left := r.left.filter (· != who), results := r.results ++ [(who, res)], fails := r.fails ++ fails }
        if !r.left.isEmpty then { d with runs := smPut d.runs u r }
        else
          let d := cmdReport d u r
          match r.parent with
          | some q => partDone n d q u (runResult u r) r.fails
          | none => d

/-- A unit's own part of its command ends with a result. -/
def ownDone (d : Dev) (u res : Nat) : Dev := partDone 5 d u u res (if res = 0 then [] else [(u, res)])

/-- Ends the running command of a unit with ABORTED (R53): a domain switch that it began is given up, and a part of it that waits for a
tick is dropped. -/
def abortRun (d : Dev) (u : Nat) : Dev :=
  match smGet d.runs u with
  | none => d
  | some r =>
    let d := { d with
      runs := (smDel d.runs u).map fun e => if e.2.parent = some u then (e.1, { e.2 with parent := none }) else e
      pwr := { d.pwr with switches := d.pwr.switches.filter fun w => w.unit != some u }
      parts := d.parts.map fun t => (t.1, { t.2 with deferred := t.2.deferred.filter fun e => e.path != u }) }
    let d := cmdStatus (wrF d u Reg.UNIT_STATE 3 3 0) u r.seq 5 0
    match r.parent with
    | some q => partDone 5 d q u 5 [(u, 5)]
    | none => d

/-! ## Acceptance (Table 02-8, R498) -/

/-- May POWER_OFF or POWER_ON be given to a unit: does its domain feed only it and its members? -/
def powerUnit (u : Nat) : Bool :=
  match pageKind u with
  | .comb | .physComb | .die => true
  | .block t => t == 0 || t == 6 || t == 7 || t == 9 || t == 12
  | _ => false

/-- Is a comb domain in use by the running repair (R498)? -/
def repairUses (d : Dev) (n : Nat) : Bool :=
  match d.bup.repair with
  | some r => (r.op == 1 || r.op == 2) && (domOf d r.path == n || (decide (n < 36) && n == 9 * (domOf d r.path / 9) + 8))
  | none => false

/-- The result of a request to switch a domain, if it does not act: the state that the domain already has is granted before a lock is
looked at (R54, R498). -/
def domRefuse (d : Dev) (n : Nat) (on : Bool) : Option Nat :=
  if domAbsent d.fuses n then some 4
  else if d.pwr.switches.any fun w => w.dom == n then some 2
  else if domOn d n = on then some 0
  else if domLocked d n then some 6
  else if repairUses d n then some 2
  else none

/-- The result of a command that a unit does not carry out, or none when it is accepted (log entry 90, DEDUCED). -/
def cmdRefuse (d : Dev) (u op : Nat) : Option Nat :=
  if 8 ≤ op then some 3
  else if op = 6 ∨ op = 7 then if powerUnit u then domRefuse d (domOf d u) (op == 7) else some 4
  else if pageKind u = .partition ∧ (op = 4 ∨ (op = 1 ∧ (members d u).isEmpty)) then some 4
  else if !unitOn d u then some 7
  else none

/-! ## Acting (R55) -/

/-- The partition whose frame a command to a unit must wait for: its loaded owner, or the loaded partition itself. -/
def frameOwner (d : Dev) (u : Nat) : Option Nat :=
  let o := if pageKind u = .partition then some (u % 1024) else ownerOf d u
  o.bind fun p => if loaded d p then some p else none

/-- Is the command one that waits for the tick (R55)? -/
def waitsTick (op : Nat) : Bool := op == 1 || op == 2 || op == 4 || op == 6

/-- A device reset: the device page's, or an I/O die's (R419). -/
def isDeviceReset (u op : Nat) : Bool := op == 1 && (u == pDev || u == pDie 4 || u == pDie 5)

/-- A unit carries out its own part. RESET, SELF_TEST and domain switches take time; the others end at once. -/
def actUnit (d : Dev) (u op seq : Nat) : Dev :=
  match op with
  | 1 => if isDeviceReset u op then setState (setState d u .resetting) pDev .resetting else setState d u .resetting
  | 2 => ownDone (setState d u .quiesced) u 0
  | 3 =>
    let d := if stateIs d u .quiesced then setState d u (if (frameOwner d u).isSome then .running else .ready) else d
    ownDone d u 0
  | 4 => setState d u .testing
  | 5 => ownDone (wrN d u Reg.UNIT_EVENTS (rdN d u Reg.UNIT_EVENTS / 64 * 64)) u 0
  | 6 =>
    let d := setState d u .quiesced
    { d with pwr := { d.pwr with switches := d.pwr.switches ++ [⟨domOf d u, false, some u, seq⟩] } }
  | 7 => { d with pwr := { d.pwr with switches := d.pwr.switches ++ [⟨domOf d u, true, some u, seq⟩] } }
  | _ => ownDone d u 0

/-- A unit carries out its part at once, or at the tick that ends the frame it kills (R55). `atTick`: it is a tick. -/
def actOrWait (d : Dev) (u op seq reason : Nat) (atTick : Bool) : Dev :=
  match (if waitsTick op && !atTick && !isDeviceReset u op then frameOwner d u else none) with
  | none => actUnit d u op seq
  | some p =>
    let now := !(partOf d p).cutTaken
    modPart (fileKill d p reason) p fun t => { t with deferred := t.deferred ++ [⟨u, op, seq, now⟩] }

/-- A command reaches a unit (R51 to R55): refused as BUSY, refused with a result, or begun at the unit and its members. `may`
says which members the requester may command; `atTick` that it acts at a tick. -/
def issueCmd : Nat → (Nat → Bool) → Dev → Nat → Nat → Nat → Nat → Option Nat → Bool → Dev
  | 0, _, d, _, _, _, _, _, _ => d
  | n + 1, may, d, u, op, seq, reason, parent, atTick =>
    if (smGet d.runs u).isSome && op != 1 then
      let d := cmdStatus d u seq 2 0
      match parent with
      | some q => partDone 5 d q u 2 [(u, 2)]
      | none => d
    else
      let d := abortRun d u
      let refuse := cmdRefuse d u op
      let ms := if refuse.isSome || op == 6 || op == 7 || isDeviceReset u op then [] else members d u
      let d := { d with runs := smPut d.runs u ⟨op, seq, parent, unitState d u, u :: ms, [], []⟩ }
      let d := wrF d u Reg.UNIT_STATE 3 3 1
      match refuse with
      | some r => ownDone d u r
      | none =>
        let d := ms.foldl (fun d m => if may m then issueCmd n may d m op seq reason (some u) atTick
          else partDone 5 d u m 6 [(m, 6)]) d
        actOrWait d u op seq reason atTick

/-- A write to UNIT_CMD at a page (Table 02-7). KILL_REASON 0 means 4. -/
def unitCommand (d : Dev) (may : Nat → Bool) (u op seq reason : Nat) : Dev :=
  issueCmd 5 may d u op seq (if reason = 0 then 4 else reason) none false

/-- Records a refused access (R62, Table 02-13). -/
def accessErr (d : Dev) (u off code : Nat) (write : Bool) (req : Requester) : Dev :=
  hdrEvent (wrN d u Reg.UNIT_ACCESS_ERR (off % 4096 + 4096 * code + 32768 * b2n write + 65536 * req.toNat)) u .accessErr

/-- A unit command from firmware: at an absent unit it is an address error of the device page (R60, R62). -/
def commandRow (d : Dev) (path op seq reason : Nat) : Dev :=
  if present d.fuses path then unitCommand d (fun _ => true) path op seq reason
  else accessErr d pDev Reg.UNIT_CMD 1 true 0

/-! ## Completion -/

/-- Has the command at a unit acted, and does it run on (RESET, SELF_TEST, the RESET of a POWER_ON)? -/
def runsOn (d : Dev) (u : Nat) : Bool :=
  match smGet d.runs u with
  | some r => r.left.contains u && (r.op == 1 || r.op == 4 || r.op == 7)
    && !((List.range 16).any fun p => (partOf d p).deferred.any fun e => e.path == u)
    && !(d.pwr.switches.any fun w => w.unit == some u) && !isDeviceReset u r.op
  | none => false

/-- A unit of a loaded partition has failed its test: the health agent will spare it (R39, R440). -/
def wantSpare (d : Dev) (u : Nat) : Dev :=
  let l := match pageKind u with
    | .cell | .comb => some u
    | _ => carried d u
  match l with
  | some l => if d.bup.sparing.contains l then d else { d with bup := { d.bup with sparing := d.bup.sparing ++ [l] } }
  | none => d

/-- A comb that failed on an uncorrectable word passes its test: it returns to service, and its failing sectors are retired; nothing says
what a retired sector reads as (R91) (log entry 130, DESIGN CHOICE). -/
def combBack (d : Dev) (k : Nat) : Dev :=
  let bad := ((d.marks.filter fun e => decide (combAddr k 0 ≤ e.1) && decide (e.1 < combAddr k 0 + 0x1000000) && e.2.lost).map
    fun e => e.1 / 32 * 32).eraseDups
  let seq := d.freeSeq
  let d := bad.zipIdx.foldl (fun d e =>
    writeBytes d e.1 ((List.range 32).map fun i => Config.freeByte seq (32 * e.2 + i))) (if bad.isEmpty then d else drawFree d)
  { d with bup := { d.bup with retired := d.bup.retired ++ bad.filter fun a => !d.bup.retired.contains a } }

/-- A unit passes its test: it has the STATE again that it had before (log entry 131, DESIGN CHOICE); a FAILED comb returns to service
(R91). -/
def testPassed (d : Dev) (u prior : Nat) : Dev :=
  let back := fun (d : Dev) (u : Nat) => setState (combBack d (u % 1024)) u (serviceState d u)
  let d := wrF (setState d u .ready) u Reg.UNIT_STATE 2 0 prior
  match pageKind u with
  | .comb => if prior = UState.failed.code then back d u else d
  | .physComb => match carried d u with
    | some l => if stateIs d l .failed then back d l else d
    | none => d
  | _ => d

/-- A unit's own RESET or SELF_TEST ends. One whose domain has gone off meanwhile ends with POWER_OFF, and the unit stays OFF
(log entry 129, DESIGN CHOICE). -/
def ownEnd (d : Dev) (failed : List Nat) (u : Nat) : Dev :=
  if !runsOn d u then d
  else match smGet d.runs u with
    | none => d
    | some r =>
      let bad := failed.contains u
      if !unitOn d u then ownDone d u 7
      else if r.op = 4 then
        let d := if bad then wantSpare (setState d u .failed) u else testPassed d u r.prior
        ownDone d u (b2n bad)
      else if bad then ownDone (setState d u .failed) u 1
      else ownDone (resetEnd d u) u 0

/-- A unit and its members end what they run, members first. -/
def endTree : Nat → List Nat → Dev → Nat → Dev
  | 0, _, d, _ => d
  | n + 1, failed, d, u => ownEnd ((members d u).foldl (fun d m => endTree n failed d m) d) failed u

/-- A domain has switched (R54, R498). -/
def switchDone (d : Dev) (n : Nat) : Dev :=
  match d.pwr.switches.find? fun w => w.dom == n with
  | none => d
  | some w =>
    let d := { d with pwr := { d.pwr with switches := d.pwr.switches.filter fun x => x.dom != n } }
    let d := if w.on then markDom d n true else domsOff d n
    match w.unit with
    | none =>
      let d := if w.on then (fedBy d n).foldl resetEnd d else d
      wrN d pPwr Reg.PWR_DOM_STATUS (256 * (w.seq % 256))
    | some u =>
      if !w.on then ownDone d u 0
      else
        let others := (fedBy d n).filter fun q => q != u && !(members d u).contains q
        let d := others.foldl resetEnd d
        match smGet d.runs u with
        | none => d
        | some r =>
          let ms := members d u
          let d := { d with runs := smPut d.runs u { r with left := r.left ++ ms } }
          let d := ms.foldl (fun d m => issueCmd 4 (fun _ => true) d m 1 r.seq 4 (some u) true) d
          setState d u .resetting

/-! ## Events (R56, R57) -/

/-- Does a member have a bit set that its mask lets through? -/
def masked (d : Dev) (m : Nat) : Bool :=
  (rd d m Reg.UNIT_EVENTS &&& rd d m Reg.UNIT_EVENT_MASK) != 0

/-- MEMBER_EVENT of a unit follows its members; ALERT_N follows the device page's (R56, R508) (log entry 42, DEDUCED). -/
def propagate (d : Dev) (u : Nat) : Dev :=
  let b := (members d u).any (masked d)
  let d := wrF d u Reg.UNIT_EVENTS 16 16 (b2n b)
  if u = pDev then hltSync { d with pins := { d.pins with alertN := b } } else d

/-! ## The meanings -/

/-- NOP at a unit (R51). -/
def execUnitNop (path : BitVec 13) (seq : BitVec 8) (s : State) : Host.Outcome State Fault Refusal :=
  onDev s fun d => commandRow d path.toNat 0 seq.toNat 0

/-- RESET of a unit (R51, R53, R436). -/
def execUnitReset (path : BitVec 13) (seq : BitVec 8) (reason : Fin 16) (s : State) : Host.Outcome State Fault Refusal :=
  onDev s fun d => commandRow d path.toNat 1 seq.toNat reason.val

/-- QUIESCE (R51, R55). -/
def execQuiesce (path : BitVec 13) (seq : BitVec 8) (reason : Fin 16) (s : State) : Host.Outcome State Fault Refusal :=
  onDev s fun d => commandRow d path.toNat 2 seq.toNat reason.val

/-- RESUME of a unit (R51). -/
def execUnitResume (path : BitVec 13) (seq : BitVec 8) (s : State) : Host.Outcome State Fault Refusal :=
  onDev s fun d => commandRow d path.toNat 3 seq.toNat 0

/-- SELF_TEST (R51, R523). -/
def execSelfTest (path : BitVec 13) (seq : BitVec 8) (reason : Fin 16) (s : State) : Host.Outcome State Fault Refusal :=
  onDev s fun d => commandRow d path.toNat 4 seq.toNat reason.val

/-- CLEAR_EVENTS (R51, R57). -/
def execClearEvents (path : BitVec 13) (seq : BitVec 8) (s : State) : Host.Outcome State Fault Refusal :=
  onDev s fun d => commandRow d path.toNat 5 seq.toNat 0

/-- POWER_OFF (R51, R498). -/
def execPowerOff (path : BitVec 13) (seq : BitVec 8) (reason : Fin 16) (s : State) : Host.Outcome State Fault Refusal :=
  onDev s fun d => commandRow d path.toNat 6 seq.toNat reason.val

/-- POWER_ON (R51, R498). -/
def execPowerOn (path : BitVec 13) (seq : BitVec 8) (s : State) : Host.Outcome State Fault Refusal :=
  onDev s fun d => commandRow d path.toNat 7 seq.toNat 0

/-- RESET or SELF_TEST ends at a unit and its members; `failed` are the units whose own part fails (R54, R436, R523). -/
def execUnitCommandComplete (path : BitVec 13) (failed : List (BitVec 13)) (s : State) : Host.Outcome State Fault Refusal :=
  onDev s fun d => endTree 4 (failed.map BitVec.toNat) d path.toNat

/-- A change reaches the summary of a unit (R56). -/
def execMemberEventPropagate (path : BitVec 13) (s : State) : Host.Outcome State Fault Refusal :=
  onDev s fun d => if present d.fuses path.toNat then propagate d path.toNat else d

/-- A domain has switched (R498). -/
def execDomainSwitchDone (domain : Fin 80) (s : State) : Host.Outcome State Fault Refusal :=
  onDev s fun d => switchDone d domain.val

end Sys2Proof.Machine
end

