-- ==== Sys2Proof/Machine/Access.lean ====
section
/-! DEFINITION. Who may reach a unit's page (02 R62 to R64, 19 R490, 21 R514), and gates for commands that arrive as writes of
one register. -/

namespace Sys2Proof.Machine

/-- The rights of a grant (Table 19-8). -/
inductive Right where
  | read | write | test | admin
  deriving DecidableEq, Repr

/-- Does a grant carry a right? -/
def grantHas (g : GrantEntry) : Right → Bool
  | .read => g.read | .write => g.write | .test => g.test | .admin => g.admin

/-- Does a grant apply to a requester at a unit path (R490)? -/
def grantApplies (g : GrantEntry) (r : Requester) (u : Nat) : Bool :=
  ((r ^^^ g.requester) &&& g.reqMask) == 0 && decide (g.pathLo ≤ u) && decide (u ≤ g.pathHi)

/-- Does the propolis table grant a requester a right over a unit? -/
def granted (pr : Propolis) (r : Requester) (right : Right) (u : Nat) : Bool :=
  pr.grants.any fun e => grantHas e.2 right && grantApplies e.2 r u

/-- Does a requester hold ADMIN? -/
def isAdmin (pr : Propolis) (r : Requester) : Bool :=
  pr.grants.any fun e => e.2.admin && ((r ^^^ e.2.requester) &&& e.2.reqMask) == 0

/-- Kind of a requester (R63): 0 firmware, 1 Hexvan, 2 I3C, 3 Bollum. -/
def reqKind (r : Requester) : Nat := r.toNat / 4096

/-- The firmware requester of a component. -/
def fwReq (component : Nat) : Requester := BitVec.ofNat 16 component

/-- Registers that one firmware component alone may write: the scheduler's names (R389), the count mask (R512), the policies
(R493), CXL_MODE (Table 10-10). -/
def soleWriter (u off : Nat) : Option Requester :=
  match pageKind u with
  | .partition => if off = Reg.CTL_SCHED_NEXT ∨ off = Reg.CTL_SCHED_SLICE then some (fwReq 1) else none
  | .device => if off = Reg.CTL_HLT_COUNT_MASK then some (fwReq 4) else none
  | .block 12 => if off = Reg.SEC_POLICY ∨ off = Reg.SEC_LINK_POLICY then some (fwReq 0) else none
  | .block 7 => if off = Reg.CXL_MODE then some (fwReq 2) else none
  | _ => none

/-- May a firmware component write the register at an offset of a page: the page stands in its row of Table 15-8b (R392, which
bounds firmware by R64), or the rule of the register names the component (R463)? The boot ROM and the numbers without a row write nothing (log entry 133, DESIGN CHOICE). -/
def fwMayWrite (component u off : Nat) : Bool :=
  match component, pageKind u with
  | 0, .block b => b == 12 || b == 0
  | 1, .partition =>
    [Reg.CTL_SCHED_NEXT, Reg.CTL_SCHED_SLICE, Reg.CTL_SCHED_CFG, Reg.CTL_SCHED_EVENTS, Reg.CTL_KILL_REQ, Reg.CTL_FRAME_NEXT,
      Reg.CTL_FRAME_SWITCH, Reg.CTL_FRAME_SWITCH + 4].contains off || off == Reg.UNIT_CMD
  | 1, .block b => b == 5 || off == Reg.UNIT_CMD
  | 1, _ => off == Reg.UNIT_CMD
  | 2, .block b => [4, 3, 6, 7].contains b
  | 3, .block b => b == 8 || b == 10 || (b == 2 && (off == Reg.SWM_VOTES || off == Reg.SWM_GROUP || off == Reg.SWM_COL_SEL))
  | 3, .device => [Reg.BOL_PLACE, Reg.BOL_POD_SHAPE, Reg.BOL_FABRIC_CFG, Reg.BOL_EVENTS, Reg.BOL_HALL_PREFIX,
      Reg.BOL_HALL_PREFIX + 4, Reg.BOL_HALL_PREFIX + 8].contains off
  | 3, .partition => off == Reg.CTL_KILL_REQ
  | 4, .block b => b == 14 || b == 13 || (b == 11 && off == Reg.TIM_LS_CTL) || off == Reg.UNIT_CMD || off == Reg.UNIT_EVENT_MASK
  | 4, .partition => off == Reg.CTL_KILL_REQ || off == Reg.UNIT_CMD || off == Reg.UNIT_EVENT_MASK
  | 4, .device => off == Reg.CTL_HLT_COUNT_MASK || off == Reg.UNIT_CMD || off == Reg.UNIT_EVENT_MASK
  | 4, _ => off == Reg.UNIT_CMD || off == Reg.UNIT_EVENT_MASK
  | _, _ => false

/-- May a firmware component write this value: the scheduler commands QUIESCE and RESUME only, the fabric manager agent kills with
reason 3, the health agent with reasons 2 and 5 (Table 15-8b)? -/
def fwMayValue (component u off v : Nat) : Bool :=
  if off = Reg.UNIT_CMD then component != 1 || v % 16 == 2 || v % 16 == 3
  else match pageKind u with
    | .partition =>
      let reason := v / 256 % 16
      if off = Reg.CTL_KILL_REQ then component == 1 || (component == 3 && reason == 3) || (component == 4 && (reason == 2 || reason == 5))
      else true
    | _ => true

/-- Registers that I3C may read besides the device page (Table 21-4): unit, offset, bytes. -/
def i3cRegs : List (Nat × Nat × Nat) :=
  [(pTim, Reg.TIM_HALL_TIME, 8), (pTim, Reg.TIM_STATUS, 4), (pPwr, Reg.PWR_STATUS, 4), (pPwr, Reg.PWR_PKG_LIMIT, 4),
    (pPwr, Reg.PWR_PKG_POWER, 4), (pBup, Reg.BUP_STATUS, 4), (pBup, Reg.BUP_LAST_FAIL, 4)]
  ++ (List.range 8).map fun i => (pMem i, Reg.MEM_STATE, 4)

/-- May I3C read `n` bytes at an offset of a page (R514)? -/
def i3cMayRead (u off n : Nat) : Bool :=
  u == pDev || i3cRegs.any fun r => r.1 == u && decide (r.2.1 ≤ off) && decide (off + n ≤ r.2.1 + r.2.2)

/-- May I3C write 4 bytes at an offset of a page (R64, R514)? -/
def i3cMayWrite (u off : Nat) : Bool := (u == pDev && off == Reg.CTL_HLT_EVENTS) || (u == pPwr && off == Reg.PWR_PKG_LIMIT)

/-- May a requester write `n` bytes at an offset of a page (R64)? Firmware is bounded by its memory protection (R392). -/
def mayWrite (pr : Propolis) (r : Requester) (u off n : Nat) : Bool :=
  let sole := (List.range (n / 4)).all fun i => match soleWriter u (off + 4 * i) with
    | some w => decide (r = w)
    | none => true
  sole && match reqKind r with
    | 0 => (List.range (n / 4)).all fun i => fwMayWrite r.toNat u (off + 4 * i)
    | 1 => granted pr r .write u
    | 2 => n == 4 && i3cMayWrite u off
    | _ => false

/-- May a requester read `n` bytes at an offset of a page (R64)? Headers are open to the host and to firmware. -/
def mayRead (pr : Propolis) (r : Requester) (u off n : Nat) : Bool :=
  match reqKind r with
  | 0 => true
  | 1 => decide (off < 0x100) || granted pr r .read u
  | 2 => i3cMayRead u off n
  | _ => false

/-- Bytes of an access. -/
def accBytes (wide : Bool) : Nat := if wide then 8 else 4

/-- Why an access is refused (Table 02-13), checked in the order alignment, address, permission, power, reset; 0 when it is
accepted (R61, R62, R412). -/
def accessCode (d : Dev) (pr : Propolis) (r : Requester) (u off : Nat) (wide write : Bool) : Nat :=
  let n := accBytes wide
  if off % n ≠ 0 then 3
  else if !present d.fuses u then 1
  else if !(if write then mayWrite pr r u off n else mayRead pr r u off n) then 2
  else if !unitOn d u then
    if n = 4 ∧ (if write then off = Reg.UNIT_CMD
      else off = Reg.UNIT_ID ∨ off = Reg.UNIT_STATE ∨ off = Reg.UNIT_CMD_STATUS ∨ off = Reg.UNIT_POWER) then 0 else 4
  else if write ∧ 0x100 ≤ off ∧ stateIs d u .resetting then 5
  else 0

/-- Records a refusal at its page, or at the device page when no unit is there (R62). -/
def refuseAccess (d : Dev) (r : Requester) (u off code : Nat) (write : Bool) : Dev :=
  accessErr d (if present d.fuses u then u else pDev) off code write r

/-- A command that is the write of one 32-bit register: it acts when the access is accepted. -/
def gated (pr : Propolis) (d : Dev) (r : Requester) (u off : Nat) (g : Dev → Dev) : Dev :=
  let code := accessCode d pr r u off false true
  if code = 0 then g d else refuseAccess d r u off code true

/-- A write that also needs TEST over the unit (21, Injection). -/
def gatedTest (pr : Propolis) (d : Dev) (r : Requester) (u off : Nat) (g : Dev → Dev) : Dev :=
  gated pr d r u off fun d => if granted pr r .test u then g d else refuseAccess d r u off 2 true

end Sys2Proof.Machine
end

