-- ==== Sys2Proof/Machine/Clock.lean ====
section
/-! DEFINITION. Frame lengths and the arithmetic clock (01 R12, R33 to R36, R524; 20 R499), duty (20 R500, R502), and the power
and thermal samples (20 R501 to R504). -/

namespace Sys2Proof.Machine

/-! ## Frame lengths -/

/-- The first multiple of a length at least 1 ms ahead (R33). -/
def switchTime (d : Dev) (exp : Nat) : Nat := roundUp (d.hall + 1000000) (frameLen exp)

/-- The length that R35 requires of an image at a clock: one doubling when the clock is below the compiled one. -/
def needExp (i : Image) (clock : Nat) : Nat := i.frameExp + b2n (decide (i.clock < clock))

/-- The largest length that the partition's images require at a clock; 0 when none is loaded (log entry 68, DEDUCED). -/
def partNeed (d : Dev) (p clock : Nat) : Nat := (images d p).foldl (fun n e => max n (needExp e.2 clock)) 0

/-- Clock code in force. -/
def clockCode (d : Dev) : Nat := rdF d pPwr Reg.PWR_STATUS 1 0

/-- Is a clock switch armed? Its code and time. -/
def clockArmed (d : Dev) : Option (Nat × Nat) :=
  if rdB d pPwr Reg.PWR_CLOCK_NEXT 8 then some (rdF d pPwr Reg.PWR_CLOCK_NEXT 1 0, rdN d pPwr Reg.PWR_CLOCK_SWITCH) else none

/-- The slowest clock in force or armed (a larger code is slower). -/
def slowClock (d : Dev) : Nat := max (clockCode d) (((clockArmed d).map Prod.fst).getD 0)

/-- Is a frame-length switch armed? Its length and time. -/
def frameArmed (d : Dev) (p : Nat) : Option (Nat × Nat) :=
  if rdB d (pPart p) Reg.CTL_FRAME_NEXT 8 then
    some (rdF d (pPart p) Reg.CTL_FRAME_NEXT 2 0, rdN d (pPart p) Reg.CTL_FRAME_SWITCH)
  else none

/-- SWITCH_REFUSED (R36). -/
def switchRefused (d : Dev) (p : Nat) : Dev :=
  event d (pPart p) Reg.CTL_FRAME_STATUS 5 Reg.CTL_EVT_SWITCH_REFUSED

/-- Would a length from a time on put an armed clock switch off a tick? -/
def offClock (d : Dev) (exp from_ : Nat) : Bool :=
  match clockArmed d with
  | some (_, t) => decide (from_ ≤ t) && decide (t % frameLen exp ≠ 0)
  | none => false

/-- A write to CTL_FRAME_SWITCH (R36). -/
def writeFrameSwitch (d : Dev) (p t : Nat) : Dev :=
  let next := rdF d (pPart p) Reg.CTL_FRAME_NEXT 2 0
  if t % frameLen (frameExp d p) ≠ 0 ∨ t % frameLen next ≠ 0 ∨ t < d.hall + 1000000 ∨ offClock d next t then switchRefused d p
  else wrN d (pPart p) Reg.CTL_FRAME_SWITCH t

/-- A write to CTL_FRAME_NEXT: FRAME_EXP_NEXT 7 is refused; an arming, and a change of the length of an armed switch, are checked
under R36. -/
def writeFrameNext (d : Dev) (p v : Nat) : Dev :=
  let n := nbits v 2 0
  let arm := bitAt v 8
  let u := pPart p
  if n = 7 then d
  else
    let compiled := (images d p).foldl (fun m e => max m e.2.frameExp) 0
    let bad := (arm || rdB d u Reg.CTL_FRAME_NEXT 8) && (decide (n < compiled) || decide (n < partNeed d p (slowClock d)) || offClock d n (rdN d u Reg.CTL_FRAME_SWITCH))
    if bad then switchRefused d p
    else
      let d := wrF (wrF d u Reg.CTL_FRAME_NEXT 2 0 n) u Reg.CTL_FRAME_NEXT 16 16 (b2n (bitAt v 16))
      if arm then wrF d u Reg.CTL_FRAME_NEXT 8 8 1 else d

/-- Arms a frame-length switch, and sets ESCALATED (R33, R35). -/
def armSwitch (d : Dev) (p exp t : Nat) : Dev :=
  let u := pPart p
  let d := wrN (wrF (wrF d u Reg.CTL_FRAME_NEXT 2 0 exp) u Reg.CTL_FRAME_NEXT 8 8 1) u Reg.CTL_FRAME_SWITCH t
  event d u Reg.CTL_FRAME_STATUS 2 Reg.CTL_EVT_ESCALATED

/-- Halts a partition whose frame cannot be longer (R34). -/
def exhausted (d : Dev) (p : Nat) : Dev := haltWith d p 1 (leBytes 2 (frameNum d p))

/-- Escalation of one partition (R33): the length doubles at the first common tick at least 1 ms ahead; an armed switch is
replaced by the longer of the two, with the time of this decision. -/
def escalate (d : Dev) (p : Nat) : Dev :=
  let cur := frameExp d p + 1
  let e := match frameArmed d p with
    | some (n, _) => max n cur
    | none => cur
  if 6 < e then exhausted d p else armSwitch d p e (switchTime d e)

/-- At a tick, an armed switch of this time takes effect (R36). -/
def frameSwitchDue (d : Dev) (p t : Nat) : Dev :=
  match frameArmed d p with
  | some (n, ts) =>
    if ts = t then wrF (wrF d (pPart p) Reg.CTL_FRAME_ACTIVE 2 0 n) (pPart p) Reg.CTL_FRAME_NEXT 8 8 0 else d
  | none => d

/-! ## The clock (R499) -/

/-- The frame-length switch that a slower clock needs of a partition by the procedure of R33: none, or length and time; a length
above 6 halts it. It replaces an armed switch, also one that would leave the frames shorter than the clock allows. -/
def clockSwitchOf (d : Dev) (p clock : Nat) : Option (Nat × Nat) :=
  let need := partNeed d p clock
  match frameArmed d p with
  | some (n, _) =>
    if need ≤ frameExp d p ∧ need ≤ n then none else some (max n need, switchTime d (max n need))
  | none => if need ≤ frameExp d p then none else some (need, switchTime d need)

/-- The length of a partition at a time, counting armed and required switches. -/
def expAt (d : Dev) (p clock t : Nat) : Nat :=
  match clockSwitchOf d p clock with
  | some (n, ts) => if ts ≤ t then n else frameExp d p
  | none => match frameArmed d p with
    | some (n, ts) => if ts ≤ t then n else frameExp d p
    | none => frameExp d p

/-- Does a switch time meet the conditions of R499? -/
def clockTimeOk (d : Dev) (clock t : Nat) : Bool :=
  let longest := (List.range 16).foldl (fun m p => max m (expAt d p clock t)) 0
  decide (d.hall + 1000000 ≤ t) && decide (t % frameLen longest = 0)
    && (List.range 16).all fun p => match clockSwitchOf d p clock with
      | some (n, ts) => decide (6 < n) || decide (ts ≤ t)
      | none => true

/-- A write to PWR_CLOCK_NEXT: value 3 is refused; ARM arms the switch, with the frame-length switches that R35 requires. -/
def writeClockNext (d : Dev) (v : Nat) : Dev :=
  let n := nbits v 1 0
  if n = 3 then d
  else if !bitAt v 8 then wrF d pPwr Reg.PWR_CLOCK_NEXT 1 0 n
  else
    let t := rdN d pPwr Reg.PWR_CLOCK_SWITCH
    if !clockTimeOk d n t then
      event (wrF (wrF d pPwr Reg.PWR_CLOCK_NEXT 1 0 n) pPwr Reg.PWR_CLOCK_NEXT 8 8 0) pPwr Reg.PWR_EVENTS 3 Reg.PWR_EVT_CLOCK_REFUSED
    else
      let ss := (List.range 16).filterMap fun p => (clockSwitchOf d p n).map fun s => (p, s)
      let d := ss.foldl (fun d s =>
        if 6 < s.2.1 then exhausted d s.1 else armSwitch d s.1 s.2.1 s.2.2) d
      wrF (wrF d pPwr Reg.PWR_CLOCK_NEXT 1 0 n) pPwr Reg.PWR_CLOCK_NEXT 8 8 1

/-- At a tick an armed clock switch of this time takes effect (R499). -/
def clockDue (d : Dev) (t : Nat) : Dev :=
  match clockArmed d with
  | some (n, ts) =>
    if ts ≤ t then
      let d := wrF (wrF d pPwr Reg.PWR_STATUS 1 0 n) pPwr Reg.PWR_CLOCK_NEXT 8 8 0
      event d pPwr Reg.PWR_EVENTS 4 Reg.PWR_EVT_CLOCK_CHANGE
    else d
  | none => d

/-! ## Domains and duty -/

/-- The unit whose frame a domain switch waits for (R498). -/
def domFrame (d : Dev) (n : Nat) : Option Nat := (fedBy d n).findSome? fun u => frameOwner d u

/-- A request through PWR_DOM_CTL for the domain in PWR_DOM_SEL (R498). -/
def domControl (d : Dev) (on : Bool) (seq : Nat) : Dev :=
  let n := rdF d pPwr Reg.PWR_DOM_SEL 6 0
  match domRefuse d n on with
  | some r => wrN d pPwr Reg.PWR_DOM_STATUS (256 * (seq % 256) + 65536 * r)
  | none =>
    match (if on then none else domFrame d n) with
    | none => { d with pwr := { d.pwr with switches := d.pwr.switches ++ [⟨n, on, none, seq⟩] } }
    | some p =>
      let now := !(partOf d p).cutTaken
      modPart (fileKill d p 4) p fun t => { t with deferred := t.deferred ++ [⟨8192 + n, 6, seq, now⟩] }

/-- A deferred command acts at its tick (R55); a path of 8192 or more is a domain of PWR_DOM_CTL. -/
def actDeferred (d : Dev) (e : Deferred) : Dev :=
  if e.path < 8192 then
    match smGet d.runs e.path with
    | some r => if r.op = e.op ∧ r.left.contains e.path then actUnit d e.path e.op e.seq else d
    | none => d
  else { d with pwr := { d.pwr with switches := d.pwr.switches ++ [⟨e.path - 8192, false, none, e.seq⟩] } }

/-- A write to PWR_DUTY for the partition in PWR_DUTY_SEL: D of 1 to 16, in force at its next tick (R500). -/
def writeDuty (d : Dev) (v : Nat) : Dev :=
  let n := nbits v 4 0
  let p := rdF d pPwr Reg.PWR_DUTY_SEL 3 0
  if n = 0 ∨ 16 < n then d else { d with pwr := { d.pwr with dutyPend := smPut d.pwr.dutyPend p n } }

/-- At a tick a partition's D takes effect. -/
def dutyDue (d : Dev) (p : Nat) : Dev :=
  match smGet d.pwr.dutyPend p with
  | some n => { d with pwr := { d.pwr with duty := smPutD 16 d.pwr.duty p n, dutyPend := smDel d.pwr.dutyPend p } }
  | none => d

/-- The cycles withheld in a frame that ends (R500) (log entry 94, DEDUCED). -/
def capCycles (d : Dev) (p : Nat) : Dev :=
  if (partCombs d p).isEmpty then d
  else bump d pPwr Reg.PWR_CAP_CYCLES (frameLen (frameExp d p) * clockNow d / 1000 / 16 * (16 - dutyEff d p))

/-! ## Samples (R501, R503, R504) -/

/-- POWER_SAMPLE: the mean power of a 100 µs sample. -/
def powerSampled (d : Dev) (w : Nat) : Dev :=
  let w := min w 4095
  let limit := rdF d pPwr Reg.PWR_PKG_LIMIT 11 0
  let ss := (w :: d.pwr.samples).take 100
  let above := if limit < w then d.pwr.above + 1 else 0
  let calm := if 10 * w ≤ 9 * limit then d.pwr.calm + 1 else 0
  let d := { d with pwr := { d.pwr with samples := ss, above := above, calm := calm } }
  let d := wrN d pPwr Reg.PWR_PKG_POWER (w + 65536 * (ss.foldl (· + ·) 0 / ss.length))
  let on := rdB d pPwr Reg.PWR_STATUS 2
  if !on ∧ (2400 < w ∨ 100 ≤ above) then
    event (wrF d pPwr Reg.PWR_STATUS 2 2 1) pPwr Reg.PWR_EVENTS 0 Reg.PWR_EVT_FAST_THROTTLE
  else if on ∧ 10 ≤ calm then wrF d pPwr Reg.PWR_STATUS 2 2 0
  else d

/-- The throttle group of a sensor: compute die 0 to 3, I/O die 4 and 5, stack as 6 + i. -/
def sensorGroup (s : Nat) : Nat := if s < 48 then s / 12 else if s < 56 then 4 + (s - 48) / 4 else 6 + (s - 56)

/-- Warn, throttle and critical thresholds of a group in 0.25 °C (Table 20-4). -/
def thermal (g : Nat) : Int × Int × Int := if g < 6 then (380, 400, 440) else (340, 380, 420)

/-- The bit of PWR_STATUS that shows a group's throttle. -/
def throttleBit (g : Nat) : Nat := if g < 4 then 3 + g else if g < 6 then 7 + (g - 4) else 16 + (g - 6)

/-- Does an address lie in the windows of Tier C, or of Tier F, whose devices hold their bytes on their own? -/
def inWindow (f : Bool) (a : Nat) : Bool :=
  if f then decide (0x40000000000 ≤ a) && decide (a < 0x80000000000) else decide (0x10000000000 ≤ a) && decide (a < 0x30000000000)

/-- The device with every volatile state gone: fuses, journal, poison lists, row maps and retired stacks stay (R446), and what
the CXL devices hold: Tier F, which is persistent, and over a device reset Tier C too (R253, R263). -/
def volatileGone (d : Dev) (reset : Bool) : Dev :=
  let b := Dev.blank d.fuses d.bup.journal
  let stay := fun (a : Nat) => inWindow true a || (reset && inWindow false a)
  { b with
    freeSeq := d.freeSeq
    mem := d.mem.filter fun e => stay e.1
    marks := d.marks.filter fun e => stay e.1 && !e.2.injected
    tier := { b.tier with
      poison := d.tier.poison
      rows := d.tier.rows.map fun e => (e.1, e.2.map fun r => { r with copying := false })
      retire := d.tier.retire } }

/-- The package goes off: every domain and every rail, and what they held (R496). -/
def powerDown (d : Dev) : Dev :=
  let b := volatileGone d false
  { b with pins := { b.pins with resetReleased := d.pins.resetReleased, thermtripN := d.pins.thermtripN } }

/-- A sensor of the part. -/
def sensorThere (f : Fuses) (s : Nat) : Bool := decide (s < 56) || f.stack (s - 56)

/-- THERMAL_SAMPLE: 64 readings in 0.25 °C. -/
def thermalSampled (d : Dev) (rs : List Int) : Dev :=
  let l := (rs.take 64).zipIdx.filter fun e => sensorThere d.fuses e.2
  let old := d.pwr.temps
  let warns := (l.filter fun e => decide ((thermal (sensorGroup e.2)).1 ≤ e.1)
    && decide (smGetD 0 old e.2 < (thermal (sensorGroup e.2)).1)).length
  let hot := (List.range 14).filter fun g => !rdB d pPwr Reg.PWR_STATUS (throttleBit g)
    && l.any fun e => sensorGroup e.2 == g && decide ((thermal g).2.1 ≤ e.1)
  let cool := (List.range 14).foldl (fun m g =>
    let calm := (l.filter fun e => sensorGroup e.2 == g).all fun e => decide (e.1 + 20 ≤ (thermal g).2.1)
    smPutD 0 m g (if calm then smGetD 0 d.pwr.cool g + 1 else 0)) d.pwr.cool
  let d := { d with pwr := { d.pwr with temps := l.foldl (fun m e => smPutD 0 m e.2 e.1) old, cool := cool } }
  let d := events d pPwr Reg.PWR_EVENTS 1 Reg.PWR_EVT_THERM_WARN warns
  let d := hot.foldl (fun d g => wrF d pPwr Reg.PWR_STATUS (throttleBit g) (throttleBit g) 1) d
  let d := events d pPwr Reg.PWR_EVENTS 2 Reg.PWR_EVT_THERM_THROTTLE hot.length
  let top := l.foldl (fun (m : Int × Nat) e => if m.1 < e.1 then e else m) (l.headD (0, 0))
  let d := if l.isEmpty then d else wrN d pPwr Reg.PWR_TEMP_PEAK ((top.1 % 65536).toNat + 65536 * top.2)
  if l.any fun e => decide ((thermal (sensorGroup e.2)).2.2 ≤ e.1) then
    powerDown { d with pins := { d.pins with thermtripN := true } }
  else d

/-- THROTTLE_RELEASE: 10 ms of readings at least 5 °C below the threshold, which is 100 samples. -/
def throttleReleased (d : Dev) (g : Nat) : Dev :=
  if 100 ≤ smGetD 0 d.pwr.cool g then wrF d pPwr Reg.PWR_STATUS (throttleBit g) (throttleBit g) 0 else d

/-! ## The meanings -/

/-- CLOCK_SWITCH_ARM: a write to PWR_CLOCK_NEXT (R499). -/
def execClockSwitchArm (requester : Requester) (value : W32) (s : State) : Host.Outcome State Fault Refusal :=
  onDevP s fun pr d => gated pr d requester pPwr Reg.PWR_CLOCK_NEXT fun d => writeClockNext d value.toNat

/-- FRAME_SWITCH_ARM: a write to CTL_FRAME_NEXT (R36). -/
def execFrameSwitchArm (p : Fin 16) (requester : Requester) (value : W32) (s : State) : Host.Outcome State Fault Refusal :=
  onDevP s fun pr d => gated pr d requester (pPart p.val) Reg.CTL_FRAME_NEXT fun d => writeFrameNext d p.val value.toNat

/-- DOMAIN_ON through PWR_DOM_CTL (R498). -/
def execDomainOn (requester : Requester) (seq : BitVec 8) (s : State) : Host.Outcome State Fault Refusal :=
  onDevP s fun pr d => gated pr d requester pPwr Reg.PWR_DOM_CTL fun d => domControl d true seq.toNat

/-- DOMAIN_OFF through PWR_DOM_CTL (R498). -/
def execDomainOff (requester : Requester) (seq : BitVec 8) (s : State) : Host.Outcome State Fault Refusal :=
  onDevP s fun pr d => gated pr d requester pPwr Reg.PWR_DOM_CTL fun d => domControl d false seq.toNat

/-- A write to PWR_DUTY (R500). -/
def execPwrDuty (requester : Requester) (value : W32) (s : State) : Host.Outcome State Fault Refusal :=
  onDevP s fun pr d => gated pr d requester pPwr Reg.PWR_DUTY fun d => writeDuty d value.toNat

/-- A 100 µs power sample (R501). -/
def execPowerSample (watts : Nat) (s : State) : Host.Outcome State Fault Refusal :=
  onDev s fun d => powerSampled d watts

/-- A 100 µs thermal sample (R503, R504). -/
def execThermalSample (readings : List Int) (s : State) : Host.Outcome State Fault Refusal :=
  onDev s fun d => thermalSampled d readings

/-- A thermal throttle releases (R503). -/
def execThrottleRelease (sensorGroup : Fin 14) (s : State) : Host.Outcome State Fault Refusal :=
  onDev s fun d => throttleReleased d sensorGroup.val

end Sys2Proof.Machine
end

