-- ==== Sys2Proof/Machine/Image.lean ====
section
/-! DEFINITION. Mould images as bytes: header and section table (01 R41, R42), command blocks and records (04 R94 to R98, R107),
the slot table (07 R170, R171; 08 R196 to R199; 12 R311; 14 R353, R362), the Forager schedule (10 R267), reservations (15 R375,
09 R237, 11 R289), the commit map (13 R341) and the initial object table (11 R521): the checks of their formats, which give
LOAD_ERR 1, and the image they spell. -/

namespace Sys2Proof.Machine

/-! ## Fields -/

/-- Are all bits of a value outside the given fields zero? -/
def onlyBits (v : Nat) (fs : List (Nat × Nat)) : Bool :=
  v == fs.foldl (fun n f => n ||| (nbits v f.1 f.2 * 2 ^ f.2)) 0

/-- Are `n` bytes from an offset zero? -/
def zeroBytes (l : List Byte) (o n : Nat) : Bool := (sliceBytes l o n).all (· == 0)

/-- Does a value lie in a range? -/
def inRange (v lo hi : Nat) : Bool := decide (lo ≤ v) && decide (v ≤ hi)

/-- Entries of a fixed size in a section, by offset and count. -/
def entriesAt (l : List Byte) (off n size : Nat) : List (List Byte) :=
  (List.range n).map fun i => sliceBytes l (off + size * i) size

/-- Do keys rise, strictly or not? -/
def rising (strict : Bool) : List Nat → Bool
  | a :: b :: l => (if strict then decide (a < b) else decide (a ≤ b)) && rising strict (b :: l)
  | _ => true

/-! ## Header and section table (R41, R42) -/

/-- The section table: raw entries of 32 bytes. -/
def secTable (l : List Byte) : List (List Byte) := entriesAt l (leAt l 0x38 8) (leAt l 0x34 4) 32

/-- The section of a type: offset, length and ENTRY_COUNT. -/
def secOf (l : List Byte) (t : Nat) : Option (Nat × Nat × Nat) :=
  ((secTable l).find? fun e => leAt e 0 2 == t).map fun e => (leAt e 8 8, leAt e 16 8, leAt e 4 4)

/-- The bytes of a section; none when it is absent. -/
def secBytes (l : List Byte) (t : Nat) : List Byte :=
  match secOf l t with
  | some s => sliceBytes l s.1 s.2.1
  | none => []

/-- The section types of Table 01-6. -/
def secTypes : List Nat := [1, 2, 3, 4, 5, 6, 0xF0]

/-- REMOTE of the header. -/
def imgRemote (l : List Byte) : Bool := bitAt (leAt l 0x1C 4) 1

/-- Step 1 of R43: MAGIC, FORMAT_VERSION, HEADER_SIZE, reserved bytes and the section table. `avail` is how many bytes the
buffer holds from the image's start. -/
def headerOk (l : List Byte) (avail : Nat) : Bool :=
  let size := leAt l 8 8
  let n := leAt l 0x34 4
  decide (256 ≤ l.length) && leAt l 0 4 == 0x444C4D59 && leAt l 4 2 == 1 && leAt l 6 2 == 256
    && inRange size 256 avail && onlyBits (leAt l 0x1C 4) [(1, 0)] && zeroBytes l 0x74 140
    && decide (leAt l 0x38 8 + 32 * n ≤ size)
    && (secTable l).zipIdx.all (fun e =>
      let t := leAt e.1 0 2
      let off := leAt e.1 8 8
      let len := leAt e.1 16 8
      secTypes.contains t && leAt e.1 2 2 == 0 && zeroBytes e.1 24 8
        && (if t = 0xF0 then decide (e.2 + 1 = n) && off == size && decide (size + len ≤ avail) else decide (off + len ≤ size)))
    && secTypes.all (fun t => decide (((secTable l).filter fun e => leAt e 0 2 == t).length ≤ 1))
    && [1, 3, 4, 6].all (fun t => (secOf l t).isSome) && (secOf l 5).isSome == imgRemote l

/-- Ranges of the header's fields, and LOOP_START of a LOOP image (R16). -/
def headerRanges (l : List Byte) : Bool :=
  inRange (leAt l 0x12 2) 1 32 && inRange (leAt l 0x14 1) 0 6 && inRange (leAt l 0x15 1) 0 2 && decide (1 ≤ leAt l 0x18 4)
    && (!bitAt (leAt l 0x1C 4) 0 || decide (leAt l 0x20 4 < leAt l 0x18 4))

/-! ## Command blocks (04) -/

/-- Is a sparse PASS one that R144 admits? -/
def sparseOk (mode a b param : Nat) (bcast : Bool) : Bool :=
  let m := mOf (nbits param 6 5)
  let n := nbits param 4 0
  let trans := bitAt param 7
  let aForm := bitAt param 15
  !bcast && fmtWidth a == fmtWidth b
    && (if mode = 1 then decide (0 < n) && decide (n < m) && !trans && !aForm else !(trans && aForm))

/-- Is a tier and class pairing served by a pool (R286)? -/
def classOk (tier cls : Nat) : Bool := (poolOf tier cls).isSome

/-- The load checks of a command record (R94, R95, R96, R107, R119, R127, R144, R286). OUT_FMT of a raw DRAIN is not one of them
(Table 04-8 against R119: log entry 143, DESIGN CHOICE). -/
def recordOk (r : List Byte) : Bool :=
  let w := fun i => leAt r (8 * i) 8
  let op := nbits (w 0) 7 0
  let rest := fun (fs : List (List (Nat × Nat))) => (List.range 7).all fun i => onlyBits (w (i + 1)) (fs.getD i [])
  let f := fun i hi lo => nbits (w i) hi lo
  onlyBits (w 0) [(9, 0), (20, 16), (28, 24), (63, 32)] && match op with
  | 0x00 => rest []
  | 0x01 => rest []
  | 0x02 => rest [] && bitAt (w 0) 9
  | 0x03 => rest []
  | 0x10 => rest [[(21, 0), (49, 32)], [(31, 0)]] && inRange (f 1 49 32) 1 131072
  | 0x11 => rest [[(21, 0), (49, 32)], [(31, 0)]] && inRange (f 1 49 32) 1 131072
  | 0x12 => rest [[(21, 0), (49, 32)], [(63, 0)]] && inRange (f 1 49 32) 1 131072
  | 0x20 =>
    rest [[(29, 0), (53, 32)], [(21, 0), (63, 32)], [(29, 0), (53, 32)], [(23, 0), (53, 32)], [(15, 0)]]
      && onlyBits (f 1 29 0) [(18, 0), (27, 20), (29, 28)] && decide (1 ≤ f 1 14 0) && decide (f 1 23 20 < 8) && decide (f 1 27 24 < 8)
      && (match f 4 23 22 with
        | 0 => (f 1 29 28 != 2 || f 1 14 0 % 2 == 0) && (f 1 29 28 != 3 || f 1 14 0 % 4 == 0)
        | 3 => false
        | m => sparseOk m (f 1 23 20) (f 1 27 24) (f 5 15 0) (bitAt (w 1) 17))
  | 0x21 =>
    rest [[(29, 0), (53, 32)], [(21, 0), (63, 32)], [(29, 0), (53, 32)], [(21, 0), (53, 32)], [(15, 0)]]
      && onlyBits (f 1 29 0) [(16, 0), (27, 20), (29, 28)] && decide (1 ≤ f 1 14 0) && decide (f 1 23 20 < 8) && decide (f 1 27 24 < 8)
      && (f 1 29 28 != 2 || f 1 14 0 % 2 == 0) && (f 1 29 28 != 3 || f 1 14 0 % 4 == 0)
  | 0x22 => rest [[(2, 0), (12, 4), (53, 32)], [(31, 0)], [(63, 0)]] && (bitAt (w 1) 2 || decide (f 1 7 4 < 8))
  | 0x30 => rest [[(8, 0), (51, 32)], [(21, 0), (53, 32)], [(21, 0), (53, 32)], [(31, 0)]]
      && decide (f 1 7 0 ≤ 12) && inRange (f 1 51 32) 1 1048575
  | 0x40 => rest [[(21, 0), (43, 32)], [(12, 0), (53, 32)]] && inRange (f 1 43 32) 1 2048
  | 0x41 => rest [[(21, 0), (43, 32)], [(58, 0)]] && inRange (f 1 43 32) 1 2048
  | 0x42 => rest [[(21, 0), (43, 32)], [(58, 0)]] && inRange (f 1 43 32) 1 2048
  | 0x43 => rest [[(4, 0), (53, 32)], [(58, 0)], [(63, 0)], [(63, 0)]] && decide (f 1 3 0 ≤ 6)
  | 0x44 => rest [[(23, 0)], [(58, 0)], [], [(63, 0)], [(63, 0)], [(63, 0)], [(63, 0)]]
  | 0x50 => rest [[(6, 0), (9, 8), (55, 32)]] && classOk (f 1 9 8) (f 1 6 4)
  | _ => false

/-- The records of a block. -/
def blockRecs (b : List Byte) : List (List Byte) := entriesAt b 0x100 (leAt b 0 2) 64

/-- The index of the END at which a stream that starts at a record ends. -/
def endOf (ops : List Nat) (start : Nat) : Option Nat :=
  ((List.range ops.length).drop start).find? fun j => ops.getD j 0 == 1

/-- The first and last records of the enabled streams; none for a stream without an END. -/
def streamSpans (b : List Byte) : List (Option (Nat × Nat)) :=
  let ops := (blockRecs b).map fun r => leAt r 0 1
  (blockStreams b).filter (·.enable) |>.map fun s =>
    (endOf ops s.start).map fun e => (s.start, e)

/-- Do no two spans share a number? -/
def disjoint : List (Nat × Nat) → Bool
  | [] => true
  | a :: l => (l.all fun b => decide (a.2 < b.1) || decide (b.2 < a.1)) && disjoint l

/-- Bytes of the block at an offset of its section. -/
def blockLen (sec : List Byte) (off : Nat) : Nat := 0x100 + 64 * leAt sec off 2

/-- The load checks of a block of a slice (R96, R97). -/
def blockOk (slice : Nat) (b : List Byte) : Bool :=
  inRange (leAt b 0 2) 1 1020 && decide (leAt b 2 1 ≤ 16) && zeroBytes b 3 1 && leAt b 4 4 == slice && zeroBytes b 8 56
    && (List.range 8).all (fun s => onlyBits (leAt b (0x40 + 8 * s) 8) [(12, 0), (31, 16), (53, 32)])
    && (List.range (leAt b 2 1)).all (fun i => onlyBits (leAt b (0x80 + 8 * i) 8) [(3, 0), (31, 8)])
    && (blockRecs b).all recordOk && (streamSpans b).all Option.isSome && disjoint ((streamSpans b).filterMap id)

/-- A block of the image. -/
def readBlock (slice cell : Nat) (b : List Byte) : CellBlock :=
  { slice := slice, cell := cell, raw := b, streams := blockStreams b, binds := blockBinds b }

/-- The directory of section 0x0001: slice, cell slot, offset (R98). -/
def blockDir (l : List Byte) : List (List Byte) :=
  entriesAt (secBytes l 1) 0 (((secOf l 1).map fun s => s.2.2).getD 0) 16

/-- The blocks of the image. -/
def readBlocks (l : List Byte) : List CellBlock :=
  let sec := secBytes l 1
  (blockDir l).map fun e =>
    readBlock (leAt e 0 4) (leAt e 4 2) (sliceBytes sec (leAt e 8 8) (blockLen sec (leAt e 8 8)))

/-- The checks of section 0x0001. -/
def streamsOk (l : List Byte) : Bool :=
  let sec := secBytes l 1
  let dir := blockDir l
  let combs := leAt l 0x12 2
  decide (16 * dir.length ≤ sec.length) && rising true (dir.map fun e => leAt e 0 4 * 65536 + leAt e 4 2)
    && dir.all (fun e =>
      let off := leAt e 8 8
      decide (leAt e 0 4 < leAt l 0x18 4) && decide (leAt e 4 2 < 8 * combs) && zeroBytes e 6 2
        && decide (off + blockLen sec off ≤ sec.length)
        && blockOk (leAt e 0 4) (sliceBytes sec off (blockLen sec off)))

/-! ## The slot table (07, 08, 12, 14) -/

/-- Number of buffer list entries, parameter records and entries of the slot table. -/
def slotCounts (s : List Byte) : Nat × Nat × Nat := (leAt s 4 2, leAt s 6 2, leAt s 0 4)

/-- Raw entries of the slot table. -/
def slotEntries (s : List Byte) : List (List Byte) := entriesAt s (leAt s 8 8) (leAt s 0 4) 64

/-- A peer's 16 bits. -/
def readPeer (v : Nat) : Peer := ⟨nbits v 10 0, Fin.ofNat 16 (nbits v 14 11)⟩

/-- Members of the exchange group (Table 08-1). -/
def readMembers (s : List Byte) : List Peer := (List.range (leAt s 0x23 1)).map fun i => readPeer (leAt s (0x40 + 2 * i) 2)

/-- The header of the slot table (R196). -/
def slotHeaderOk (s : List Byte) : Bool :=
  let n := leAt s 0x23 1
  let c := slotCounts s
  decide (128 ≤ s.length) && decide (c.1 ≤ 4096) && decide (c.2.1 ≤ 256) && zeroBytes s 0x24 28 && zeroBytes s 0x60 32
    && (n == 0 || inRange n 2 16) && (n == 0) == (leAt s 0x20 2 == 0) && (n == 0 || decide (leAt s 0x22 1 < n))
    && (List.range 16).all (fun i => !bitAt (leAt s (0x40 + 2 * i) 2) 15)
    && decide (leAt s 0x10 8 + 16 * c.1 ≤ s.length) && decide (leAt s 0x18 8 + 32 * c.2.1 ≤ s.length)
    && decide (leAt s 8 8 + 64 * c.2.2 ≤ s.length)

/-- A buffer list entry (Table 08-2). -/
def readBuf (e : List Byte) : BufListEntry := ⟨leAt e 8 4, leAt e 1 1, leAt e 2 1, leAt e 3 1, leAt e 0 1, leAt e 4 4⟩

/-- The buffer list. -/
def readBufs (s : List Byte) : List BufListEntry := (entriesAt s (leAt s 0x10 8) (leAt s 4 2) 16).map readBuf

/-- The checks of a buffer list entry (R197, R286). -/
def bufOk (combs : Nat) (e : List Byte) : Bool :=
  let b := readBuf e
  decide (b.mode ≤ 2) && decide (b.object < 2 ^ 24) && (b.mode != 0 || b.object == 0xFFFFFF) && zeroBytes e 12 4
    && (b.mode == 2 || (decide (b.tier ≤ 3) && classOk b.tier b.cls && (b.tier != 0 || decide (b.comb < combs))))

/-- A parameter record (R198). -/
def readParam (e : List Byte) : ParamRec := ⟨leAt e 0 2, leAt e 2 1, leAt e 3 1 % 4, leAt e 16 1, BitVec.ofNat 64 (leAt e 24 8)⟩

/-- The parameter records. -/
def readParams (s : List Byte) : List ParamRec := (entriesAt s (leAt s 0x18 8) (leAt s 6 2) 32).map readParam

/-- The checks of a parameter record (R130, R198). -/
def paramOk (e : List Byte) : Bool :=
  let g := readParam e
  decide (1 ≤ g.mult) && decide (g.shift ≤ 63) && decide (leAt e 3 1 < 4) && zeroBytes e 4 12 && decide (g.outFmt < 8)
    && zeroBytes e 17 7 && (g.group == 0 || decide (fmtWidth g.outFmt ≤ 8))

/-- READY and NOTIFY words have their top bits zero. -/
def tagWordOk (v : Nat) : Bool := onlyBits v [(12, 0)]

/-- A Waggle job entry (Table 07-2). -/
def readWgl (e : List Byte) : WglJob :=
  let f := leAt e
  { scoreFmt := Fin.ofNat 16 (f 2 1), floorEn := bitAt (f 3 1) 0, notifyEn := bitAt (f 3 1) 1, indexed := bitAt (f 3 1) 2
    slice := f 4 4, startCycle := f 8 4, jobId := f 0xC 2, eFirst := f 0xE 2, eCount := f 0x10 2, capacity := f 0x12 2
    n := f 0x14 4, tSrc := f 0x18 4, sources := f 0x1C 2, self := f 0x1E 2, floor := BitVec.ofNat 32 (f 0x20 4)
    inBlocks := f 0x24 4, outRef := f 0x28 4, outOffset := f 0x2C 4, notifySlot := nbits (f 0x30 2) 7 0
    notifyTag := Fin.ofNat 32 (nbits (f 0x30 2) 12 8), homes := f 0x32 1, outJobId := f 0x34 2 }

/-- The checks of a Waggle job entry by itself (R170, R171). -/
def wglOk (nbufs usable : Nat) (e : List Byte) : Bool :=
  let k := leAt e 0 1
  let j := readWgl e
  let kind := match k with
    | 1 => inRange j.eCount 1 512 && inRange j.capacity 1 16384
    | 2 => inRange j.eCount 1 512 && inRange j.capacity 1 16384 && inRange j.homes 1 16
    | 3 => inRange j.eCount 2 16 && inRange j.capacity 1 (min 8 j.eCount)
    | 4 => j.eCount == 1 && inRange j.capacity 1 127
    | _ => inRange j.eCount 1 16 && j.capacity == 0 && decide (j.self < j.sources)
  kind && decide (leAt e 1 1 ≤ 1) && (if k = 5 then leAt e 2 1 == 0 else inRange (leAt e 2 1) 5 7) && decide (leAt e 3 1 < 8)
    && (!j.indexed || k == 1) && decide (j.startCycle ≤ usable) && decide (j.eFirst + j.eCount ≤ 8192)
    && decide (128 ≤ j.n) && j.n % 128 == 0 && inRange j.tSrc 128 16384 && j.tSrc % 128 == 0 && inRange j.sources 1 2048
    && decide (j.sources * j.tSrc ≤ 2 ^ 24) && (j.indexed || j.n == j.sources * j.tSrc)
    && !(decodeNum fp32 j.floor.toNat).isNan && decide (1 ≤ j.inBlocks) && decide (j.outRef < nbufs) && j.outOffset % 32 == 0
    && tagWordOk (leAt e 0x30 2) && zeroBytes e 0x33 1 && zeroBytes e 0x36 10

/-- Common fields of a Swarm entry (Table 08-3). -/
def readCommon (e : List Byte) : SwmCommon :=
  let f := leAt e
  { delivery := Fin.ofNat 3 (f 2 1), readyEn := bitAt (f 3 1) 0, notifyEn := bitAt (f 3 1) 1, indexed := bitAt (f 3 1) 2
    slice := f 4 4, startCycle := f 8 4, window := f 0xC 4, bufA := f 0x10 2, bufB := f 0x12 2, offsetA := f 0x14 4
    offsetB := f 0x18 4, readySlot := nbits (f 0x1C 2) 7 0, readyTag := Fin.ofNat 32 (nbits (f 0x1C 2) 12 8), readyCount := f 0x1E 2
    notifySlot := nbits (f 0x20 2) 7 0, notifyTag := Fin.ofNat 32 (nbits (f 0x20 2) 12 8), tag := f 0x22 2, peer := readPeer (f 0x24 2) }

/-- The fields of a DISPATCH or RETURN. -/
def readMove (e : List Byte) : MoveOps :=
  let f := leAt e
  ⟨f 0x28 4, f 0x2C 2, f 0x2E 2, f 0x30 2, f 0x32 2, f 0x34 2, f 0x36 2, f 0x38 2, f 0x3A 2, f 0x3C 2, f 0x3E 2⟩

/-- The fields of a Swarm entry by its kind (Table 08-4); T_SRC of a COMBINE's owner is 0 in the image (R218). -/
def readSwm (e : List Byte) : SwmOps :=
  let f := leAt e
  match f 0 1 with
  | 0x10 => .score ⟨f 0x28 4, f 0x2C 2, f 0x2E 2, f 0x30 2, f 0x32 2, f 0x34 2, f 0x36 2, f 0x38 2, Fin.ofNat 16 (f 0x3A 1),
      Fin.ofNat 2 (f 0x3B 1), f 0x3C 4⟩
  | 0x11 => .bitmap ⟨f 0x28 4, f 0x2C 4, f 0x30 2, Fin.ofNat 3 (f 0x32 1), Fin.ofNat 2 (f 0x33 1), f 0x34 2⟩
  | 0x12 => .route ⟨f 0x28 2, f 0x2A 2, f 0x2C 2, f 0x2E 2, f 0x30 2, f 0x32 2, f 0x34 2⟩
  | 0x13 => .dispatch (readMove e)
  | 0x14 => .ret (readMove e)
  | 0x15 => .combine ⟨f 0x28 2, f 0x2A 2, f 0x2C 2, f 0x2E 2, f 0x30 2, f 0x32 2, f 0x34 2, f 0x36 1, f 0x37 1, f 0x38 2,
      Fin.ofNat 16 (f 0x3A 1), Fin.ofNat 16 (f 0x3B 1), bitAt (f 0x3C 1) 0, Fin.ofNat 4 (nbits (f 0x3C 1) 2 1), bitAt (f 0x3C 1) 3, 0, 0⟩
  | 0x16 => .land ⟨f 0x28 4, f 0x2C 4, Fin.ofNat 4 (f 0x30 1), f 0x32 2, f 0x34 2, f 0x36 2, f 0x38 2, f 0x3A 2, f 0x3C 2⟩
  | _ => .live ⟨f 0x28 2, f 0x2A 2, f 0x2C 2⟩

/-- Bytes 0x28 to 0x3F that a kind leaves reserved: offset and length. -/
def swmReserved (k : Nat) : Nat × Nat :=
  match k with
  | 0x11 => (0x36, 10) | 0x12 => (0x36, 10) | 0x13 => (0x3C, 4) | 0x15 => (0x3D, 3) | 0x16 => (0x3E, 2) | 0x17 => (0x2E, 18)
  | _ => (0x40, 0)

/-- Is a buffer reference one of the list? -/
def refOk (nbufs r : Nat) : Bool := decide (r < nbufs)

/-- The checks of a Swarm entry by itself (R96, R199, R207, R208, R212, R218, R354). -/
def swmOk (nbufs nparams : Nat) (e : List Byte) : Bool :=
  let k := leAt e 0 1
  let c := readCommon e
  let kind := match readSwm e with
    | .score x => inRange (leAt e 0x3A 1) 5 7 && decide (leAt e 0x3B 1 ≤ 1) && x.tokenFirst % 128 == 0 && x.tokens % 128 == 0
        && decide (128 ≤ x.tokens) && decide (x.tokenFirst + x.tokens ≤ x.tSrc)
    | .bitmap x => x.bits % 4096 == 0 && x.tokenBase % 4096 == 0 && inRange (leAt e 0x32 1) 1 2 && decide (leAt e 0x33 1 ≤ 1)
    | .route _ => true
    | .dispatch x => x.slotFirst % 128 == 0 && x.slotCount % 128 == 0 && refOk nbufs c.bufB
    | .ret x => x.slotFirst % 128 == 0 && x.slotCount % 128 == 0 && refOk nbufs c.bufB
    | .combine x => x.hidden % 32 == 0 && decide (x.param < nparams) && refOk nbufs c.bufB && refOk nbufs x.viewRef
        && (!x.resid || refOk nbufs x.resRef) && decide (leAt e 0x3A 1 < 8) && decide (leAt e 0x3B 1 < 8)
        && decide (leAt e 0x3C 1 < 16) && decide (x.gateMode.val ≤ 1)
    | .land x => decide (leAt e 0x30 1 ≤ 3) && zeroBytes e 0x31 1 && (decide (x.expect.val < 2) || refOk nbufs c.bufB)
    | .live _ => refOk nbufs c.bufB
  kind && decide (leAt e 1 1 ≤ 1) && decide (leAt e 2 1 ≤ 2) && decide (leAt e 3 1 < 8) && (!c.indexed || k == 0x10)
    && (decide (k < 0x15) || c.window == 0) && refOk nbufs c.bufA && c.offsetA % 32 == 0 && c.offsetB % 32 == 0
    && tagWordOk (leAt e 0x1C 2) && tagWordOk (leAt e 0x20 2) && decide (c.tag < 0x8000) && !bitAt (leAt e 0x24 2) 15
    && zeroBytes e 0x26 2 && zeroBytes e (swmReserved k).1 (swmReserved k).2

/-- A scheduled slot entry (Table 12-4). -/
def readSched (e : List Byte) : SchedSlot :=
  let f := leAt e
  ⟨f 4 4, f 8 4, f 0xC 4, readPeer (f 0x10 2), f 0x12 1, f 0x13 1, f 0x14 4, f 0x18 4, f 1 1 % 4⟩

/-- The checks of a scheduled slot entry by itself (R96, R311). -/
def schedOk (e : List Byte) : Bool :=
  decide (leAt e 1 1 < 4) && inRange (leAt e 2 1) 1 17 && zeroBytes e 3 1 && !bitAt (leAt e 0x10 2) 15 && zeroBytes e 0x1C 36

/-- A GROUP entry (Table 14-1). -/
def readGroup (e : List Byte) : GroupBox :=
  let f := leAt e
  ⟨f 1 1, f 2 1 % 16, f 4 1, f 6 2, f 8 2, f 0xA 1, f 0xC 2⟩

/-- The format of a GROUP entry. -/
def groupFmtOk (racks : Nat) (e : List Byte) : Bool :=
  decide (leAt e 2 1 < 16) && zeroBytes e 3 1 && zeroBytes e 5 1 && decide (leAt e 8 2 < 2 ^ max 1 racks) && zeroBytes e 0xB 1
    && inRange (leAt e 0xC 2) 1 256 && zeroBytes e 0xE 50

/-- A collective entry (Table 14-5). -/
def readCol (e : List Byte) : ColOps :=
  let f := leAt e
  { delivery := Fin.ofNat 3 (f 2 1), readyEn := bitAt (f 3 1) 0, notifyEn := bitAt (f 3 1) 1, stoch := bitAt (f 3 1) 2
    slice := f 4 4, startCycle := f 8 4, window := f 0xC 4, bufA := f 0x10 2, bufB := f 0x12 2, offsetA := f 0x14 4, offsetB := f 0x18 4
    readySlot := nbits (f 0x1C 2) 7 0, readyTag := Fin.ofNat 32 (nbits (f 0x1C 2) 12 8), readyCount := f 0x1E 2
    notifySlot := nbits (f 0x20 2) 7 0, notifyTag := Fin.ofNat 32 (nbits (f 0x20 2) 12 8), localId := f 0x22 1
    op := Fin.ofNat 5 (f 0x23 1), phase := Fin.ofNat 15 (f 0x24 1), redop := Fin.ofNat 3 (f 0x25 1), inFmt := Fin.ofNat 16 (f 0x26 1)
    outFmt := Fin.ofNat 16 (f 0x27 1), count := f 0x28 4, wire := Fin.ofNat 4 (f 0x2C 1), stageComb := f 0x2D 1, param := f 0x2E 2
    stageOffset := f 0x30 4, stageBytes := f 0x34 4, countsRef := f 0x38 2, countsOffset := f 0x3C 4 }

/-- The phases of an operation in order (Table 14-2). -/
def phasesOf (op : Nat) : List Nat :=
  match op with
  | 1 => [1, 2, 3, 4, 5, 6, 7, 8] | 2 => [1, 2, 3, 4] | 3 => [5, 6, 7, 8] | _ => [9, 10, 11, 12, 5, 6, 7, 8]

/-- The phases of an operation in a group: those whose level has more than one member. -/
def groupPhases (b : GroupBox) (op : Nat) : List Nat := (phasesOf op).filter fun ph => decide (1 < b.sizes.getD (phaseLevel ph) 1)

/-- The checks of a collective entry by itself (R96, R356, R361, R362, R365). -/
def colOk (nbufs nparams combs : Nat) (groups : List GroupBox) (e : List Byte) : Bool :=
  let x := readCol e
  let send := leAt e 0 1 == 0x22
  let ph := leAt e 0x24 1
  let gather := decide (3 ≤ x.op.val)
  decide (leAt e 1 1 ≤ 1) && inRange (leAt e 2 1) 1 2 && decide (leAt e 3 1 < 8) && (send || x.window == 0)
    && inRange (leAt e 0x23 1) 1 4 && inRange ph 1 12
    && (groups.any fun g => g.localId == x.localId && (groupPhases g x.op.val).contains ph)
    && (if send ∨ ph = 1 then refOk nbufs x.bufA else x.bufA == 0xFFFF) && (if send then x.bufB == 0xFFFF else refOk nbufs x.bufB)
    && x.offsetA % 32 == 0 && x.offsetB % 32 == 0 && tagWordOk (leAt e 0x1C 2) && tagWordOk (leAt e 0x20 2)
    && decide (leAt e 0x25 1 ≤ 2) && (!gather || x.redop.val == 0) && inRange (leAt e 0x26 1) 5 7 && inRange (leAt e 0x27 1) 5 7
    && inRange x.count 32 (2 ^ 26) && decide (leAt e 0x2C 1 ≤ 3) && (!gather || (x.wire.val == 3 && x.inFmt == x.outFmt))
    && decide (x.stageComb < combs) && (if x.stoch then decide (x.param < nparams) else x.param == 0xFFFF)
    && x.stageOffset % 32 == 0 && zeroBytes e 0x3A 2
    && (if x.op.val = 4 ∧ isSpread ph then refOk nbufs x.countsRef else x.countsRef == 0xFFFF)
    && (x.delivery.val == 2 || ph == 1 || ph == 8 || ph == 12)

/-- What a raw entry is, GROUP and scheduled slots apart. -/
def readSlot (e : List Byte) : Option SlotKind :=
  let k := leAt e 0 1
  if inRange k 1 5 then some (.wgl k (readWgl e))
  else if inRange k 0x10 0x17 then some (.swm (readCommon e) (readSwm e))
  else if k = 0x22 ∨ k = 0x23 then some (.col (k == 0x22) (readCol e))
  else none

/-- The GROUP entries of a slot table. -/
def readGroups (s : List Byte) : List GroupBox := ((slotEntries s).filter fun e => leAt e 0 1 == 0x21).map readGroup

/-- The job, Swarm and collective entries of a slot table. -/
def readSlots (s : List Byte) : List SlotEnt :=
  (slotEntries s).zipIdx.filterMap fun e => (readSlot e.1).map fun k => ⟨e.2, leAt e.1 1 1, k⟩

/-- One entry of the slot table, by its kind. -/
def slotOk (nbufs nparams combs usable racks : Nat) (groups : List GroupBox) (e : List Byte) : Bool :=
  let k := leAt e 0 1
  if inRange k 1 5 then wglOk nbufs usable e
  else if inRange k 0x10 0x17 then swmOk nbufs nparams e
  else if k = 0x20 then schedOk e
  else if k = 0x21 then groupFmtOk racks e
  else if k = 0x22 ∨ k = 0x23 then colOk nbufs nparams combs groups e
  else false

/-- The order of the entries: GROUP entries first, in ascending LOCAL_ID; then by SLICE and START_CYCLE (R196). -/
def slotOrderOk (es : List (List Byte)) : Bool :=
  let gs := es.takeWhile fun e => leAt e 0 1 == 0x21
  let rest := es.drop gs.length
  rising true (gs.map fun e => leAt e 1 1) && rest.all (fun e => leAt e 0 1 != 0x21)
    && rising false (rest.map fun e => leAt e 4 4 * 2 ^ 32 + leAt e 8 4)

/-- A SECOND has its SELECT earlier in the order (R171). -/
def secondsOk (es : List SlotEnt) : Bool :=
  es.all fun e => match e.what with
    | .wgl 2 j => es.any fun q => decide (q.index < e.index) && q.inst == e.inst && (match q.what with
      | .wgl 1 s => s.slice == j.slice && s.jobId == j.jobId && s.eFirst == j.eFirst && s.eCount == j.eCount
          && s.capacity == j.capacity && s.n == j.n && s.outRef == j.outRef && s.outOffset == j.outOffset
      | _ => false)
    | _ => true

/-- RUN_MAX of a ROUTE_RETURN against its SELECT (R209). -/
def routesOk (es : List SlotEnt) : Bool :=
  es.all fun e => match e.what with
    | .swm c (.route x) => es.all fun q => match q.what with
      | .wgl 1 s => !(s.outRef == c.bufA && s.outOffset == c.offsetA && s.eFirst == x.eFirst && s.eCount == x.eCount
          && s.capacity == x.cap) || decide (min x.cap s.tSrc ≤ x.runMax)
      | _ => true
    | _ => true

/-- A DISPATCH does not read the landing buffer of a LAND of its slice (R211). -/
def dispatchesOk (es : List SlotEnt) : Bool :=
  es.all fun e => match e.what with
    | .swm c (.dispatch _) => es.all fun q => match q.what with
      | .swm k (.land _) => k.slice != c.slice || k.bufA != c.bufB
      | _ => true
    | _ => true

/-- The phases of one group's entries in order: each stays at its place in the operation, moves on by one, or starts a new
collective after the last (R356). -/
def phaseWalk (groups : List GroupBox) : Option (Nat × Nat) → List ColOps → Bool
  | _, [] => true
  | prev, x :: l =>
    let ps := ((groups.find? fun g => g.localId == x.localId).map fun g => groupPhases g x.op.val).getD []
    let i := (ps.idxOf? x.phase.val).getD 0
    (match prev with
      | none => i == 0
      | some (op, j) => (op == x.op.val && (i == j || i == j + 1)) || (i == 0 && j + 1 == (((groups.find? fun g =>
          g.localId == x.localId).map fun g => groupPhases g op).getD []).length))
      && phaseWalk groups (some (x.op.val, i)) l

/-- The collective entries with their direction, in order. -/
def colsOf (es : List SlotEnt) : List (Bool × ColOps) :=
  es.filterMap fun e => match e.what with
    | .col s x => some (s, x)
    | _ => none

/-- The order of phases of every group. -/
def phasesOk (groups : List GroupBox) (es : List SlotEnt) : Bool :=
  groups.all fun g => phaseWalk groups none (((colsOf es).map Prod.snd).filter fun x => x.localId == g.localId)

/-- The checks of section 0x0002 that give LOAD_ERR 1. -/
def slotTableOk (racks : Nat) (l : List Byte) : Bool :=
  if (secOf l 2).isNone then true
  else
    let s := secBytes l 2
    let c := slotCounts s
    let combs := leAt l 0x12 2
    let u := (usableOf (leAt l 0x14 1) (leAt l 0x15 1)).1
    slotHeaderOk s && (entriesAt s (leAt s 0x10 8) c.1 16).all (bufOk combs) && (entriesAt s (leAt s 0x18 8) c.2.1 32).all paramOk
      && slotOrderOk (slotEntries s) && (slotEntries s).all (slotOk c.1 c.2.1 combs u racks (readGroups s))
      && secondsOk (readSlots s) && routesOk (readSlots s) && dispatchesOk (readSlots s) && phasesOk (readGroups s) (readSlots s)

/-! ## The Forager schedule (10) -/

/-- A Forager entry (Table 10-4). -/
def readFgr (index : Nat) (e : List Byte) : FgrSlot :=
  let f := leAt e
  ⟨index, f 0 1, f 1 1,
    { convert := Fin.ofNat 5 (f 2 1), readyEn := bitAt (f 3 1) 0, notifyEn := bitAt (f 3 1) 1, slice := f 4 4, startCycle := f 8 4
      rate := f 0xC 4, srcRef := f 0x10 2, dstRef := f 0x12 2, auxRef := f 0x14 2, base := f 0x16 1, srcOffset := f 0x18 8
      dstOffset := f 0x20 8, length := f 0x28 8, auxOffset := f 0x30 4, readySlot := nbits (f 0x34 2) 7 0
      readyTag := Fin.ofNat 32 (nbits (f 0x34 2) 12 8), readyCount := f 0x36 2, notifySlot := nbits (f 0x38 2) 7 0
      notifyTag := Fin.ofNat 32 (nbits (f 0x38 2) 12 8), count := f 0x3A 2, rowBytes := f 0x3C 4 }⟩

/-- Raw entries of section 0x0003. -/
def fgrRaw (l : List Byte) : List (List Byte) := entriesAt (secBytes l 3) (leAt (secBytes l 3) 8 8) (leAt (secBytes l 3) 0 4) 64

/-- The source tier of a WRITE is Tier H or a comb store (Table 10-5); that of a bound object is checked once it is known. -/
def fgrSrcOk (bufs : List BufListEntry) (ref : Nat) : Bool :=
  match bufs[ref]? with
  | none => false
  | some b => b.mode == 2 || decide (b.tier ≤ 1)

/-- The tier of a destination is one its kind writes. -/
def fgrDstOk (bufs : List BufListEntry) (kind ref : Nat) : Bool :=
  match bufs[ref]? with
  | none => false
  | some b => decide (b.mode ≤ 1) && (match kind with
    | 1 => decide (b.tier ≤ 1)
    | 2 => decide (2 ≤ b.tier)
    | _ => true)

/-- The checks of a Forager entry by itself (R96, R267, R268). -/
def fgrOk (bufs : List BufListEntry) (e : List Byte) : Bool :=
  let q := readFgr 0 e
  let x := q.e
  let ref := refOk bufs.length
  let kind := match q.kind with
    | 1 => ref x.srcRef && fgrDstOk bufs 1 x.dstRef && x.count == 0
    | 2 => fgrSrcOk bufs x.srcRef && fgrDstOk bufs 2 x.dstRef && x.count == 0
    | 3 => ref x.srcRef && fgrDstOk bufs 3 x.dstRef && ref x.auxRef && x.length % 128 == 0 && x.rowBytes % 32 == 0
    | 4 => fgrDstOk bufs 4 x.dstRef && ref x.auxRef && x.rowBytes % 32 == 0
    | 5 => ref x.srcRef && ref x.auxRef && x.length == 0 && x.rowBytes % 32 == 0
    | 6 => fgrDstOk bufs 6 x.dstRef && x.length == 0 && x.count == 0
    | _ => false
  kind && decide (q.inst ≤ 1) && decide (leAt e 2 1 ≤ 4) && (x.convert.val == 0 || decide (q.kind ≤ 2)) && decide (leAt e 3 1 < 4)
    && decide (1 ≤ x.rate) && (x.auxRef == 0xFFFF || ref x.auxRef) && zeroBytes e 0x17 1 && x.srcOffset % 32 == 0
    && x.dstOffset % 32 == 0 && x.auxOffset % 32 == 0 && tagWordOk (leAt e 0x34 2) && tagWordOk (leAt e 0x38 2)

/-- The checks of section 0x0003. -/
def foragerOk (l : List Byte) : Bool :=
  let s := secBytes l 3
  decide (32 ≤ s.length) && zeroBytes s 4 4 && zeroBytes s 16 16 && decide (leAt s 8 8 + 64 * leAt s 0 4 ≤ s.length)
    && rising false ((fgrRaw l).map fun e => leAt e 4 4 * 2 ^ 32 + leAt e 8 4)
    && (fgrRaw l).all (fgrOk (readBufs (secBytes l 2)))

/-! ## Reservations (15 R375, 11 R289, 09 R237) -/

/-- The reservation records: type and contents; none when one runs past the section. -/
def resRecs : Nat → List Byte → Option (List (Nat × List Byte))
  | _, [] => some []
  | 0, _ => none
  | n + 1, l =>
    let len := leAt l 2 2
    if l.length < 4 + len then none else (resRecs n (l.drop (4 + len))).map fun t => (leAt l 0 2, sliceBytes l 4 len) :: t

/-- The records of section 0x0004. -/
def reservations (l : List Byte) : List (Nat × List Byte) := (resRecs (secBytes l 4).length (secBytes l 4)).getD []

/-- The contents of the record of a type. -/
def resOf (l : List Byte) (t : Nat) : List Byte := (((reservations l).find? fun e => e.1 == t).map Prod.snd).getD []

/-- Is there a record of a type? -/
def hasRes (l : List Byte) (t : Nat) : Bool := (reservations l).any fun e => e.1 == t

/-- A ream class record (Table 09-4). -/
def readClass (e : List Byte) : ReamClass :=
  let f := leAt e
  ⟨f 0 1, f 1 1, f 2 2, f 4 2, f 6 2, f 8 4, f 0xC 4, f 0x10 2, nbits (f 0x12 2) 7 0, nbits (f 0x12 2) 12 8, bitAt (f 0x14 1) 0⟩

/-- A brood record. -/
def readBrood (r : List Byte) : BroodRec :=
  ⟨leAt r 0 2, leAt r 2 2, leAt r 4 1, leAt r 6 4, (entriesAt r 16 (leAt r 5 1) 32).map readClass⟩

/-- The checks of a ream class. -/
def classRecOk (bufs : List BufListEntry) (e : List Byte) : Bool :=
  let k := readClass e
  inRange k.phase 2 3 && (k.tile == 32 || k.tile == 128) && inRange k.rCap 32 8192 && k.rCap % k.tile == 0 && inRange k.chunk 1 k.rCap
    && decide (1 ≤ k.ageStep) && ((bufs[k.outRef]?).map fun b => b.mode == 1).getD false && tagWordOk (leAt e 0x12 2)
    && decide (leAt e 0x14 1 < 2) && zeroBytes e 0x15 11 && (k.phase != 3 || k.chunk == 1)

/-- The checks of a brood record that give LOAD_ERR 1 (R237). -/
def broodOk (bufs : List BufListEntry) (r : List Byte) : Bool :=
  let b := readBrood r
  inRange (leAt r 5 1) 1 8 && r.length == 16 + 32 * leAt r 5 1 && inRange b.count 1 8192 && decide (b.slot < 64) && zeroBytes r 0xA 6
    && (entriesAt r 16 (leAt r 5 1) 32).all (classRecOk bufs)

/-- The die order of the shape record. -/
def shapeOf (r : List Byte) (combs : Nat) : List Nat := (List.range combs).map fun k => nbits (leAt r 0 16) (4 * k + 3) (4 * k)

/-- The dies of a pattern appear in the order 0, 1, 2, 3. -/
def dieOrder : Nat → List Nat → Bool
  | _, [] => true
  | n, d :: l => decide (d < n) && dieOrder n l || d == n && decide (n < 4) && dieOrder (n + 1) l

/-- The checks of section 0x0004 that give LOAD_ERR 1. -/
def resvFmtOk (l : List Byte) : Bool :=
  let rs := reservations l
  let v := resOf l 1
  let e := resOf l 3
  let combs := leAt l 0x12 2
  (resRecs (secBytes l 4).length (secBytes l 4)).isSome && rs.all (fun r => inRange r.1 1 4)
    && [1, 2, 3, 4].all (fun t => decide ((rs.filter fun r => r.1 == t).length ≤ 1)) && [1, 3, 4].all (hasRes l)
    && v.length == 64 && decide (leAt v 0x20 1 ≤ 16) && decide (leAt v 0x21 1 ≤ 3) && decide (leAt v 0x22 2 ≤ 256)
    && leAt v 0x24 4 % 65536 == 0 && decide (leAt v 0x28 1 ≤ 3) && zeroBytes v 0x29 23
    && e.length == 32 && decide (leAt e 6 1 < 4) && decide (leAt e 7 1 < 4)
    && (resOf l 4).length == 16 && dieOrder 0 (shapeOf (resOf l 4) combs)
    && ((shapeOf (resOf l 4) 32).drop combs).all (fun n => n == 15)
    && (!hasRes l 2 || broodOk (readBufs (secBytes l 2)) (resOf l 2))

/-! ## Commit map and object table (13 R341, R342; 11 R521) -/

/-- A commit map entry. -/
def readCommit (slice : Nat) (source : Bool) (v : Nat) : CommitEntry :=
  ⟨slice, source, readPeer (v % 65536), if source then nbits v 63 32 else 0⟩

/-- The entries of the commit map. -/
def readCommitMap (l : List Byte) : List CommitEntry :=
  if !imgRemote l then []
  else
    let s := secBytes l 5
    (entriesAt s (leAt s 8 8) (leAt s 0 4) 16).zipIdx.flatMap fun e =>
      let nt := leAt e.1 0 2
      (entriesAt s (leAt e.1 8 8) (nt + leAt e.1 2 2) 8).zipIdx.map fun q => readCommit e.2 (decide (nt ≤ q.2)) (leAt q.1 0 8)

/-- Do targets of a slice name no node twice? -/
def targetsOnce (es : List CommitEntry) : Bool :=
  es.all fun e => e.source || decide ((es.filter fun q => !q.source && q.slice == e.slice && q.peer.node == e.peer.node).length = 1)

/-- Is a node a target of a slice? -/
def listed (es : List CommitEntry) (slice node : Nat) : Bool :=
  es.any fun e => !e.source && e.slice == slice && e.peer.node == node

/-- The nodes that a slice of an image must list: those of remote records, of staged Swarm entries and of staged COL_SENDs
(R342, R365). -/
def needListed (d : Dev) (l : List Byte) : List (Nat × Nat) :=
  ((readBlocks l).flatMap fun b => (blockRecs b.raw).filterMap fun r =>
    let op := leAt r 0 1
    if op = 0x42 ∨ op = 0x43 ∨ op = 0x44 then some (b.slice, nbits (leAt r 16 8) 58 48) else none)
  ++ (readSlots (secBytes l 2)).flatMap fun e => match e.what with
    | .swm c (.score _) => if c.delivery.val = 2 then [(c.slice, c.peer.node)] else []
    | .swm c (.bitmap _) => if c.delivery.val = 2 then [(c.slice, c.peer.node)] else []
    | .swm c (.route _) => if c.delivery.val = 2 then [(c.slice, c.peer.node)] else []
    | .swm c (.dispatch _) => if c.delivery.val = 2 then [(c.slice, c.peer.node)] else []
    | .swm c (.ret _) => if c.delivery.val = 2 then [(c.slice, c.peer.node)] else []
    | .col true x => if x.delivery.val = 2 then
        (((readGroups (secBytes l 2)).find? fun g => g.localId == x.localId).bind fun g => geoOf d g x []).map (fun g =>
          ((g.mates.filter fun m => m != g.me).map g.box.place).filterMap fun q =>
            if q.2 = myPod d then some (x.slice, q.1) else none) |>.getD []
      else []
    | _ => []

/-- The checks of section 0x0005 and of what it must list. -/
def commitOk (d : Dev) (l : List Byte) : Bool :=
  let s := secBytes l 5
  (!imgRemote l || (decide (16 ≤ s.length) && leAt s 0 4 == leAt l 0x18 4 && zeroBytes s 4 4
      && decide (leAt s 8 8 + 16 * leAt s 0 4 ≤ s.length)
      && (entriesAt s (leAt s 8 8) (leAt s 0 4) 16).all (fun e =>
        let nt := leAt e 0 2
        zeroBytes e 4 4 && decide (leAt e 8 8 + 8 * (nt + leAt e 2 2) ≤ s.length)
          && (entriesAt s (leAt e 8 8) (nt + leAt e 2 2) 8).zipIdx.all fun q =>
            onlyBits (leAt q.1 0 8) (if q.2 < nt then [(14, 0)] else [(14, 0), (63, 32)]))
      && targetsOnce (readCommitMap l)))
    && (needListed d l).all fun n => listed (readCommitMap l) n.1 n.2

/-- The initial object table: the indices it names. -/
def readObjects (l : List Byte) : List Nat := (entriesAt (secBytes l 6) 16 (leAt (secBytes l 6) 0 4) 16).map fun e => leAt e 0 4

/-- The checks of section 0x0006 (R521). -/
def objectsOk (l : List Byte) : Bool :=
  let s := secBytes l 6
  decide (16 + 16 * leAt s 0 4 ≤ s.length) && zeroBytes s 4 12 && (readObjects l).all (fun o => decide (o < 2 ^ 24))
    && (entriesAt s 16 (leAt s 0 4) 16).all (fun e => zeroBytes e 4 12) && rising true (readObjects l)

/-- A KV_WRITE takes at least the rows of the class whose ream it reads (Table 10-5). -/
def kvWritesOk (l : List Byte) : Bool :=
  !hasRes l 2 || (fgrRaw l).all fun e =>
    leAt e 0 1 != 5 || (readBrood (resOf l 2)).classes.all fun k => k.outRef != leAt e 0x14 2 || decide (k.rCap ≤ leAt e 0x3A 2)

/-- Step 5 of R43: the format of every section, record and entry. -/
def bodyOk (d : Dev) (l : List Byte) : Bool :=
  headerRanges l && streamsOk l && slotTableOk (nRacks d) l && foragerOk l && resvFmtOk l && commitOk d l && objectsOk l
    && kvWritesOk l

/-! ## The image -/

/-- The image that the bytes spell. -/
def readImage (l : List Byte) : Image :=
  let f := leAt l
  let v := leAt (resOf l 1)
  let e := leAt (resOf l 3)
  let s := secBytes l 2
  { bytes := f 8 8, digest := sha256 (sliceBytes l 0 256), cells := f 0x10 2, combs := f 0x12 2, frameExp := f 0x14 1, clock := f 0x15 1
    timing := f 0x16 2, slices := f 0x18 4, loop := bitAt (f 0x1C 4) 0, remote := imgRemote l, loopStart := f 0x20 4, fw := f 0x24 4
    memMask := f 0x28 8, portMask := f 0x30 4, jobId := f 0x60 16, frameStart := f 0x70 2, members := f 0x72 2
    blocks := readBlocks l, bufList := readBufs s, commitMap := readCommitMap l
    sched := ((slotEntries s).filter fun e => leAt e 0 1 == 0x20).map readSched
    objects := readObjects l, quotas := [v 0 8, v 8 8, v 0x10 8, v 0x18 8], n1m := v 0x20 1, n64k := v 0x22 2, combTop := v 0x24 4
    portC := v 0x21 1, portF := v 0x28 1, wglEngines := setBits (e 6 1) 2, swmEngines := setBits (e 7 1) 2, forEngines := [e 0 2, e 2 2]
    hRate := e 4 2, readShare := (List.range 4).map fun p => e (8 + 2 * p) 2, writeShare := (List.range 4).map fun p => e (0x10 + 2 * p) 2
    stageBytes := e 0x18 8, shape := shapeOf (resOf l 4) (f 0x12 2), exchGroup := leAt s 0x20 2, self := leAt s 0x22 1
    exch := readMembers s, params := readParams s, groups := readGroups s, entries := readSlots s
    fgr := (fgrRaw l).zipIdx.map fun e => readFgr e.2 e.1
    brood := if hasRes l 2 then some (readBrood (resOf l 2)) else none }

end Sys2Proof.Machine
end

