-- ==== Sys2Proof/Machine/Load.lean ====
section
/-! DEFINITION. The loader's checks of a mould image in the order of R43: digest and signature (19 R480), versions, the grade
(00 R5), the partition's shape (15 R376 and every rule that gives code 4), and reservations (10 R266, R270; 11 R289 and every
rule that gives code 5). -/

namespace Sys2Proof.Machine

/-! ## What is loaded already -/

/-- Images loaded on the device in other contexts: partition, context, image. -/
def otherImages (d : Dev) (c : Nat) : List (Nat × Nat × Image) :=
  (List.range 256).filterMap fun k =>
    let x := ctxOf d k
    if k = c then none else x.image.map fun i => (x.part, k, i)

/-- Is another context of a partition loaded? -/
def othersIn (d : Dev) (c p : Nat) : Bool := (otherImages d c).any fun e => e.1 == p

/-- Memory slices of a partition in stacks that are in service (R283). -/
def slicesInService (d : Dev) (p : Nat) : Nat :=
  ((setBits (rdN d (pPart p) Reg.CTL_PART_SLICES) 64).filter fun s => !retiredStack d (s / 8)).length

/-! ## Sending windows (08 R201, R202; 12 R311, R312; 14 R363) -/

/-- A scheduled window of the image: its slice and cycles, the first-hop ports it may use (`firstHop` bundle × 4 + port of the
bundle), and whether it covers its worst case and ends in time. -/
structure Win where
  slice  : Nat
  start  : Nat
  window : Nat
  ports  : List Nat
  ok     : Bool
  deriving DecidableEq, Repr

/-- The Bollum port of a first-hop port; none at level E. -/
def physPort (d : Dev) (id : Nat) : Option Nat :=
  let b := id / 4
  let n := id % 4
  let me := nSlot (myNode d)
  if 4000 ≤ b then none
  else if 3000 ≤ b then some ((if b = 3001 then 22 else 26) + n)
  else if 2000 ≤ b then some ((if b = 2001 then 14 else 18) + n)
  else some (2 * ((b - 1000 + 7 - me) % 8) + n)

/-- Does a window end, with the latency of R313 over `h` hops, within the usable cycles? -/
def windowEnds (u : Nat × Nat) (start window h : Nat) : Bool :=
  decide (start + window + ceilDiv ((150 + 250 * h) * u.2) 1000 ≤ u.1)

/-- The units of a sending Swarm entry: how many, and the bytes of each (R207 to R211, R217). -/
def swmUnits (c : SwmCommon) (x : SwmOps) : Option (Nat × Nat) :=
  match x with
  | .score x => some (x.eCount * (x.tokens / 128), 64 + 128 * fmtBytes x.scoreFmt.val + if c.indexed then 512 else 0)
  | .bitmap x => some (x.bits / 4096, 544)
  | .route x => some (x.eCount, 32 + 16 * x.runMax)
  | .dispatch x => some (x.eCount * min x.slotCount x.tSrc, x.rowBytes)
  | .ret x => some (x.eCount * min x.slotCount x.tSrc, x.rowBytes)
  | _ => none

/-- The window of a Swarm entry (R202). -/
def swmWin (d : Dev) (u : Nat × Nat) (c : SwmCommon) (x : SwmOps) : Option Win :=
  (swmUnits c x).map fun q =>
    let node := c.peer.node
    let h := hops d (myNode d) node
    if node = myNode d then
      ⟨c.slice, c.startCycle, c.window, [], decide (ceilDiv (q.1 * q.2) 512 ≤ c.window) && windowEnds u c.startCycle c.window h⟩
    else
      let b := firstHop d node (myPod d)
      let most := ceilDiv q.1 b.2 * (q.2 + 32 * ceilDiv q.2 512)
      ⟨c.slice, c.startCycle, c.window, (List.range (min b.2 q.1)).map (b.1 * 4 + ·),
        decide (ceilDiv (most * u.2) 100000 ≤ c.window) && windowEnds u c.startCycle c.window h⟩

/-- Bytes on each port of a COL_SEND: the peers' blocks as 512-byte packets, numbered through the entry (R363). -/
def colLoad (d : Dev) (g : ColGeo) : List (Nat × Nat) :=
  let peers := (g.mates.filter fun m => m != g.me).map fun m => (g.box.place m, g.blockBytes g.me m)
  (peers.foldl (fun (s : Nat × List (Nat × Nat)) q =>
    let n := ceilDiv q.2 512
    let b := firstHop d q.1.1 q.1.2
    let above := if b.1 < 4000 then 32 else 118
    let lanes := (List.range b.2).map fun k =>
      let mine := (List.range n).filter fun j => (s.1 + j) % b.2 == k
      (b.1 * 4 + k, mine.foldl (fun t j => t + above + min 512 (q.2 - 512 * j)) 0)
    (s.1 + n, s.2 ++ lanes)) (0, [])).2

/-- The window of a COL_SEND (R363). -/
def colWin (d : Dev) (u : Nat × Nat) (groups : List GroupBox) (x : ColOps) : Option Win :=
  ((groups.find? fun g => g.localId == x.localId).bind fun b => geoOf d b x []).map fun g =>
    let load := (colLoad d g).filter fun e => e.2 != 0
    let worst := load.foldl (fun m e => max m ((load.filter fun q => q.1 == e.1).foldl (fun t q => t + q.2) 0)) 0
    let far := g.mates.foldl (fun m r =>
      let q := g.box.place r
      if q.2 = myPod d then max m (hops d (myNode d) q.1) else m) 0
    ⟨x.slice, x.startCycle, x.window, (load.map Prod.fst).eraseDups,
      decide (ceilDiv (worst * u.2) 100000 ≤ x.window) && windowEnds u x.startCycle x.window far⟩

/-- The window of a scheduled slot entry (R312). -/
def schedWin (d : Dev) (u : Nat × Nat) (hopsField : Nat) (x : SchedSlot) : Win :=
  let h := hops d (myNode d) x.peer.node
  let id := (firstHop d x.peer.node (myPod d)).1 * 4 + x.lane
  ⟨x.slice, x.start, x.window, [id],
    decide (ceilDiv ((x.maxBytes + 32 * x.maxPkts) * u.2) 100000 ≤ x.window) && hopsField == h && windowEnds u x.start x.window h
      && ((physPort d id).map fun i => bolState d i != 5).getD false⟩

/-- The windows of an image's Swarm and collective entries. -/
def entryWins (d : Dev) (u : Nat × Nat) (img : Image) : List Win :=
  img.entries.filterMap fun e => match e.what with
    | .swm c x => swmWin d u c x
    | .col true x => colWin d u img.groups x
    | _ => none

/-- The windows of an image that is loaded; whether they keep their times was checked at the load. -/
def imageWins (d : Dev) (u : Nat × Nat) (img : Image) : List Win := entryWins d u img ++ img.sched.map (schedWin d u 0)

/-- Every scheduled window of an image. -/
def winsOf (d : Dev) (u : Nat × Nat) (l : List Byte) (img : Image) : List Win :=
  entryWins d u img
  ++ (((slotEntries (secBytes l 2)).filter fun e => leAt e 0 1 == 0x20).zip img.sched).map fun e => schedWin d u (leAt e.1 2 1) e.2

/-- Do two windows share a port at some cycle of a slice? -/
def Win.meets (a b : Win) : Bool :=
  a.slice == b.slice && a.ports.any b.ports.contains && decide (a.start < b.start + b.window) && decide (b.start < a.start + a.window)

/-- Do no two windows of a list meet? -/
def winsApart : List Win → Bool
  | [] => true
  | a :: l => !l.any a.meets && winsApart l

/-! ## Code 3: capabilities (R5) -/

/-- Does the grade have what the image needs: cells, combs, ports and the stacks of its slices? An image compiled for fewer
logical cells than the grade has is invalid under R2; no rule gives its code, and the model gives 3
(log entry 101, DESIGN CHOICE). -/
def capOk (d : Dev) (img : Image) : Bool :=
  let f := d.fuses
  img.cells == f.nCells && decide (img.combs ≤ f.nCombs) && (setBits img.portMask 32).all f.bol && (setBits img.memMask 64).all (fun s => f.stack (s / 8))

/-! ## Code 4: the partition's shape -/

/-- Dies of a partition's combs, numbered in order of first appearance. -/
def diePattern (d : Dev) (p : Nat) : List Nat :=
  let dies := (partCombs d p).map (dieOfComb d.fuses)
  let order := dies.eraseDups
  dies.map fun n => order.idxOf n

/-- Is the peer of a Swarm entry one that its DELIVERY may name (R204)? -/
def peerOk (d : Dev) (p : Nat) (img : Image) (c : SwmCommon) (x : SwmOps) : Bool :=
  if (swmUnits c x).isNone then true
  else match c.delivery.val with
    | 0 => c.peer.node == myNode d && c.peer.part.val == p
    | 1 => img.exch.contains c.peer && nTray c.peer.node == nTray (myNode d) && nRack c.peer.node == nRack (myNode d)
    | _ => true

/-- Is a GROUP entry one that this device may load (R353)? -/
def groupOk (d : Dev) (b : GroupBox) : Bool :=
  (b.ranks (myNode d) (myPod d)).isSome && decide (2 ≤ b.sizes.foldl (· * ·) 1) && decide (b.podFirst + b.podCount ≤ 256)
    && (!decide (d.fuses.grade = .m768t) || (b.trayMask == 1 && b.rackMask == 1))

/-- DELIVERY 1 of a collective needs an exchange group of its X peers (R365). -/
def colPeersOk (d : Dev) (img : Image) (x : ColOps) : Bool :=
  x.delivery.val != 1 || (((img.groups.find? fun g => g.localId == x.localId).bind fun b => geoOf d b x []).map fun g =>
    g.mates.all fun m => img.exch.contains ⟨(g.box.place m).1, Fin.ofNat 16 g.box.part⟩).getD false

/-- The check of a partition's shape: R376 and every other rule that gives code 4. While another context is loaded the length cannot
change, so neither the compiled length nor the one that R35 requires may differ from it (R378, R524)
(log entry 68, DEDUCED). -/
def shapeOk (d : Dev) (c p : Nat) (img : Image) (wins : List Win) : Bool :=
  let part := rdN d (pPart p) Reg.CTL_PART_PORTS
  img.combs == (partCombs d p).length && diePattern d p == img.shape
    && decide (popBits img.memMask 64 ≤ popBits (rdN d (pPart p) Reg.CTL_PART_SLICES) 64)
    && decide (img.hRate ≤ 192 * popBits (rdN d (pPart p) Reg.CTL_PART_SLICES) 64) && (setBits img.portMask 32).all (bitAt part)
    && wins.all (fun w => w.ports.all fun id => ((physPort d id).map (bitAt img.portMask)).getD true)
    && (!othersIn d c p || (img.frameExp == frameExp d p && needExp img (clockCode d) == frameExp d p))
    && (decide (img.members ≤ 1) || (ctxsOf d p).all (· == c))
    && img.entries.all (fun e => match e.what with
      | .swm k x => peerOk d p img k x
      | .col _ x => colPeersOk d img x
      | _ => true)
    && img.exch.all (fun m => nTray m.node == nTray (myNode d) && nRack m.node == nRack (myNode d)
      && decide ((img.exch.filter fun q => q.node == m.node).length ≤ 2))
    && img.groups.all (groupOk d)
    && !(lockstepOn d p && (decide (1 < img.members) || img.remote))

/-! ## Code 5: engines and key memory (R168, R171, R195) -/

/-- Engines are reserved, and by no other partition. -/
def enginesOk (d : Dev) (c p : Nat) (img : Image) : Bool :=
  let taken := fun (sel : Image → List Nat) (i : Nat) => (otherImages d c).any fun e => e.1 != p && (sel e.2.2).contains i
  img.entries.all (fun e => (if e.what.isSwm then img.swmEngines else img.wglEngines).contains e.inst)
    && img.wglEngines.all (fun i => !taken Image.wglEngines i) && img.swmEngines.all (fun i => !taken Image.swmEngines i)

/-- Key memory that the jobs of a slice use on an engine. -/
def keysUsed (img : Image) (slice inst : Nat) : Nat :=
  img.entries.foldl (fun n e => n + match e.what with
    | .wgl k j => if e.inst ≠ inst ∨ j.slice ≠ slice then 0
        else match k with
          | 1 => j.eCount * j.n
          | 3 => j.eCount * j.n
          | 4 => j.n
          | _ => 0
    | _ => 0) 0

/-- No slice overfills a key memory. -/
def keysOk (img : Image) : Bool :=
  img.entries.all fun e => match e.what with
    | .wgl _ j => decide (keysUsed img j.slice e.inst ≤ 1048576)
    | _ => true

/-- A buffer that is allocated or published in a slice lies in Tier H (R218). -/
def refInH (img : Image) (ref : Nat) : Bool :=
  match img.bufList[ref]? with
  | some b => b.mode == 2 || b.tier == 1
  | none => true

/-- The buffers of every COMBINE lie in Tier H. -/
def combinesOk (img : Image) : Bool :=
  img.entries.all fun e => match e.what with
    | .swm c (.combine x) => refInH img c.bufA && refInH img c.bufB && refInH img x.viewRef && (!x.resid || refInH img x.resRef)
    | _ => true

/-! ## Code 5: the Forager's schedule (R266, R270, R273) -/

/-- A window of the Forager or, on a comb's port, of a Swarm entry: what it takes of each resource while it is open. Resources
are Tier H (0), read and write of a CXL port (1 + port, 5 + port), read and write of a comb slot (16 + 2 × slot, one more),
and an entry engine of an instance (9 + instance). -/
structure Use where
  slice : Nat
  start : Nat
  fin   : Nat
  takes : List (Nat × Nat)
  deriving DecidableEq, Repr

/-- The window of a Forager entry (R269, R270). -/
def fgrUse (d : Dev) (p : Nat) (img : Image) (q : FgrSlot) : Use :=
  let e := q.e
  if q.kind = 6 then ⟨e.slice, e.startCycle, e.startCycle, []⟩
  else ⟨e.slice, e.startCycle, e.startCycle + fgrTime d p img q.kind e,
    (9 + q.inst, 1) :: fgrTakes d (fgrEnds d p img q.kind e) e.rate⟩

/-- The reads of a comb by a Swarm entry, at its mean rate over its window. -/
def swmUse (d : Dev) (p : Nat) (img : Image) (c : SwmCommon) (x : SwmOps) : Option Use :=
  (swmUnits c x).bind fun q =>
    let t := refTier d p img c.bufA
    if t.1 = 0 then some ⟨c.slice, c.startCycle, c.startCycle + c.window, [(16 + 2 * t.2, ceilDiv (q.1 * q.2) (max 1 c.window))]⟩
    else none

/-- The windows of an image. -/
def usesOf (d : Dev) (p : Nat) (img : Image) : List Use :=
  img.fgr.map (fgrUse d p img) ++ img.entries.filterMap fun e => match e.what with
    | .swm c x => swmUse d p img c x
    | _ => none

/-- What the windows open at the start of a window take of a resource. -/
def takenAt (us : List Use) (u : Use) (r : Nat) : Nat :=
  (us.filter fun q => q.slice == u.slice && decide (q.start ≤ u.start) && decide (u.start < q.fin)).foldl (fun n q =>
    n + (q.takes.filter fun t => t.1 == r).foldl (fun n t => n + t.2) 0) 0

/-- The images of a partition when `img` is loaded into context `c`. -/
def imagesWith (d : Dev) (c p : Nat) (img : Image) : List Image :=
  img :: ((otherImages d c).filter fun e => e.1 == p).map fun e => e.2.2

/-- The checks of R270, and the staging rate within the share (R273). -/
def foragerFits (d : Dev) (c p : Nat) (img : Image) (usable : Nat) : Bool :=
  let us := usesOf d p img
  let staging := stagingRate (imagesWith d c p img) usable
  decide (staging ≤ img.hRate) && (usable > 400 || img.blocks.isEmpty)
    && us.all (fun u => u.takes.all fun t => decide (takenAt us u t.1 ≤ shareOf img staging t.1))
    && (img.fgr.map (fgrUse d p img)).all (fun u => decide (u.fin ≤ usable))

/-- RATE of every entry within Table 10-2 and the source of a WRITE in Tier H or a comb store (format checks, made once the tiers are
known) (log entry 72, DEDUCED). -/
def ratesOk (d : Dev) (p : Nat) (img : Image) : Bool :=
  img.fgr.all fun q => rateOk d p img q.kind q.e
    && (q.kind != 2 || [0, 1, 4].contains (fgrEnds d p img q.kind q.e).1.1)

/-- The reservations of a partition: the largest over its images, since one of them runs at a time. -/
def partMax (l : List (Nat × Nat × Image)) (p : Nat) (sel : Image → Nat) : Nat :=
  (l.filter fun e => e.1 == p).foldl (fun m e => max m (sel e.2.2)) 0

/-- The sum over the partitions of a reservation. -/
def reserved (l : List (Nat × Nat × Image)) (sel : Image → Nat) : Nat :=
  (List.range 16).foldl (fun n p => n + partMax l p sel) 0

/-- The reservations of all loaded partitions stay within Table 10-2 and 256 engines per instance (R266). -/
def sharesOk (d : Dev) (c p : Nat) (img : Image) : Bool :=
  let l := (p, c, img) :: otherImages d c
  decide (reserved l Image.hRate ≤ 1536 * stacksInService d)
    && (List.range 2).all (fun i => decide (reserved l (fun q => q.forEngines.getD i 0) ≤ 256))
    && (List.range 4).all (fun i => decide (reserved l (fun q => q.readShare.getD i 0) ≤ portRate d i)
      && decide (reserved l (fun q => q.writeShare.getD i 0) ≤ portRate d i))

/-! ## Code 5: the Vat record, staging, the object table, the brood range -/

/-- Does an image write into Tier C (2) or F (3) of a port? -/
def writesTier (img : Image) (t port : Nat) : Bool :=
  (if t = 2 then img.portC else img.portF) == port
    && (img.bufList.any (fun b => decide (b.mode ≤ 1) && b.tier == t)
      || img.blocks.any fun b => (blockRecs b.raw).any fun r => leAt r 0 1 == 0x50 && nbits (leAt r 8 8) 9 8 == t)

/-- Is a tier of a port on its way to READ_ONLY (R264, step 1)? -/
def roAsked (d : Dev) (t port : Nat) : Bool := d.tier.roPend.any fun e => e.1 == port && bitAt e.2 (t - 2)

/-- Does the image write into a tier that is, or is to become, READ_ONLY (R264)? -/
def writesReadOnly (d : Dev) (img : Image) : Bool :=
  [2, 3].any fun t => (List.range 4).any fun port => writesTier img t port && (tierRO d t port || roAsked d t port)

/-- Bytes of a carve of a comb store. -/
def carveBytes (img : Image) : Nat := img.n1m * 2 ^ 20 + img.n64k * 2 ^ 16 + img.combTop

/-- Pooled bytes of a tier with the image's carve in force (R289). -/
def pooledWith (d : Dev) (p : Nat) (img : Image) (tier : Nat) : Nat :=
  if tier ≠ 0 then pooledBytes d tier
  else
    let others := d.vat.regions.filter fun e => decide (e.1 / 64 < 3) && !(partCombs d p).contains (e.1 % 64)
    others.foldl (fun n e => n + e.2.count * poolBytes (e.1 / 64)) 0 + (partCombs d p).length * (16 * 2 ^ 20 - img.combTop)

/-- The checks of R289 and R522. -/
def vatOk (d : Dev) (c p : Nat) (img : Image) : Bool :=
  let carve := (img.n1m, img.n64k, img.combTop)
  let same := smGet d.vat.carve p == some carve
  decide (carveBytes img ≤ 16 * 2 ^ 20) && (same || (!othersIn d c p && !combBufsInUse d p))
    && (img.quotas.getD 2 0 == 0 || cxlBytes d img.portC false != 0) && (img.quotas.getD 3 0 == 0 || cxlBytes d img.portF true != 0)
    && (List.range 4).all (fun t =>
      decide ((otherImages d c).foldl (fun n e => n + e.2.2.quotas.getD t 0) (img.quotas.getD t 0) ≤ pooledWith d p img t)
        && decide (quotaUsed d c t ≤ img.quotas.getD t 0))

/-- The staging that an image requires: 3 × MAX_BYTES over its sources, each at its largest value (R342, R343). -/
def stagingNeed (img : Image) : Nat :=
  let srcs := img.commitMap.filter CommitEntry.source
  (srcs.map CommitEntry.peer).eraseDups.foldl (fun n q =>
    n + 3 * (srcs.filter fun e => e.peer == q).foldl (fun m e => max m e.maxBytes) 0) 0

/-- The checks of remote staging. -/
def remoteStagingOk (d : Dev) (c : Nat) (img : Image) : Bool :=
  decide (stagingNeed img ≤ img.stageBytes)
    && decide ((otherImages d c).foldl (fun n e => n + e.2.2.stageBytes) img.stageBytes ≤ d.rmt.stageSize)

/-- No index of the initial object table is held by another context of the partition (R379). -/
def heldFree (d : Dev) (c p : Nat) (img : Image) : Bool :=
  img.objects.all fun o => (ctxsOf d p).all fun k => k == c || !(ctxOf d k).held.contains o

/-- The brood range lies in the table and overlaps no other partition's (R237). -/
def broodFits (d : Dev) (c p : Nat) (img : Image) : Bool :=
  match img.brood with
  | none => true
  | some b => decide (b.base + b.count ≤ 8192) && (otherImages d c).all fun e => e.1 == p || match e.2.2.brood with
    | none => true
    | some q => decide (b.base + b.count ≤ q.base) || decide (q.base + q.count ≤ b.base)

/-- Collective staging of an entry: comb, first byte, bytes and copies, live span (R365). -/
def colStages (img : Image) : List (Nat × Nat × Nat × Nat × Nat) :=
  img.entries.filterMap fun e => match e.what with
    | .col true x =>
      let copies := if x.delivery.val = 1 then 1 else if phaseLevel x.phase.val = 3 then 4 else 3
      let last := ((colsOf img.entries).filter fun q => !q.1 && q.2.localId == x.localId && q.2.phase == x.phase
        && decide (x.slice ≤ q.2.slice)).foldl (fun m q => match m with
          | none => some q.2.slice
          | some s => some (min s q.2.slice)) (none : Option Nat)
      some (x.stageComb, x.stageOffset, copies * x.stageBytes, x.slice, last.getD x.slice)
    | _ => none

/-- Do two pieces of collective staging collide? -/
def stageMeets (a b : Nat × Nat × Nat × Nat × Nat) : Bool :=
  a.1 == b.1 && decide (a.2.1 < b.2.1 + b.2.2.1) && decide (b.2.1 < a.2.1 + a.2.2.1)
    && decide (a.2.2.2.1 ≤ b.2.2.2.2) && decide (b.2.2.2.1 ≤ a.2.2.2.2)

/-- Collective staging fits, apart and within COMB_TOP, and trace capture is not armed (R365). -/
def colStagingOk (d : Dev) (p : Nat) (img : Image) : Bool :=
  let st := colStages img
  let rec apart : List (Nat × Nat × Nat × Nat × Nat) → Bool
    | [] => true
    | a :: l => !l.any (stageMeets a) && apart l
  apart st && st.all (fun a => decide (a.2.1 + a.2.2.1 ≤ img.combTop))
    && ((colsOf img.entries).isEmpty || !(rdB d (pPart p) Reg.CTL_TRACE_STATUS 2 || (partOf d p).traceArm.isSome))

/-- Two partitions with windows on one port belong to one job (R377). -/
def jobsOk (d : Dev) (c p : Nat) (img : Image) (wins : List Win) : Bool :=
  let ports := (wins.flatMap Win.ports).eraseDups
  (otherImages d c).all fun e => e.1 == p || e.2.2.jobId == img.jobId
    || !(imageWins d (0, 0) e.2.2).any fun w => w.ports.any ports.contains

/-- The reservation checks: R266, R289 and every other rule that gives code 5; a Tier H share that the partition's slices carried but
those in service no longer do is one of them (R283) (log entry 122, DEDUCED). -/
def reservationsOk (d : Dev) (c p : Nat) (img : Image) (wins : List Win) (usable : Nat) : Bool :=
  decide (img.hRate ≤ 192 * slicesInService d p) && enginesOk d c p img && keysOk img && combinesOk img && wins.all Win.ok && winsApart wins && jobsOk d c p img wins
    && sharesOk d c p img && foragerFits d c p img usable && !writesReadOnly d img && vatOk d c p img && remoteStagingOk d c img
    && heldFree d c p img && broodFits d c p img && colStagingOk d p img

/-! ## The loader -/

/-- Is the signature section good (R480)? `sig` is the section's bytes. -/
def signatureOk (d : Dev) (pr : Propolis) (l : List Byte) (sig : List Byte) : Bool :=
  if (secOf l 0xF0).isNone then !rdB d (pSec 0) Reg.SEC_POLICY 0
  else
    let k := leAt sig 0 1
    decide (32 ≤ sig.length) && decide (k < 8) && smGetD 0 pr.keys k != 0
      && Config.slhVerify (smGetD 0 pr.keys k).toNat (sliceBytes l 0 256) (sig.drop 32)

/-- The image that the bytes spell, with its usable cycles and windows. -/
def loadParts (d : Dev) (l : List Byte) : Image × (Nat × Nat) × List Win :=
  let img := readImage l
  let u := usableOf img.frameExp img.clock
  (img, u, winsOf d u l img)

/-- LOAD_ERR of an image for a context: the first check of R43 that fails, or 0. `avail` is the bytes of the buffer from the
image's start, `l` the first IMAGE_SIZE of them and `sig` the signature section (log entry 71, DEDUCED). -/
def loadErr (d : Dev) (pr : Propolis) (c p : Nat) (l sig : List Byte) (avail : Nat) : Nat :=
  if !headerOk l avail then 1
  else if sha256 (l.drop 256) != sliceBytes l 0x40 32 then 2
  else if !signatureOk d pr l sig then 7
  else if leAt l 0x16 2 ≠ rdF d pDev Reg.CTL_CAP_TIMING 15 0 ∨ leAt l 0x24 4 ≠ rdF d pDev Reg.CTL_CAP_TIMING 31 16 then 6
  else if !bodyOk d l || !zeroBytes sig 1 31 then 1
  else
    let q := loadParts d l
    if !ratesOk d p q.1 then 1
    else if !capOk d q.1 then 3
    else if !shapeOk d c p q.1 q.2.2 then 4
    else if !reservationsOk d c p q.1 q.2.2 q.2.1.1 then 5
    else 0

/-- The bytes of an image in a buffer: those of IMAGE_SIZE, the signature section, and how many the buffer holds. -/
def imageBytes (d : Dev) (h off : Nat) : List Byte × List Byte × Nat :=
  let a := bufAddr d.vat h + off
  let avail := poolBytes (hPool h) - off
  let head := engBytes d a (min avail 256)
  let l := engBytes d a (min avail (leAt head 8 8))
  let sig := match secOf l 0xF0 with
    | some s => if s.1 + s.2.1 ≤ avail then engBytes d (a + s.1) s.2.1 else []
    | none => []
  (l, sig, avail)

end Sys2Proof.Machine
end

