-- ==== Sys2Proof/Machine/SecLog.lean ====
section
/-! DEFINITION. The watermark logs (19 R481, R482), and the propolis table as bytes for the digest that they and the reports
hold. -/

namespace Sys2Proof.Machine

/-- An empty log (R481). -/
def SecLog.init : SecLog := ⟨[], List.replicate 32 0, List.replicate 32 0, 0, 0⟩

/-- The log of a SEC instance. -/
def logOf (d : Dev) (i : Nat) : SecLog := smGetD SecLog.init d.sec.logs i

/-- The accumulator after more entries. -/
def foldAccum (a : List Byte) (es : List (List Byte)) : List Byte := es.foldl (fun a e => sha256 (a ++ e)) a

/-- A full log drops its oldest 1,024 entries (R482). -/
def foldLog (d : Dev) (i : Nat) : Dev :=
  let l := logOf d i
  if l.entries.length < 4096 then d
  else
    let l := { l with entries := l.entries.drop 1024, fold := foldAccum l.fold (l.entries.take 1024), first := l.first + 1024 }
    event { d with sec := { d.sec with logs := smPutD SecLog.init d.sec.logs i l } } (pSec i) Reg.SEC_EVENTS 4 Reg.SEC_EVT_LOG_FOLDED

/-- Bytes of a log entry (Table 19-5). -/
def logEntry (seq type subject ctx time version : Nat) (measurement : List Byte) : List Byte :=
  leBytes 4 seq ++ leBytes 1 type ++ leBytes 1 subject ++ leBytes 2 ctx ++ leBytes 8 time ++ leBytes 4 version ++ leBytes 12 0
    ++ sliceBytes measurement 0 32

/-- Appends an entry to a log (R481). -/
def appendLog (d : Dev) (i type subject ctx version : Nat) (measurement : List Byte) : Dev :=
  let d := foldLog d i
  let l := logOf d i
  let e := logEntry l.next type subject ctx d.hall version measurement
  let l' := { l with entries := l.entries ++ [e], accum := sha256 (l.accum ++ e), next := l.next + 1 }
  wrN { d with sec := { d.sec with logs := smPutD SecLog.init d.sec.logs i l' } } (pSec i) Reg.SEC_LOG_SEQ l.next

/-- Appends an entry to both logs: TYPE 5, 6 and 8. -/
def logBoth (d : Dev) (type subject ctx : Nat) (measurement : List Byte) : Dev :=
  appendLog (appendLog d 0 type subject ctx 0 measurement) 1 type subject ctx 0 measurement

/-! ## The propolis table as bytes -/

/-- A window entry (Table 13-2). -/
def windowBytes (e : WindowEntry) : List Byte :=
  leBytes 8 e.base ++ leBytes 8 e.length
    ++ leBytes 1 (e.owner.val + 16 * b2n e.replica + 32 * b2n e.load + 64 * b2n e.store + 128 * b2n e.atomic) ++ leBytes 1 0
    ++ leBytes 2 e.srcLo ++ leBytes 2 e.srcHi ++ leBytes 2 e.srcParts.toNat ++ leBytes 4 e.recvObject ++ leBytes 4 0

/-- A trigger entry (R347). -/
def triggerBytes (e : TriggerEntry) : List Byte :=
  leBytes 1 e.targetPart.val ++ leBytes 1 0 ++ leBytes 2 e.targetCell.val ++ leBytes 2 e.idLo ++ leBytes 2 e.idHi ++ leBytes 2 e.srcLo
    ++ leBytes 2 e.srcHi ++ leBytes 2 e.srcParts.toNat

/-- A grant (Table 19-8). -/
def grantBytes (e : GrantEntry) : List Byte :=
  leBytes 2 e.requester.toNat ++ leBytes 2 e.reqMask.toNat ++ leBytes 2 e.pathLo ++ leBytes 2 e.pathHi
    ++ leBytes 1 (b2n e.read + 2 * b2n e.write + 4 * b2n e.test + 8 * b2n e.admin)

/-- A host data window (Table 19-8). -/
def hostBytes (e : HostWindow) : List Byte :=
  leBytes 8 e.base ++ leBytes 8 e.length ++ leBytes 1 (b2n e.port0 + 2 * b2n e.port1) ++ leBytes 1 (b2n e.read + 2 * b2n e.write)

/-- The table in force as bytes: every entry after its part and index (log entry 9, DESIGN CHOICE). -/
def tableBytes (d : Dev) (pr : Propolis) : List Byte :=
  let part := fun {β : Type} (n : Nat) (m : SMap β) (f : β → List Byte) => m.flatMap fun e => leBytes 1 n ++ leBytes 2 e.1 ++ f e.2
  ((List.range 16).flatMap fun p => leBytes 4 (rdN d (pPart p) Reg.CTL_PART_COMBS) ++ leBytes 4 (rdN d (pPart p) Reg.CTL_PART_PORTS)
      ++ leBytes 8 (rdN d (pPart p) Reg.CTL_PART_SLICES))
    ++ part 1 pr.windows windowBytes ++ part 2 pr.triggers triggerBytes ++ part 3 pr.grants grantBytes ++ part 4 pr.hosts hostBytes
    ++ part 5 d.host.both (fun b => leBytes 1 (b2n b)) ++ part 6 pr.keys (fun k => leBytes 48 k.toNat)
    ++ part 7 pr.revoked (fun k => leBytes 32 k.toNat)
    ++ leBytes 4 (rdN d (pSec 0) Reg.SEC_POLICY) ++ leBytes 4 (rdN d (pSec 0) Reg.SEC_LINK_POLICY) ++ leBytes 2 d.fuses.svnMin

/-- PROPOLIS_DIGEST of the table in force. -/
def tableDigest (d : Dev) (pr : Propolis) : List Byte := Config.tableDigest (tableBytes d pr)

/-- A change of the propolis table has taken effect (R490). -/
def logTable (d : Dev) (pr : Propolis) : Dev := logBoth d 6 0 0xFFFF (tableDigest d pr)

end Sys2Proof.Machine
end

