-- ==== Sys2Proof/Machine/Contexts.lean ====
section
/-! DEFINITION. Contexts and the host's commands (15 R373 to R387): what a command record must look like, when it is refused, when
it takes effect and what it does; images taking effect (01 R524) and leaving (15 R385); and the rows of the opcode table that
are such commands. A record waits among the drained records of its partition, in order within its context, until it takes
effect. -/

namespace Sys2Proof.Machine

/-! ## Components and statuses -/

/-- Does a firmware component of the active complex run (CTL_CX_STATUS.RUNNING)? -/
def compUp (d : Dev) (n : Nat) : Bool :=
  match activeCpx d with
  | some i => rdB d (pCtl i) Reg.CTL_CX_STATUS (8 + n)
  | none => false

/-- A component of a complex stops, and runs again within a span of ns: its time is free (R394, R399) (log entry 85, DEDUCED). -/
def compStop (d : Dev) (i n span : Nat) (restart : Bool) : Dev :=
  match smGet d.cpx i with
  | none => d
  | some x => drawFree (wrF { d with cpx := smPut d.cpx i { x with
      down := (x.down.filter fun e => e.1 != n) ++ [(n, d.hall + Config.freeValue d.freeSeq 0 % (span + 1), restart)] } }
      (pCtl i) Reg.CTL_CX_STATUS (8 + n) (8 + n) 0)

/-- A stopped component runs again; a restarted one is logged with the digest that it had (R394, R481). -/
def compBack (i : Nat) (d : Dev) (e : Nat × Nat × Bool) : Dev :=
  let d := wrF d (pCtl i) Reg.CTL_CX_STATUS (8 + e.1) (8 + e.1) 1
  if e.2.2 then appendLog d i 3 e.1 0xFFFF 0 ((((smGet d.cpx i).map Cpx.comps).bind fun m => smGet m e.1).getD []) else d

/-- The components whose time has come run again. -/
def compsBack (d : Dev) : Dev :=
  [0, 1].foldl (fun d i => match smGet d.cpx i with
    | none => d
    | some x =>
      let due := fun (e : Nat × Nat × Bool) => decide (e.2.1 ≤ d.hall)
      (x.down.filter due).foldl (compBack i) { d with cpx := smPut d.cpx i { x with down := x.down.filter fun e => !due e } }) d

/-- The argument bytes that an opcode uses: offset and length (Table 15-4). -/
def argSpans (op : Nat) : List (Nat × Nat) :=
  match op with
  | 0x01 => [(0, 8)] | 0x02 => [(0, 5)] | 0x04 => [(0, 1)] | 0x05 => [(0, 8)] | 0x06 => [(0, 3)] | 0x07 => [(0, 4)] | 0x08 => [(0, 12)]
  | 0x10 => [(0, 31)] | 0x11 => [(0, 11), (12, 13)] | 0x12 => [(0, 10)] | 0x13 => [(0, 10)] | 0x14 => [(0, 10)]
  | 0x20 => [(0, 3)] | 0x21 => [(0, 1)] | 0x22 => [(0, 1), (4, 16)] | 0x23 => [(0, 1), (4, 8)] | 0x24 => [(0, 1)] | 0x25 => [(0, 1), (4, 8)]
  | _ => []

/-- Are the unused bytes of a record's ARG and its reserved flags 0 (Table 15-3)? -/
def argClean (r : CmdRec) : Bool :=
  (List.range 56).all (fun i => (argSpans r.opcode).any (fun s => decide (s.1 ≤ i) && decide (i < s.1 + s.2)) || r.arg.getD i 0 == 0)
    && decide (r.flags ≤ if r.opcode = 3 then 1 else 0)

/-- Opcodes of a context inbox. -/
def ctxOps : List Nat := [1, 2, 3, 4, 5, 6, 7, 8, 0x10, 0x11, 0x12, 0x13, 0x14, 0x1F]

/-- A command of a context takes effect or is refused: its arrival number is the last applied (R397) and it is completed. -/
def finish (d : Dev) (r : CmdRec) (status : Nat) (res : List Byte) : Dev :=
  ctxCpl (modCtx d r.ctx fun x => { x with applied := r.number }) r.ctx r.opcode status r.tag res

/-- A command of the device inbox takes effect or is refused. -/
def finishDev (d : Dev) (r : CmdRec) (status : Nat) (res : List Byte) : Dev :=
  devCpl { d with host := { d.host with applied := r.number } } r.port r.opcode status r.tag res

/-! ## Units of a loaded partition (Table 02-6) -/

/-- The cells, combs and engines that a partition may own. -/
def ownable (f : Fuses) : List Nat :=
  (List.range f.nCombs).map pComb ++ (List.range f.nCells).map pCell ++ [pWgl 0, pWgl 1, pSwm 0, pSwm 1]

/-- READY units of a loaded partition are RUNNING, and RUNNING units of none are READY (Table 02-6). -/
def syncRunning (d : Dev) : Dev :=
  (ownable d.fuses).foldl (fun d u =>
    let own := ((ownerOf d u).map (loaded d)).getD false
    if own && stateIs d u .ready then setState d u .running
    else if !own && stateIs d u .running then setState d u .ready
    else d) d

/-! ## Images (R43, R521, R522, R524) -/

/-- An image leaves a context: its measurement is logged, its groups and the job's members are forgotten (R354, R481). -/
def imageOut (d : Dev) (c : Nat) : Dev :=
  let x := ctxOf d c
  if x.image.isNone then d
  else
    let d := unbindGroups (logBoth d 8 x.part c []) c
    let d := modCtx d c fun x => { x with image := none }
    let left := !(images d x.part).isEmpty
    let d := wrF d (pPart x.part) Reg.CTL_LOAD_STATUS 4 4 (b2n left)
    syncRunning (if left then d else { d with rmt := { d.rmt with members := smDel d.rmt.members x.part } })

/-- DESC_COUNT is fixed at the load of a partition's first image, at a number that the spec gives no source: it is free, up to 1,048,576
(R258) (log entry 135, DESIGN CHOICE). -/
def fixDescs (d : Dev) (p : Nat) : Dev :=
  if !(images d p).isEmpty then d
  else drawFree { d with tier := { d.tier with descCount := smPut d.tier.descCount p (Config.freeValue d.freeSeq 0 % 1048577) } }

/-- An image takes effect in a context at a tick (R524): quotas, carve, frame length, the indices it holds. -/
def imageIn (d : Dev) (p c : Nat) (img : Image) : Dev :=
  let d := fixDescs (imageOut d c) p
  let u := pPart p
  let need := needExp img (clockCode d)
  let d := modCtx d c fun x => { x with
    image := some img, state := .loaded, pinned := decide (1 < img.members), preempted := false, ordinal := 0, ovRow := 0,
    ovHist := [], poolRow := 0, fresh := true, held := (x.held ++ img.objects).eraseDups }
  let d := wrF (wrF (wrF d u Reg.CTL_LOAD_STATUS 3 0 0) u Reg.CTL_LOAD_STATUS 4 4 1) u Reg.CTL_FRAME_STATUS 6 6 0
  let d := wrF (wrF (wrF d u Reg.CTL_FRAME_ACTIVE 2 0 (min 6 need)) u Reg.CTL_FRAME_ACTIVE 10 8 img.frameExp) u Reg.CTL_FRAME_NEXT 8 8 0
  let d := if img.frameExp < need then event d u Reg.CTL_FRAME_STATUS 2 Reg.CTL_EVT_ESCALATED else d
  let d := setQuotas d c img.quotas
  let d := if smGet d.vat.carve p = some (img.n1m, img.n64k, img.combTop) then d else carveCombs d p img.n1m img.n64k img.combTop
  let d := logBoth (syncRunning d) 5 p c img.digest
  if 6 < need then exhausted d p else d

/-- May an image that changes the frame length take effect at a time (R524)? -/
def lengthDue (d : Dev) (p : Nat) (img : Image) (now : Nat) : Bool :=
  let n := needExp img (clockCode d)
  decide (6 < n) || n == frameExp d p
    || (decide (now % frameLen (max n (frameExp d p)) = 0) && !offClock d n now)

/-- Is a handle HELD by a context (Table 15-4)? It is checked with its byte offset, and a failed check is recorded (R299). -/
def heldOk (d : Dev) (p c h off : Nat) : Dev × Bool :=
  let code := handleCode d p h off false
  if code ≠ 0 then (checkFailed d p h false code, false)
  else
    let b := bufOf d.vat (hPool h) (hIndex h)
    (d, decide (b.state = .held) && b.ctx == c)

/-! ## The object table (R379, R521) -/

/-- Publishes a handle at an index: the old buffer is LEAVING, the new one PUBLISHED; 0 unbinds (R25, R292). -/
def publishAt (d : Dev) (p obj h : Nat) : Dev :=
  let old := smGetD 0 (partOf d p).objects obj
  if old = h then d
  else
    let d := if old = 0 then d else setBuf d old .leaving
    let d := modPart d p fun t => { t with objects := if h = 0 then smDel t.objects obj else smPut t.objects obj h }
    if h = 0 then d else newHandle (setBuf d h .published) p obj

/-- Does another context of the partition hold an index? -/
def heldElsewhere (d : Dev) (p c obj : Nat) : Bool := (ctxsOf d p).any fun k => k != c && (ctxOf d k).held.contains obj

/-! ## Context commands (Table 15-4) -/

/-- LOAD_IMAGE. -/
def cmdLoad (d : Dev) (pr : Propolis) (p : Nat) (r : CmdRec) (now : Nat) : Dev × Bool :=
  let h := leAt r.arg 0 4
  let off := leAt r.arg 4 4
  let q := heldOk d p r.ctx h off
  if rdF d pTim Reg.TIM_STATUS 2 0 = 0 then (finish d r 3 [], true)
  else if !q.2 then (finish q.1 r 2 [], true)
  else
    let d := q.1
    let b := imageBytes d h off
    let code := loadErr d pr r.ctx p b.1 b.2.1 b.2.2
    if code ≠ 0 then
      let d := if code = 7 then event d (pSec 0) Reg.SEC_EVENTS 0 Reg.SEC_EVT_SIG_FAIL else d
      (finish (wrF d (pPart p) Reg.CTL_LOAD_STATUS 3 0 code) r 6 [BitVec.ofNat 8 code], true)
    else
      let img := readImage b.1
      if !lengthDue d p img now then (d, false) else (finish (imageIn d p r.ctx img) r 0 [], true)

/-- Members of a job as its images name them (R339): the exchange group, the peers of the commit map and the members of its
groups in this pod. -/
def imageMembers (d : Dev) (p : Nat) (img : Image) : List Peer :=
  let self : Peer := ⟨myNode d, Fin.ofNat 16 p⟩
  let boxes := img.groups.flatMap fun g =>
    (List.range 2048).filterMap fun n => if (g.ranks n (myPod d)).isSome then some (⟨n, Fin.ofNat 16 g.part⟩ : Peer) else none
  (self :: img.exch ++ img.commitMap.map CommitEntry.peer ++ boxes).eraseDups

/-- The members of a context's job in other partitions of this device: partition, context, image. -/
def jobHere (d : Dev) (p c : Nat) (img : Image) : List (Nat × Nat × Image) :=
  (otherImages d c).filter fun e => e.1 != p && e.2.2.jobId == img.jobId

/-- Has a job members on other devices? -/
def jobAway (d : Dev) (p : Nat) (img : Image) : Bool := (imageMembers d p img).any fun m => m.node != myNode d

/-- The common tick of a job: the one that a member here has been given, else the first at least 1 ms ahead (R381). -/
def jobTick (d : Dev) (p c : Nat) (img : Image) (now : Nat) : Nat :=
  ((jobHere d p c img).findSome? fun e => (ctxOf d e.2.1).startAt.filter fun t => decide (now < t)).getD
    (roundUp (now + 1000000) (frameLen (frameExp d p)))

/-- Does a member of the job in another partition of this device agree with the context that starts: frame length, tick and frame number
(R15), the member list of a group they share (R204), and windows that do not overlap (R377)? A member that has started already must stand
at FRAME_NUM_START on the common tick. -/
def memberAgrees (d : Dev) (p : Nat) (img : Image) (t : Nat) (e : Nat × Nat × Image) : Bool :=
  let q := e.2.2
  let me := myNode d
  let len := frameLen (frameExp d p)
  let shared := img.exch.contains ⟨me, Fin.ofNat 16 e.1⟩ || q.exch.contains ⟨me, Fin.ofNat 16 p⟩
  frameExp d e.1 == frameExp d p && q.frameStart == img.frameStart
    && (match (ctxOf d e.2.1).startAt with
      | some s => s == t
      | none => !((ctxOf d e.2.1).state == .ready || (ctxOf d e.2.1).state == .running)
          || (frameNum d e.1 + (t - rdN d (pPart e.1) Reg.CTL_TICK_TIME) / len) % 65536 == img.frameStart)
    && (!shared || (q.exch == img.exch && q.exchGroup == img.exchGroup))
    && !(imageWins d (0, 0) img).any fun a => (imageWins d (0, 0) q).any a.meets

/-- Do the members of a job agree at its start (R15, R204, R377)? Its commit map names no partition of another job here. What the agents
of other devices answer is free (log entry 134, DESIGN CHOICE). -/
def jobAgrees (d : Dev) (p c : Nat) (img : Image) (t : Nat) : Bool :=
  decide (img.members ≤ 1)
    || ((jobHere d p c img).all (memberAgrees d p img t)
      && img.commitMap.all (fun e => e.peer.node != myNode d || e.peer.part.val == p
        || (jobHere d p c img).any fun q => q.1 == e.peer.part.val)
      && (!jobAway d p img || Config.freeValue d.freeSeq 0 % 2 == 1))

/-- The job of a context starts: groups are bound and the members recorded (R15, R339, R354); none when the groups run out. -/
def jobStart (d : Dev) (p c : Nat) (img : Image) : Option Dev :=
  (bindGroups d p c img).map fun d => { d with rmt := { d.rmt with members := smPut d.rmt.members p (imageMembers d p img) } }

/-- START: a pinned context is made READY one tick before its common tick, so that it is named for it (log entry 70, DEDUCED). -/
def cmdStart (d : Dev) (p : Nat) (r : CmdRec) (now : Nat) : Dev × Bool :=
  let x := leAt r.arg 0 4
  let prio := leAt r.arg 4 1
  let c := r.ctx
  let k := ctxOf d c
  match k.image with
  | none => (finish d r 3 [], true)
  | some img =>
    let len := frameLen (frameExp d p)
    let ready := fun (d : Dev) => modCtx d c fun q => { q with
      slice := x, prio := prio, preempted := false, runLen := 0, state := .ready, startAt := k.startAt,
      ovRow := if q.slice = x then q.ovRow else 0, poolRow := if q.slice = x then q.poolRow else 0 }
    match k.startAt with
    | some t =>
      if k.state = .loaded then
        if now + len < t then (d, false) else (ready d, false)
      else if now < t then (d, false)
      else (finish (modCtx d c fun q => { q with startAt := none }) r 0 [], true)
    | none =>
      let tick := jobTick d p c img now
      let ok := jobAgrees d p c img tick
      let d := if k.pinned && jobAway d p img then drawFree d else d
      if k.pinned ∧ (3 ≤ rdF d pTim Reg.TIM_STATUS 2 0 ∨ !ok) then (finish d r 3 [], true)
      else match jobStart d p c img with
      | none => (eventCpl (finish d r 8 []) c 6 [], true)
      | some d =>
        if k.pinned then
          (modCtx d c fun q => { q with startAt := some tick }, false)
        else
          match imageSlice x img.slices img.loop img.loopStart with
          | some _ => (finish (ready d) r 0 [], true)
          | none =>
            let d := finish (modCtx (ready d) c fun q => { q with state := .idle }) r 0 []
            (eventCpl d c 7 (leBytes 4 img.slices), true)

/-- STOP: after the next committed frame, or by a kill of the running frame (R391). -/
def cmdStop (d : Dev) (p : Nat) (r : CmdRec) (ran committed : Bool) : Dev × Bool :=
  let c := r.ctx
  let k := ctxOf d c
  let stopped := fun (d : Dev) (pre : Bool) => finish (modCtx d c fun q => { q with
    state := .loaded, preempted := pre, stopping := false, startAt := none, runLen := 0 }) r 0 (leBytes 4 k.slice)
  if k.stopping then
    (stopped (modPart d p fun t => { t with resume := true }) (ran && !committed), true)
  else if r.flags = 1 ∧ (k.state = .ready ∨ k.state = .running) then
    (modCtx (unitCommand d (fun _ => true) (pPart p) 2 0 1) c fun q => { q with stopping := true }, false)
  else if ran && !committed then (d, false)
  else (stopped d false, true)

/-- PUBLISH. -/
def cmdPublish (d : Dev) (p : Nat) (r : CmdRec) (ran committed : Bool) : Dev × Bool :=
  let obj := leAt r.arg 0 4
  let h := leAt r.arg 4 4
  if ran && !committed then (d, false)
  else
    let q := if h = 0 then (d, true) else heldOk d p r.ctx h 0
    if !q.2 || heldElsewhere d p r.ctx obj then (finish q.1 r 2 [], true)
    else
      let d := publishAt q.1 p obj h
      let d := if h = 0 then d else modCtx d r.ctx fun x => { x with held := if x.held.contains obj then x.held else x.held ++ [obj] }
      (finish d r 0 [], true)

/-- ACQUIRE (R295). -/
def cmdAcquire (d : Dev) (p : Nat) (r : CmdRec) : Dev :=
  let tier := leAt r.arg 0 1
  let cls := leAt r.arg 1 1
  let comb := leAt r.arg 2 1
  let img := (ctxOf d r.ctx).image
  if (poolOf tier cls).isNone ∨ (tier = 0 ∧ (partCombs d p).length ≤ comb) then finish d r 2 []
  else
    let sub := if tier = 0 then (partCombs d p).getD comb 0 else if tier = 2 then (img.map Image.portC).getD 0
      else if tier = 3 then (img.map Image.portF).getD 0 else 0
    let a := vatServe d p r.ctx tier cls sub false .held
    match a.2 with
    | .issued h => finish a.1 r 0 (leBytes 4 h)
    | .empty => finish (vatShort a.1 tier .empty) r 11 []
    | .quota => finish (vatShort a.1 tier .quota) r 12 []

/-- RELEASE (R295): the buffer is released at the tick. -/
def cmdRelease (d : Dev) (p : Nat) (r : CmdRec) : Dev :=
  let h := leAt r.arg 0 4
  let code := handleCode d p h 0 false
  let b := bufOf d.vat (hPool h) (hIndex h)
  if code ≠ 0 then finish (checkFailed d p h false code) r 2 []
  else if b.state = .published ∨ b.state = .leaving then finish d r 13 []
  else if b.state ≠ .held ∨ b.ctx ≠ r.ctx ∨ b.queued then finish d r 2 []
  else finish { d with vat := modBuf d.vat (hPool h) (hIndex h) fun b => { b with queued := true } } r 0 []

/-- A descriptor in 64 bytes (Table 10-3), over the bits that the device writes. -/
def readDesc (old : Desc) (l : List Byte) : Desc :=
  let f := leAt l
  { old with
    layout := f 0 1, mxKind := f 1 1, pack := bitAt (f 2 2) 0, maskObject := f 4 4, size := f 8 8, nodeRep := bitAt (f 0x10 1) 0,
    hostRep := bitAt (f 0x10 1) 1, repNode := f 0x12 2 % 2048, repOffset := f 0x18 8, hostKey := BitVec.ofNat 64 (f 0x20 8) }

/-- Are the reserved bytes of a descriptor 0 and its codes known? -/
def descOk (l : List Byte) : Bool :=
  decide (leAt l 0 1 ≤ 2) && decide (leAt l 1 1 ≤ 5) && decide (leAt l 2 2 < 8) && decide (leAt l 0x10 1 < 4) && zeroBytes l 0x11 1
    && decide (leAt l 0x12 2 < 2048) && zeroBytes l 0x14 4 && zeroBytes l 0x32 14

/-- SET_DESCRIPTOR (R258, R259). -/
def cmdDescriptor (d : Dev) (p : Nat) (r : CmdRec) : Dev :=
  let obj := leAt r.arg 0 4
  let h := leAt r.arg 4 4
  let off := leAt r.arg 8 4
  let q := heldOk d p r.ctx h off
  let l := engBytes d (bufAddr d.vat h + off) 64
  if !q.2 ∨ descCount d p ≤ obj ∨ poolBytes (hPool h) < off + 64 ∨ !descOk l then finish q.1 r 2 []
  else finish (modDesc q.1 p obj fun x => readDesc x l) r 0 []

/-- The brood operation of a record (Table 09-3). -/
def brdOpOf (r : CmdRec) : BrdOp :=
  let f := leAt r.arg
  let id := BitVec.ofNat 64 (f 0 8)
  match r.opcode with
  | 0x10 => .admitSeq id (f 8 4) (f 0xC 4) (f 0x10 4) (f 0x14 4) (f 0x18 4) (f 0x1C 1) (f 0x1D 1) (bitAt (f 0x1E 1) 0)
  | 0x11 => .update id (f 8 2) (f 0xA 1) (f 0xC 4) (f 0x10 4) (f 0x14 4) (f 0x18 1)
  | 0x12 => .hold id (f 8 2)
  | 0x13 => .resume id (f 8 2)
  | _ => .remove id (f 8 2)

/-- A brood operation joins the block's queue; a partition without a brood record refuses it (log entry 74, DEDUCED). -/
def cmdBrood (d : Dev) (p : Nat) (r : CmdRec) : Dev :=
  if !((images d p).any fun e => e.2.brood.isSome) then finish d r 3 []
  else if r.opcode = 0x10 ∧ 1 < leAt r.arg 0x1E 1 then finish d r 2 []
  else queueBrd (modCtx d r.ctx fun x => { x with applied := r.number }) p ⟨r.ctx, r.tag, brdOpOf r⟩

/-- The refusal of a record for what it is, or for the state of its context (R383 to R385); 0 when there is none. -/
def recRefuse (d : Dev) (r : CmdRec) : Nat :=
  let x := ctxOf d r.ctx
  let op := r.opcode
  let prio := if op = 2 then leAt r.arg 4 1 else if op = 4 then leAt r.arg 0 1 else 0
  let obj := if op = 5 ∨ op = 8 then leAt r.arg 0 4 else 0
  if !ctxOps.contains op then 1
  else if r.port ≠ x.port ∧ !smGetD false d.host.both r.ctx then 4
  else if !argClean r ∨ 7 < prio ∨ 2 ^ 24 ≤ obj then 2
  else match x.state with
    | .free => 3
    | .halted => if op = 3 then 0 else 3
    | .open => if op = 2 ∨ op = 3 then 3 else 0
    | .loaded => 0
    | _ => if op = 1 ∨ op = 2 then 3 else 0

/-- A record of a context: the state after it and whether it took effect or was refused; else it goes on waiting. `ran` says
that its context ran the frame that is ending (or runs now), `committed` that this frame commits. -/
def applyCmd (d : Dev) (pr : Propolis) (p : Nat) (r : CmdRec) (ran committed : Bool) (now : Nat) : Dev × Bool :=
  let x := ctxOf d r.ctx
  let code := if x.stopping || x.startAt.isSome then 0 else recRefuse d r
  if code ≠ 0 then (finish d r code [], true)
  else match r.opcode with
    | 0x01 => cmdLoad d pr p r now
    | 0x02 => cmdStart d p r now
    | 0x03 => cmdStop d p r ran committed
    | 0x04 => (finish (modCtx d r.ctx fun x => { x with prio := leAt r.arg 0 1 }) r 0 [], true)
    | 0x05 => cmdPublish d p r ran committed
    | 0x06 => (cmdAcquire d p r, true)
    | 0x07 => (cmdRelease d p r, true)
    | 0x08 => (cmdDescriptor d p r, true)
    | 0x1F => (finish d r 0 [], true)
    | _ => (cmdBrood d p r, true)

/-! ## Step boundaries (R232, R241) -/

/-- The image of a model slot, read from its buffer. -/
def slotImage (d : Dev) (m : Nat) : Option (List Byte) :=
  match smGet d.host.slots m with
  | some (h, off, _, true) => some (imageBytes d h off).1
  | _ => none

/-- The model slots that a context's next step may run: those of its partition, whose image passes the shape and reservation checks and may
take effect now, or runs already, and that have an eligible entry. Slot, image, priority (R241) (log entry 115, DEDUCED). -/
def slotChoices (d : Dev) (p c cur t : Nat) : List (Nat × Image × Nat) :=
  (List.range 64).filterMap fun m =>
    if !slotReady d m then none
    else (slotImage d m).bind fun l =>
      let q := loadParts d l
      q.1.brood.bind fun r =>
        if r.slot != m || (m != cur && !(shapeOk d c p q.1 q.2.2 && reservationsOk d c p q.1 q.2.2 q.2.1.1 && lengthDue d p q.1 t)) then none
        else (bestEff d p r).map fun e => (m, q.1, e)

/-- The slot of the next step: the highest effective priority, ties to the lower slot. -/
def bestSlot (l : List (Nat × Image × Nat)) : Option (Nat × Image) :=
  (sortBy (fun a b => decide (b.2.2 < a.2.2) || (a.2.2 == b.2.2 && decide (a.1 < b.1))) l).head?.map fun e => (e.1, e.2.1)

/-- After a boundary the scheduler chooses the slot: the context goes on, switches images, or is IDLE (R241, R390). -/
def chooseSlot (d : Dev) (p c : Nat) (r : BroodRec) (t : Nat) : Dev :=
  let k := ctxOf d c
  let more := match k.image with
    | some i => (imageSlice k.slice i.slices i.loop i.loopStart).isSome
    | none => false
  match bestSlot (slotChoices d p c r.slot t) with
  | none => if k.state = .ready then modCtx d c fun k => { k with state := .idle } else d
  | some (m, img) =>
    if m = r.slot then (if decide (k.state = .idle) && more then modCtx d c fun k => { k with state := .ready } else d)
    else
      let d := modCtx (imageIn d p c img) c fun q => { q with
        state := if q.state = .halted then .halted else if k.state = .loaded then .loaded else .ready, slice := 0 }
      modPart d p fun t => { t with staged := t.staged.filter fun e => e.2.1 != c }

/-- A step boundary of a context: the brood table changes, and the slot of the next step is chosen. -/
def boundaryOf (d : Dev) (p c : Nat) (r : BroodRec) (stepped : Bool) (t : Nat) : Dev :=
  modCtx (chooseSlot (stepBoundary d p r stepped) p c r t) c fun x => { x with fresh := false }

/-- The tick at which an image is loaded is a step boundary of its partition (R232). -/
def loadBoundary (d : Dev) (p c t : Nat) : Dev :=
  match (ctxOf d c).fresh, (ctxOf d c).image.bind Image.brood with
  | true, some r => boundaryOf d p c r false t
  | true, none => modCtx d c fun x => { x with fresh := false }
  | false, _ => d

/-! ## Closing (R385) -/

/-- CLOSE_CONTEXT at a tick of its partition: object table entries and HELD buffers go, drained records are refused. -/
def closeCtx (d : Dev) (r : CmdRec) : Dev :=
  let c := leAt r.arg 0 1
  let x := ctxOf d c
  let p := x.part
  if x.state ≠ .open ∧ x.state ≠ .loaded ∧ x.state ≠ .halted then finishDev d r 3 []
  else
    let d := x.held.foldl (fun d o => publishAt d p o 0) d
    let d := { d with vat := { d.vat with bufs := d.vat.bufs.map fun e =>
      (e.1, if e.2.ctx = c ∧ e.2.part = p ∧ e.2.state = .held then { e.2 with queued := true } else e.2) } }
    let rest := (partOf d p).drained.filter fun q => q.opcode != 0x21 && q.ctx == c
    let d := modPart (imageOut d c) p fun t => { t with drained := t.drained.filter fun q => q.opcode == 0x21 || q.ctx != c }
    let d := rest.foldl (fun d q => finish d q 3 []) d
    let d := setQuotas d c [0, 0, 0, 0]
    let k := ctxOf d c
    finishDev (modCtx d c fun _ => { Ctx.init with inbox := k.inbox, arrived := k.arrived, applied := k.applied, seq := k.seq }) r 0 []

/-! ## Waiting records -/

/-- Applies the drained records of a partition: device inbox first, then contexts in ascending number, each in order; a record
that goes on waiting holds back those of its context after it (R384, R397). -/
def applyDrained (d : Dev) (pr : Propolis) (p : Nat) (ranCtx : Option Nat) (committed : Bool) (now : Nat) : Dev :=
  let step := fun (s : Dev × List Nat) (r : CmdRec) =>
    if r.opcode = 0x21 ∧ r.ctx = 256 then (closeCtx s.1 r, s.2)
    else if s.2.contains r.ctx || (ctxOf s.1 r.ctx).part != p || decide ((ctxOf s.1 r.ctx).state = .free) then s
    else
      let a := applyCmd s.1 pr p r (ranCtx == some r.ctx) committed now
      if a.2 then (modPart a.1 p fun t => { t with drained := t.drained.filter fun q => !decide (q = r) }, s.2)
      else (a.1, r.ctx :: s.2)
  let rs := (partOf d p).drained
  let closes := rs.filter fun r => r.opcode == 0x21 && r.ctx == 256
  let d := modPart d p fun t => { t with drained := t.drained.filter fun r => !(r.opcode == 0x21 && r.ctx == 256) }
  let rest := sortBy (fun a b => decide (a.ctx < b.ctx)) (rs.filter fun r => !(r.opcode == 0x21 && r.ctx == 256))
  (rest.foldl step ((closes.foldl (fun d r => closeCtx d r) d), [])).1

/-- Does a partition stand at its tick, with no context running? -/
def atTick (d : Dev) (p : Nat) : Bool :=
  (running d p).isNone && !(partOf d p).cutTaken && rdN d (pPart p) Reg.CTL_TICK_TIME == d.hall

/-- A record finds its inbox full (R382). -/
def inboxFull (d : Dev) : Dev :=
  event d (pCtl ((activeCpx d).getD 0)) Reg.CTL_CX_EVENTS 3 Reg.CTL_EVT_INBOX_FULL

/-- A record goes to its inbox, where it is numbered; a CONTEXT that names none is refused with BAD_FIELD (R382) (log entry 63,
DEDUCED). -/
def placeRec (d : Dev) (r : CmdRec) : Dev :=
  if r.ctx < 256 then
    let x := ctxOf d r.ctx
    if 64 ≤ x.inbox.length then ctxCpl (inboxFull d) r.ctx r.opcode 5 r.tag []
    else modCtx d r.ctx fun x => { x with arrived := x.arrived + 1, inbox := x.inbox ++ [{ r with number := x.arrived + 1 }] }
  else if r.ctx = 256 then
    let h := d.host
    if 64 ≤ h.inbox.length then devCpl (inboxFull d) r.port r.opcode 5 r.tag []
    else { d with host := { h with arrived := h.arrived + 1, inbox := h.inbox ++ [{ r with number := h.arrived + 1 }] } }
  else devCpl d r.port r.opcode 2 r.tag []

/-- Does the scheduler drain records whose completions a port takes: it runs, and the port has room for them (R394, R411)? -/
def drains (d : Dev) (port : Nat) : Bool := compUp d 1 && decide ((hxvOf d port).queue.length < 3840)

/-- Is a record drained as it arrives: its partition stands at its tick, the scheduler drains, and nothing of its context waits
before it? -/
def drainsNow (d : Dev) (c : Nat) : Bool :=
  let x := ctxOf d c
  atTick d x.part && drains d (cplPort d c) && x.inbox.isEmpty && !(partOf d x.part).drained.any fun q => q.ctx == c

/-- A command row: the record arrives at its context's inbox. While its partition stands at a tick it is drained and takes effect there, and
an image that it loads has its step boundary there; otherwise it waits in the inbox for the completion cut (R384, Table 15-4) (log entry 73, DESIGN CHOICE). -/
def cmdRow (d : Dev) (pr : Propolis) (c op flags : Nat) (tag : W32) (arg : List Byte) : Dev :=
  let x := ctxOf d c
  let r : CmdRec := ⟨x.port, x.arrived + 1, op, flags, c, tag, sliceBytes arg 0 56⟩
  if x.state ≠ .free ∧ !drainsNow d c then placeRec d r
  else
    let d := bump (modCtx d c fun q => { q with arrived := r.number }) (pCtl ((activeCpx d).getD 0)) Reg.CTL_COMMANDS 1
    if x.state = .free then finish d r 3 []
    else
      let a := applyCmd d pr x.part r false false d.hall
      if a.2 then (if x.fresh then a.1 else loadBoundary a.1 x.part c d.hall) else modPart a.1 x.part fun t => { t with drained := t.drained ++ [r] }

/-! ## Device-wide commands -/

/-- OPEN_CONTEXT (R378, R385, R388, R522). -/
def cmdOpen (d : Dev) (r : CmdRec) : Dev :=
  let want := leAt r.arg 0 2
  let p := leAt r.arg 2 1
  if (255 < want ∧ want ≠ 0xFFFF) ∨ 15 < p then finishDev d r 2 []
  else if (partCombs d p).isEmpty ∨ (ctxsOf d p).any fun c => (ctxOf d c).pinned then finishDev d r 3 []
  else match (if want = 0xFFFF then (List.range 256).find? fun c => decide ((ctxOf d c).state = .free) else some want) with
    | none => finishDev d r 8 []
    | some c =>
      if (ctxOf d c).state ≠ .free then finishDev d r 3 []
      else
        let d := modCtx d c fun x => { x with
          state := .open, part := p, port := r.port, lastRun := (frameNum d p + 65536 - 32767) % 65536 }
        finishDev (setQuotas d c [0, 256 * 2 ^ 20, 0, 0]) r 0 (leBytes 2 c)

/-- May a comb join a partition: it is there, no other partition holds it, and no cell of it is out of service (R374, R442)? -/
def combFree (d : Dev) (p k : Nat) : Bool :=
  decide (k < d.fuses.nCombs) && ((combOwner d k).getD p) == p && !d.bup.out.contains (pComb k)
    && (List.range 8).all fun i => !d.bup.out.contains (pCell (8 * k + i))

/-- SET_PARTITION (R374): the shape takes effect at the grid point, and the change is logged (R490). -/
def cmdPartition (d : Dev) (pr : Propolis) (r : CmdRec) : Dev :=
  let p := leAt r.arg 0 1
  let combs := leAt r.arg 4 4
  let slices := leAt r.arg 8 8
  let ports := leAt r.arg 16 4
  let others := (List.range 16).filter (· != p)
  if 15 < p then finishDev d r 2 []
  else if !(ctxsOf d p).isEmpty then finishDev d r 3 []
  else if !(setBits combs 32).all (combFree d p) ∨ !(setBits slices 64).all (fun s => d.fuses.stack (s / 8))
      ∨ others.any (fun q => (BitVec.ofNat 64 slices &&& rd d (pPart q) Reg.CTL_PART_SLICES) != 0)
      ∨ !(setBits ports 32).all d.fuses.bol then finishDev d r 2 []
  else
    let d := wrN (wrN (wrN d (pPart p) Reg.CTL_PART_COMBS combs) (pPart p) Reg.CTL_PART_SLICES slices) (pPart p) Reg.CTL_PART_PORTS ports
    let d := { d with vat := { d.vat with carve := smDel d.vat.carve p } }
    finishDev (logTable d pr) r 0 []

/-- REGISTER_SLOT (R241): the tier manager verifies the image, and the slot is ready. The device inbox belongs to no partition, so the
handle is checked for its buffer's own (R299) (log entry 136, DEDUCED). -/
def cmdRegister (d : Dev) (pr : Propolis) (r : CmdRec) : Dev :=
  let m := leAt r.arg 0 1
  let h := leAt r.arg 4 4
  let off := leAt r.arg 8 4
  let b := bufOf d.vat (hPool h) (hIndex h)
  let check := handleCode d b.part h off false
  if 63 < m then finishDev d r 2 []
  else if check ≠ 0 then finishDev (checkFailed d b.part h false check) r 2 []
  else if b.state ≠ .held then finishDev d r 2 []
  else if (smGet d.host.slots m).isSome then finishDev d r 3 []
  else
    let q := imageBytes d h off
    let code := loadErr d pr b.ctx b.part q.1 q.2.1 q.2.2
    if code ≠ 0 ∧ code ≠ 4 ∧ code ≠ 5 then finishDev d r 6 [BitVec.ofNat 8 code]
    else
      let d := { d with host := { d.host with slots := smPut d.host.slots m (h, off, q.1.length, true) } }
      finishDev (wrF d pBrd Reg.BRD_SLOT_READY m m 1) r 0 []

/-- Does a partition run a model slot's image? -/
def slotRuns (d : Dev) (m : Nat) : Bool :=
  (List.range 16).any fun p => (images d p).any fun e => (e.2.brood.map BroodRec.slot) == some m

/-- RELEASE_SLOT (R241): at once when no partition runs the slot, else at the step boundary that ends it. -/
def cmdUnregister (d : Dev) (r : CmdRec) : Dev × Bool :=
  let m := leAt r.arg 0 1
  if 63 < m then (finishDev d r 2 [], true)
  else if (smGet d.host.slots m).isNone then (finishDev d r 10 [], true)
  else if slotRuns d m then (d, false)
  else
    let d := { d with host := { d.host with slots := smDel d.host.slots m } }
    (finishDev (wrF d pBrd Reg.BRD_SLOT_READY m m 0) r 0 [], true)

/-- Releases of model slots that waited (R241). -/
def slotReleases (d : Dev) : Dev :=
  d.host.drained.foldl (fun d r =>
    if r.opcode ≠ 0x24 then d
    else
      let a := cmdUnregister d r
      if a.2 then { a.1 with host := { a.1.host with drained := a.1.host.drained.filter fun q => !decide (q = r) } } else a.1) d

/-- The standby complex. -/
def standbyCpx (d : Dev) : Option Nat := [0, 1].find? fun i => rdF d (pCtl i) Reg.CTL_CX_STATUS 1 0 == 3

/-- SWITCHOVER (R398): the record is completed when the standby takes over; without one it is refused. -/
def cmdSwitch (d : Dev) (r : CmdRec) : Dev :=
  if (standbyCpx d).isNone then finishDev d r 3 []
  else { d with host := { d.host with drained := d.host.drained ++ [r], switch := true } }

/-- A record of the device inbox: UPDATE_COMPONENT and a release that must wait are kept. -/
def applyDevCmd (d : Dev) (pr : Propolis) (r : CmdRec) : Dev :=
  let wait := fun (d : Dev) => { d with host := { d.host with drained := d.host.drained ++ [r] } }
  if !([0x1F, 0x20, 0x21, 0x22, 0x23, 0x24, 0x25, 0x26].contains r.opcode) then finishDev d r 1 []
  else if !argClean r then finishDev d r 2 []
  else match r.opcode with
    | 0x1F => finishDev d r 0 []
    | 0x20 => cmdOpen d r
    | 0x21 =>
      let c := leAt r.arg 0 1
      let x := ctxOf d c
      if x.state = .free then finishDev d r 3 []
      else if x.port ≠ r.port ∧ !smGetD false d.host.both c then finishDev d r 4 []
      else modPart d x.part fun t => { t with drained := t.drained ++ [r] }
    | 0x22 => cmdPartition d pr r
    | 0x23 => cmdRegister d pr r
    | 0x24 =>
      let a := cmdUnregister d r
      if a.2 then a.1 else wait a.1
    | 0x25 => wait d
    | _ => cmdSwitch d r

/-- A record of the device inbox that is drained as it arrives. -/
def devRec (d : Dev) (port op : Nat) (tag : W32) (arg : List Byte) : Dev × CmdRec :=
  let n := d.host.arrived + 1
  let d := bump { d with host := { d.host with arrived := n } } (pCtl ((activeCpx d).getD 0)) Reg.CTL_COMMANDS 1
  (d, ⟨port, n, op, 0, 256, tag, sliceBytes arg 0 56⟩)

/-- Does the device stand at an 8 µs grid point, with the device inbox drained (R384)? -/
def atGrid (d : Dev) (port : Nat) : Bool := d.hall % 8000 == 0 && drains d port && d.host.inbox.isEmpty

/-- A device-wide command row: the record arrives at the device inbox. At a grid point it is drained and takes effect; otherwise it waits
for the next one (R384) (log entry 73, DESIGN CHOICE). -/
def devRow (d : Dev) (pr : Propolis) (port op : Nat) (tag : W32) (arg : List Byte) : Dev :=
  if !atGrid d port then placeRec d ⟨port, 0, op, 0, 256, tag, sliceBytes arg 0 56⟩
  else
    let q := devRec d port op tag arg
    applyDevCmd q.1 pr q.2

/-! ## The meanings -/

/-- LOAD_IMAGE takes effect (R43, R384, R524). -/
def execLoadImage (c : Fin 256) (tag handle : W32) (offset : Nat) (s : State) : Host.Outcome State Fault Refusal :=
  onDevP s fun pr d => cmdRow d pr c.val 0x01 0 tag (leBytes 4 handle.toNat ++ leBytes 4 offset)

/-- START (R380, R381). -/
def execStart (c : Fin 256) (tag : W32) (slice : Nat) (prio : Fin 8) (s : State) : Host.Outcome State Fault Refusal :=
  onDevP s fun pr d => cmdRow d pr c.val 0x02 0 tag (leBytes 4 slice ++ leBytes 1 prio.val)

/-- STOP (R391). -/
def execStop (c : Fin 256) (tag : W32) (immediate : Bool) (s : State) : Host.Outcome State Fault Refusal :=
  onDevP s fun pr d => cmdRow d pr c.val 0x03 (b2n immediate) tag []

/-- SET_PRIO. -/
def execSetPrio (c : Fin 256) (tag : W32) (prio : Fin 8) (s : State) : Host.Outcome State Fault Refusal :=
  onDevP s fun pr d => cmdRow d pr c.val 0x04 0 tag (leBytes 1 prio.val)

/-- PUBLISH (R379). -/
def execPublish (c : Fin 256) (tag : W32) (object : Nat) (handle : W32) (s : State) : Host.Outcome State Fault Refusal :=
  onDevP s fun pr d => cmdRow d pr c.val 0x05 0 tag (leBytes 4 object ++ leBytes 4 handle.toNat)

/-- ACQUIRE (R295). -/
def execAcquire (c : Fin 256) (tag : W32) (tier : Fin 4) (cls comb : Nat) (s : State) : Host.Outcome State Fault Refusal :=
  onDevP s fun pr d => cmdRow d pr c.val 0x06 0 tag (leBytes 1 tier.val ++ leBytes 1 cls ++ leBytes 1 comb)

/-- RELEASE (R295). -/
def execRelease (c : Fin 256) (tag handle : W32) (s : State) : Host.Outcome State Fault Refusal :=
  onDevP s fun pr d => cmdRow d pr c.val 0x07 0 tag (leBytes 4 handle.toNat)

/-- SET_DESCRIPTOR (R259). -/
def execSetDescriptor (c : Fin 256) (tag : W32) (object : Nat) (handle : W32) (offset : Nat) (s : State) :
    Host.Outcome State Fault Refusal :=
  onDevP s fun pr d => cmdRow d pr c.val 0x08 0 tag (leBytes 4 object ++ leBytes 4 handle.toNat ++ leBytes 4 offset)

/-- ADMIT (R233). -/
def execAdmit (c : Fin 256) (tag : W32) (seqId : W64) (kvHandle : W32) (kvLimit position promptEnd stopAt : Nat)
    (modelSlot prio : Nat) (evictEn : Bool) (s : State) : Host.Outcome State Fault Refusal :=
  onDevP s fun pr d => cmdRow d pr c.val 0x10 0 tag (leBytes 8 seqId.toNat ++ leBytes 4 kvHandle.toNat ++ leBytes 4 kvLimit
    ++ leBytes 4 position ++ leBytes 4 promptEnd ++ leBytes 4 stopAt ++ leBytes 1 modelSlot ++ leBytes 1 prio ++ leBytes 1 (b2n evictEn))

/-- UPDATE (R233). -/
def execUpdate (c : Fin 256) (tag : W32) (seqId : W64) (entry : Nat) (mask : BitVec 8) (kvHandle : W32)
    (kvLimit stopAt prio : Nat) (s : State) : Host.Outcome State Fault Refusal :=
  onDevP s fun pr d => cmdRow d pr c.val 0x11 0 tag (leBytes 8 seqId.toNat ++ leBytes 2 entry ++ leBytes 2 mask.toNat
    ++ leBytes 4 kvHandle.toNat ++ leBytes 4 kvLimit ++ leBytes 4 stopAt ++ leBytes 1 prio)

/-- HOLD (R233). -/
def execHold (c : Fin 256) (tag : W32) (seqId : W64) (entry : Nat) (s : State) : Host.Outcome State Fault Refusal :=
  onDevP s fun pr d => cmdRow d pr c.val 0x12 0 tag (leBytes 8 seqId.toNat ++ leBytes 2 entry)

/-- RESUME of a sequence (R233). -/
def execResume (c : Fin 256) (tag : W32) (seqId : W64) (entry : Nat) (s : State) : Host.Outcome State Fault Refusal :=
  onDevP s fun pr d => cmdRow d pr c.val 0x13 0 tag (leBytes 8 seqId.toNat ++ leBytes 2 entry)

/-- REMOVE (R233). -/
def execRemove (c : Fin 256) (tag : W32) (seqId : W64) (entry : Nat) (s : State) : Host.Outcome State Fault Refusal :=
  onDevP s fun pr d => cmdRow d pr c.val 0x14 0 tag (leBytes 8 seqId.toNat ++ leBytes 2 entry)

/-- NOP of any inbox (Table 15-4). -/
def execCmdNop (c : Fin 257) (tag : W32) (s : State) : Host.Outcome State Fault Refusal :=
  onDevP s fun pr d => if c.val = 256 then devRow d pr 0 0x1F tag [] else cmdRow d pr c.val 0x1F 0 tag []

/-- OPEN_CONTEXT (R378). -/
def execOpenContext (port : Fin 2) (tag : W32) (c p : Nat) (s : State) : Host.Outcome State Fault Refusal :=
  onDevP s fun pr d => devRow d pr port.val 0x20 tag (leBytes 2 c ++ leBytes 1 p)

/-- CLOSE_CONTEXT (R385). -/
def execCloseContext (port : Fin 2) (tag : W32) (c : Fin 256) (s : State) : Host.Outcome State Fault Refusal :=
  onDevP s fun pr d => devRow d pr port.val 0x21 tag (leBytes 1 c.val)

/-- SET_PARTITION (R374). -/
def execSetPartition (port : Fin 2) (tag : W32) (p : Nat) (combs : W32) (slices : W64) (ports : W32) (s : State) :
    Host.Outcome State Fault Refusal :=
  onDevP s fun pr d => devRow d pr port.val 0x22 tag (leBytes 4 p ++ leBytes 4 combs.toNat ++ leBytes 8 slices.toNat ++ leBytes 4 ports.toNat)

/-- REGISTER_SLOT (R241). -/
def execRegisterSlot (port : Fin 2) (tag : W32) (slot : Nat) (handle : W32) (offset : Nat) (s : State) :
    Host.Outcome State Fault Refusal :=
  onDevP s fun pr d => devRow d pr port.val 0x23 tag (leBytes 4 slot ++ leBytes 4 handle.toNat ++ leBytes 4 offset)

/-- RELEASE_SLOT (R241). -/
def execReleaseSlot (port : Fin 2) (tag : W32) (slot : Nat) (s : State) : Host.Outcome State Fault Refusal :=
  onDevP s fun pr d => devRow d pr port.val 0x24 tag (leBytes 1 slot)

end Sys2Proof.Machine
end

