-- ==== Sys2Proof/Machine/Lockstep.lean ====
section
/-! DEFINITION. Lock-step (18 R463 to R471): arming, commit digests, comparison, location, and the end of lock-step. -/

namespace Sys2Proof.Machine

/-! ## State -/

/-- STATE of lock-step: 0 OFF, 1 ARMING, 2 ACTIVE, 3 LOCATING. -/
def lsState (d : Dev) : Nat := rdF d pTim Reg.TIM_LS_STATUS 1 0

/-- Changes the lock-step state outside its registers. -/
def modLs (d : Dev) (g : LsSt → LsSt) : Dev := { d with ls := g d.ls }

/-- The named partitions. -/
def lsParts (d : Dev) : List Nat := setBits d.ls.parts 16

/-- A lock-step event (Table 18-7). -/
def lsEvent (d : Dev) (bit : Nat) : Dev := event d pTim Reg.TIM_LS_EVENTS bit (Reg.TIM_EVT_LS_DIVERGED + 4 * bit)

/-! ## Digests (R464) -/

/-- The CRC of R464: no reflection, no inversion. -/
def crc64Plain (l : List Byte) : W64 :=
  l.foldl (fun (c : W64) (b : Byte) => crc64Bits 0x42F0E1EBA9EA3693#64 8 (c ^^^ (BitVec.ofNat 64 b.toNat <<< (56 : Nat)))) 0

/-- A digest term. -/
def lsTerm (unit record block : Nat) (data : List Byte) : W64 :=
  mix64 (crc64Plain data ^^^ (BitVec.ofNat 64 unit <<< 48) ^^^ (BitVec.ofNat 64 record <<< 32) ^^^ BitVec.ofNat 64 (block % 2 ^ 32))

/-- The first address of the buffer or cell store that holds an address; an address outside any is taken as itself. -/
def blockBase (d : Dev) (a : Nat) : Nat :=
  if 0x080040000000 ≤ a then a - (a - 0x080040000000) % 0x400000
  else match d.vat.regions.find? fun e => decide (e.2.base ≤ a) && decide (a < e.2.base + e.2.count * poolBytes (e.1 / 64)) with
    | some e => a - (a - e.2.base) % poolBytes (e.1 / 64)
    | none => a

/-- The blocks of 4 KiB that a write touches: base of the buffer or store, and block index. -/
def blocksOf (d : Dev) (a n : Nat) : List (Nat × Nat) :=
  let b := blockBase d a
  if n = 0 then [] else (List.range ((a - b + n - 1) / 4096 - (a - b) / 4096 + 1)).map fun i => (b, (a - b) / 4096 + i)

/-- The terms of a frame: one for each unit, record and block written, with the block's bytes (log entry 44, DEDUCED). -/
def lsTerms (d : Dev) (p : Nat) : List (Nat × Nat × Nat × W64) :=
  let bs := ((partOf d p).wrote.flatMap fun w => (blocksOf d w.2.2.1 w.2.2.2).map fun b => (w.1, w.2.1, b.1, b.2)).eraseDups
  bs.map fun b => (b.1, b.2.1, b.2.2.2, lsTerm b.1 b.2.1 b.2.2.2 (engBytes d (b.2.2.1 + 4096 * b.2.2.2) 4096))

/-- The commit digest. -/
def commitDigest (ctx k : Nat) (terms : List W64) (published : List Nat) : W64 :=
  let s := terms.foldl (· + ·) 0
  let s := published.foldl (fun s o => s + mix64 (BitVec.ofNat 64 o ||| 0x8000000000000000#64)) s
  mix64 (s ^^^ mix64 (BitVec.ofNat 64 k ^^^ (BitVec.ofNat 64 ctx <<< 56)))

/-- The deepest level that a frame's log entries leave (R468). -/
def logLevel (d : Dev) (terms : List (Nat × Nat × Nat × W64)) : Nat :=
  let share := Config.lsShare (rdF d pTim Reg.TIM_LS_STATUS 20 8)
  if terms.length ≤ share then 3
  else if (terms.map fun t => (t.1, t.2.1)).eraseDups.length ≤ share then 2
  else 1

/-- The terms that a log holds: unit, record, block, term. -/
abbrev LsLog := List (Nat × Nat × Nat × W64)

/-- The sum of the selected terms of a log, which does not depend on their order. -/
def termSum (l : LsLog) (sel : Nat × Nat × Nat × W64 → Bool) : W64 := (l.filter sel).foldl (fun s t => s + t.2.2.2) 0

/-- The first of some keys at which the sums of two logs differ. -/
def firstDiff (own theirs : LsLog) (keys : List Nat) (sel : Nat → Nat × Nat × Nat × W64 → Bool) : Option Nat :=
  keys.find? fun k => termSum own (sel k) != termSum theirs (sel k)

/-- Location, level by level to the deepest one that both logs hold: the unit in ascending path, the record in issue order, the block in
ascending order. Answers level, unit, record and block (R468). -/
def lsLocate (own theirs : LsLog) (level : Nat) : Nat × Nat × Nat × Nat :=
  let rise := fun (l : List Nat) => sortBy (fun a b => decide (a < b)) l.eraseDups
  let all := own ++ theirs
  match firstDiff own theirs (rise (all.map fun t => t.1)) fun u t => t.1 == u with
  | none => (0, 0, 0, 0)
  | some u =>
    let inUnit := all.filter fun t => t.1 == u
    match if level < 2 then none else firstDiff own theirs (inUnit.map fun t => t.2.1).eraseDups fun r t => t.1 == u && t.2.1 == r with
    | none => (1, u, 0, 0)
    | some r =>
      let inRec := inUnit.filter fun t => t.2.1 == r
      match if level < 3 then none else firstDiff own theirs (rise (inRec.map fun t => t.2.2.1)) fun b t =>
          t.1 == u && t.2.1 == r && t.2.2.1 == b with
      | none => (2, u, r, 0)
      | some b => (3, u, r, b)

/-! ## Its end (R469) -/

/-- Lock-step ends with a reason: ARM clears, STATE is OFF, and ports 30 and 31 leave role 2 at the next tick. Under reason 4
the spare takes role 1 for the first X port of the bundle that is DOWN, and a second such port the other spare. -/
def lsEnd (d : Dev) (reason : Nat) (downX : List Nat) : Dev :=
  let ps := lsParts d
  let d := wrF d pTim Reg.TIM_LS_CTL 0 0 0
  let d := lsEvent (wrF (wrF d pTim Reg.TIM_LS_STATUS 1 0 0) pTim Reg.TIM_LS_STATUS 7 5 reason) 2
  let role := fun (i : Nat) => match (if reason = 4 then downX[i]? else none) with
    | some x => 1 + 256 * x
    | none => 0
  let d := wrN (wrN d (pBol 30) Reg.BOL_SPARE_ROLE (role 0)) (pBol 31) Reg.BOL_SPARE_ROLE (role 1)
  let d := modLs d fun l => { l with own := [], theirs := [], ending := [], accept := false }
  if reason = 1 then d
  else (ps.flatMap fun p => ctxsOf d p).foldl (fun d c => eventCpl d c 15 (leBytes 1 reason)) d

/-- A divergence is located to the deepest level that both logs hold, within the step that finds it (R467, R468) (log entry 98, DEDUCED). -/
def lsDiverged (d : Dev) (own : Digest) (t : Theirs) : Dev :=
  let ps := lsParts d
  let d := wrF (lsEvent d 0) pTim Reg.TIM_LS_STATUS 1 0 3
  let d := ps.foldl (fun d p => haltPart (fileKill d p 5) p) d
  let at_ := lsLocate own.terms t.log (min t.level (logLevel d own.terms))
  let unit := at_.2.1 % 8192 + 8192 * at_.1
  let record := at_.2.2.1 % 65536
  let block := at_.2.2.2
  let where_ := unit + 65536 * record
  let d := wrN (wrN d pTim Reg.TIM_LS_DIV_ORDINAL own.k) pTim Reg.TIM_LS_DIV_WHERE where_
  let d := wrN (wrN d pTim Reg.TIM_LS_DIV_BLOCK block) pTim Reg.TIM_LS_DIV_CTX (own.ctx + 65536 * own.frame)
  let res := leBytes 8 own.k ++ leBytes 2 unit ++ leBytes 2 record ++ leBytes 4 block
  let d := (ps.flatMap fun p => ctxsOf d p).foldl (fun d c => eventCpl d c 14 res) d
  lsEnd d 1 []

/-! ## Comparison (R465, R466) -/

/-- Compares what is held of both devices for a context and ordinal. -/
def lsCompare (d : Dev) (c k : Nat) : Dev :=
  match d.ls.own.find? fun o => o.ctx == c && o.k == k, d.ls.theirs.find? fun t => t.ctx == c && t.k == k with
  | some o, some t =>
    let d := modLs d fun l => { l with
      own := l.own.filter fun x => !(x.ctx == c && x.k == k)
      theirs := l.theirs.filter fun x => !(x.ctx == c && x.k == k) }
    if o.value = t.value then bump d pTim Reg.TIM_LS_COMPARED 1 else lsDiverged d o t
  | _, _ => d

/-- A partner digest arrives; the copy of the other port, or one already compared, is ignored. -/
def digestIn (d : Dev) (t : Theirs) : Dev :=
  let held := d.ls.own.any fun o => o.ctx == t.ctx && o.k == t.k
  if lsState d ≠ 2 ∨ (d.ls.theirs.any fun x => x.ctx == t.ctx && x.k == t.k) ∨ (!held ∧ t.k < (ctxOf d t.ctx).ordinal) then d
  else lsCompare (modLs d fun l => { l with theirs := l.theirs ++ [t] }) t.ctx t.k

/-- At the tick that ends a committed frame its digest is sent and compared (R465). `published` are the object indices that the
commit publishes. -/
def digestSend (d : Dev) (p : Nat) (published : List Nat) : Dev :=
  match running d p with
  | none => d
  | some (c, _) =>
    if !lockstepOn d p then d
    else
      let k := (ctxOf d c).ordinal
      let terms := lsTerms d p
      let v := commitDigest c k (terms.map fun t => t.2.2.2) published
      let f := frameNum d p
      let d := if logLevel d terms < 3 then lsEvent d 4 else d
      let d := modLs d fun l => { l with own := l.own ++ [⟨c, k, v, f, terms⟩], sent := (l.sent ++ [(c, k, v, f)]).drop ((l.sent.length + 1) - 64) }
      lsCompare d c k

/-- Must the scheduler hold a context back: is it, with the frame that runs, 4 ordinals ahead (R466)? -/
def lsAhead (d : Dev) (p c : Nat) : Bool :=
  lockstepOn d p && decide (4 ≤ (d.ls.own.filter fun o => o.ctx == c).length + b2n ((running d p).map Prod.fst == some c))

/-- A held frame (R466). -/
def lsWait (d : Dev) : Dev := bump (lsEvent d 1) pTim Reg.TIM_LS_WAIT_FRAMES 1

/-! ## Ticks -/

/-- The X ports of the bundle toward slot s xor 1. -/
def twinPorts (d : Dev) : List Nat :=
  let s := nSlot (myNode d)
  (List.range 14).filter fun i => (s + i / 2 + 1) % 8 == (if s % 2 = 0 then s + 1 else s - 1)

/-- At a tick lock-step becomes ACTIVE, or ends for the lowest of the reasons that have come up (R463, R469). -/
def lsTick (d : Dev) : Dev :=
  if lsState d = 1 ∧ d.ls.accept ∧ d.ls.ending.isEmpty then
    let d := modLs (wrF d pTim Reg.TIM_LS_STATUS 1 0 2) fun l => { l with accept := false }
    wrN (wrN d (pBol 30) Reg.BOL_SPARE_ROLE 2) (pBol 31) Reg.BOL_SPARE_ROLE 2
  else if lsState d = 0 then modLs d fun l => { l with ending := [] }
  else
    let downX := (twinPorts d).filter fun i => bolState d i == 0
    let down2 := decide (lsState d = 2) && (bolState d 30 == 0 || bolState d 31 == 0)
    let rs := d.ls.ending ++ (if down2 then [2] else []) ++ (if lsState d = 2 ∧ !downX.isEmpty then [4] else [])
    match [1, 2, 3, 4, 5].find? rs.contains with
    | some r => lsEnd d r downX
    | none => d

/-! ## Arming (R463, R471) -/

/-- Can the tier manager take a region of Tier H of some MiB outside the Vat pools and the caches: from the start of Tier H, or behind a
pool (R468, R471)? Of its place the spec says no more (log entry 140, DESIGN CHOICE). -/
def lsRoom (d : Dev) (mib : Nat) : Bool :=
  let n := mib * 2 ^ 20
  let pools := d.vat.regions.map fun e => (e.2.base, e.2.count * poolBytes (e.1 / 64))
  (0 :: pools.map fun r => r.1 + r.2).any fun a => rangeOk d a n && decide (tierOfAddr d a = 1) && !inCaches d a n
    && decide (tierOfAddr d (a + n - 1) = 1) && !pools.any fun r => decide (r.1 < a + n) && decide (a < r.1 + r.2)

/-- Why an arming is refused (Table 18-4), 0 for none; code 5 is for the timeout, and for a log that finds no room (R471). Permission is
judged first (log entry 98, DEDUCED). -/
def armRefuse (d : Dev) (pr : Propolis) (r : Requester) (v : Nat) (sparing down : Bool) (cells : Nat) : Nat :=
  let ps := setBits (v / 65536) 16
  let busy := fun (p : Nat) => (ctxsOf d p).any fun c => [CtxState.ready, .running, .idle].contains (ctxOf d c).state
  let many := fun (p : Nat) => (images d p).any fun e => decide (1 < e.2.members) || e.2.remote
  if !(decide (r = fwReq 4) || (reqKind r == 1 && granted pr r .test pDev)) then 6
  else if sparing ∨ spareRole d 30 = 1 ∨ spareRole d 31 = 1 then 1
  else if down ∨ !([30, 31].all fun i => d.fuses.bol i && (bolState d i == 3 || bolState d i == 6)) then 2
  else if ps.any busy then 3
  else if ps.any many then 4
  else if cells ≠ d.fuses.nCells then 7
  else if !lsRoom d (rdF d pTim Reg.TIM_LS_LOG 12 0) then 5
  else 0

/-- A refused arming: nothing else changes. -/
def armRefused (d : Dev) (code : Nat) : Dev := lsEvent (wrF d pTim Reg.TIM_LS_STATUS 4 2 code) 3

/-- A write of ARM = 1: judged, and refused without effect or held by the register. While lock-step is ACTIVE it changes no more than that:
the partitions compared stay those of the arming (log entry 98, DEDUCED). -/
def lsArm (d : Dev) (pr : Propolis) (r : Requester) (v : Nat) (ok sparing down : Bool) (cells : Nat) : Dev :=
  let code := armRefuse d pr r v sparing down cells
  if code ≠ 0 then armRefused d code
  else
    let parts := v / 65536 % 65536
    let d' := wrN d pTim Reg.TIM_LS_CTL (v % 2 + parts * 65536)
    if 2 ≤ lsState d then d'
    else
      let d' := wrF (wrF (wrF d' pTim Reg.TIM_LS_STATUS 1 0 1) pTim Reg.TIM_LS_STATUS 4 2 0) pTim Reg.TIM_LS_STATUS 20 8
        (rdF d pTim Reg.TIM_LS_LOG 12 0)
      modLs d' fun l => { l with accept := ok, parts := parts }

/-- A write of ARM = 0: the register holds it, and lock-step, unless it is OFF, ends at the next tick. -/
def lsDisarm (d : Dev) (v : Nat) : Dev :=
  let d' := wrN d pTim Reg.TIM_LS_CTL (v / 65536 % 65536 * 65536)
  if lsState d = 0 then d' else modLs d' fun l => { l with ending := l.ending ++ [5] }

/-! ## The meanings -/

/-- LOCKSTEP_ARM: a write of ARM = 1 to TIM_LS_CTL (R463). -/
def execLockstepArm (requester : Requester) (value : W32) (partnerOk : Bool) (partnerSparing partnerDown : Bool)
    (partnerCells : Nat) (s : State) : Host.Outcome State Fault Refusal :=
  onDevP s fun pr d => gated pr d requester pTim Reg.TIM_LS_CTL fun d =>
    lsArm d pr requester value.toNat partnerOk partnerSparing partnerDown partnerCells

/-- LOCKSTEP_DISARM: a write of ARM = 0 ends lock-step at the next tick (R469). -/
def execLockstepDisarm (requester : Requester) (value : W32) (s : State) : Host.Outcome State Fault Refusal :=
  onDevP s fun pr d => gated pr d requester pTim Reg.TIM_LS_CTL fun d => lsDisarm d value.toNat

/-- LOCKSTEP_ARM_TIMEOUT: the partner was not armed with the same PARTITIONS within 10 ms (R463). -/
def execLockstepArmTimeout (s : State) : Host.Outcome State Fault Refusal :=
  onDev s fun d => if lsState d = 1 ∧ !d.ls.accept then
      armRefused (wrF (wrF d pTim Reg.TIM_LS_STATUS 1 0 0) pTim Reg.TIM_LS_CTL 0 0 0) 5
    else d

/-- DIGEST_MESSAGE (R465): with it, what the partner's log holds of the frame (R468). -/
def execDigestMessage (c : Fin 256) (k : Nat) (digest : W64) (frame : Nat) (log : List (Nat × Nat × Nat × W64))
    (level : Fin 4) (s : State) :
    Host.Outcome State Fault Refusal :=
  onDev s fun d => digestIn d ⟨c.val, k, digest, frame, log, level.val⟩

/-- DIGEST_TIMEOUT: no partner digest for 1 s (R466, R469). -/
def execDigestTimeout (s : State) : Host.Outcome State Fault Refusal :=
  onDev s fun d => if lsState d = 2 then lsEnd d 3 [] else d

end Sys2Proof.Machine
end

