-- ==== Sys2Proof/Machine/Cut.lean ====
section
/-! DEFINITION. The commit window (01 R17, R21, R22, R32, R33, R37; 04 R113, R115; 11 R298; 15 R384): the completion cut, the
decision, the outcome and what firmware does about an overrun. -/

namespace Sys2Proof.Machine

/-! ## Done (R22) -/

/-- Is a stream DONE, or does it count as done (R112)? -/
def strmDone (y : Strm) : Bool :=
  match y.desc with
  | none => true
  | some k => !k.enable || decide (y.state = .done) || (k.triggered && !k.mustRun && y.trigCyc.isNone && decide (y.state = .idle))

/-- Is a stream late for want of its trigger (R112)? (log entry 39, DEDUCED) -/
def strmMissed (y : Strm) : Bool :=
  match y.desc with
  | none => false
  | some k => k.enable && k.triggered && k.mustRun && y.trigCyc.isNone

/-- Is a cell done (R71, R113)? -/
def cellDone (x : CellSt) : Bool := x.inflight.isEmpty && !x.dead && (List.range 8).all fun s => strmDone (strmOf x s)

/-- The cells of a partition that are not done. -/
def cellsLeft (d : Dev) (p : Nat) : Nat := ((partCells d p).filter fun c => !cellDone (cellOf d c)).length

/-- Is every unit of the partition done with the frame (R22, R197, R239, R274)? -/
def allDone (d : Dev) (p : Nat) : Bool :=
  cellsLeft d p == 0 && (wglEngines d p).all (wglDone d) && (swmEngines d p).all (swmDone d) && brdDone d p && fgrDone d p
    && !d.vat.waiting.any fun r => r.part == p

/-! ## What the cut charges (R111, R112, R177, R222, R297) -/

/-- A remote operation still open past its tabulated cycle (R111, R116). -/
def cutRemote (p c cut : Nat) (d : Dev) (r : Rem) : Dev :=
  let open_ := (cellOf d c).inflight.any fun f => f.id == r.id && f.waiting
  if open_ && decide (r.tab < cut) then
    let d := event d (pCell c) Reg.CEL_FE_EVENTS 5 Reg.CEL_EVT_REMOTE_LATE
    disturb (bump d (pCell c) Reg.CEL_REMOTE_LATE_CYCLES (cut - r.tab)) p causeRemote 1 (cut - r.tab) r.node
  else d

/-- A read that still waits for staged data: its stalled cycles (R30). -/
def cutStall (p cut : Nat) (d : Dev) (f : InFl) : Dev :=
  match f.stall with
  | some node => disturb d p causeRemote 0 (cut - f.start) node
  | none => d

/-- A stream that still waits for a tag that an incomplete LAND is to advance (R222). -/
def cutHeld (c cut : Nat) (d : Dev) (s : Nat) : Dev :=
  let x := cellOf d c
  match (strmOf x s).since, nextOf x s with
  | some since, some (h, _) => if (waitCycle x h).isNone then heldCell d c h.waitTag.val (cut - since) else d
  | _, _ => d

/-- A cell at the cut. -/
def cutCell (p cut : Nat) (d : Dev) (c : Nat) : Dev :=
  let d := (cellOf d c).remotes.foldl (cutRemote p c cut) d
  let d := (cellOf d c).inflight.foldl (cutStall p cut) d
  let d := (List.range 8).foldl (cutHeld c cut) d
  (List.range 8).foldl (fun d s => if strmMissed (strmOf (cellOf d c) s) then disturb d p causeRemote 1 0 (myNode d) else d) d

/-- Everything that the cut charges, once the cells and the buffer lists have reached it. -/
def cutCharges (d : Dev) (p : Nat) : Dev :=
  let cut := cutCycle d p
  let d := advancePart (listsBy d p cut) p cut
  let d := (partCells d p).foldl (cutCell p cut) d
  let d := (wglEngines d p).foldl (fun d i => wglCut d p i cut) d
  let d := (swmEngines d p).foldl (fun d i => colCut (swmCut d p i cut) p i cut) d
  let d := fgrCut d p cut
  (d.vat.waiting.filter fun r => r.part == p).foldl (fun d r => vatStalled d r cut) d

/-! ## Draining (R384, R411) -/

/-- Drains up to 16 records of a context's inbox while the scheduler runs and its port's completion queue has room. -/
def drainInbox (p : Nat) (d : Dev) (c : Nat) : Dev :=
  let x := ctxOf d c
  let l := x.inbox.take 16
  if l.isEmpty || !drains d (cplPort d c) then d
  else
    let d := modCtx d c fun x => { x with inbox := x.inbox.drop 16 }
    let d := bump d (pCtl ((activeCpx d).getD 0)) Reg.CTL_COMMANDS l.length
    modPart d p fun t => { t with drained := t.drained ++ l }

/-! ## The outcome (R21 steps 3 to 6, R32, R37, R38) -/

/-- The entries that step 4 writes: the last handle named for each object. -/
def shadowOf (named : List (Nat × Nat)) : List (Nat × Nat) := named.foldl (fun m e => smPut m e.1 e.2) []

/-- The record of an overrun (R19, R20, R32). -/
def overrunNote (d : Dev) (p : Nat) : Dev :=
  let u := pPart p
  let t := partOf d p
  let cause := (t.dist.map Dist.cause).getD 0
  let d := event d u Reg.CTL_FRAME_STATUS 0 Reg.CTL_EVT_OVERRUN
  let d := wrN d u Reg.CTL_LAST_OVERRUN (frameNum d p + 65536 * cause + 2 ^ 20 * min 256 t.pendCells)
  if t.dist.isSome then d
  else modPart (event d u Reg.CTL_FRAME_STATUS 3 Reg.CTL_EVT_UNEXPLAINED) p fun t => { t with testNow := true }

/-- A killed frame: its buffers are queued for release and every unit stops (R38, R114, R193, R226, R274). -/
def dropFrame (d : Dev) (p : Nat) : Dev :=
  let d := { d with vat := { d.vat with
    bufs := d.vat.bufs.map fun e => (e.1, if e.2.part = p ∧ e.2.state = .frame then { e.2 with queued := true } else e.2)
    waiting := d.vat.waiting.filter fun r => r.part != p } }
  let d := (wglEngines d p).foldl wglStop (vatSync d)
  let d := (swmEngines d p).foldl swmStop d
  let d := (partCells d p).foldl (fun d c => modCell d c fun x => { x with inflight := [], remotes := [], killed := true }) d
  fgrStop (modPart d p fun t => { t with listTodo := [] }) p

/-- The error that a killed frame shows: the word of a cell or an engine, with the RECORD_ID of a cell (R115, R192, R225,
R277). -/
def frameFault (d : Dev) (p : Nat) : Option (List Byte) :=
  let word := fun (u off valid : Nat) => if rdB d u off valid then some (leBytes 4 (rdN d u off) ++ leBytes 2 0) else none
  let cell := (partCells d p).findSome? fun c =>
    if rdB d (pCell c) Reg.CEL_CMD_ERR 7 then
      some (leBytes 4 (rdN d (pCell c) Reg.CEL_CMD_ERR) ++ leBytes 2 (rdF d (pCell c) Reg.CEL_CMD_ERR_ID 15 0))
    else none
  let wgl := (wglEngines d p).findSome? fun i => word (pWgl i) Reg.WGL_JOB_ERR 4
  let swm := (swmEngines d p).findSome? fun i => word (pSwm i) Reg.SWM_ENTRY_ERR 4
  let fgr := [0, 1].findSome? fun i => if d.tier.stopped.contains (i, p) then word (pFor i) Reg.FOR_ENTRY_ERR 4 else none
  (cell.orElse fun _ => wgl.orElse fun _ => swm.orElse fun _ => fgr)

/-- The members of a partition's job on this device: every loaded partition of the same JOB_ID that is not halted. -/
def jobParts (d : Dev) (p job : Nat) : List Nat :=
  (List.range 16).filter fun q => q == p
    || ((images d q).any fun e => e.2.jobId == job) && !rdB d (pPart q) Reg.CTL_FRAME_STATUS 6

/-- An overrun of a context counts toward escalation, or toward the halt of a pool wait (R33, R298). An escalation clears both counts of
overruns, on which the spec is silent (log entry 137, DESIGN CHOICE). -/
def countOverrun (d : Dev) (p c : Nat) : Dev :=
  let t := partOf d p
  let pool := match t.dist with
    | some q => q.cause == causeTier && q.sub % 16 == 7
    | none => false
  if pool then
    let d := modCtx d c fun x => { x with poolRow := x.poolRow + 1, ovHist := (false :: x.ovHist).take 256 }
    if (ctxOf d c).poolRow < 16 then d else haltWith d p 4 (leBytes 1 t.poolTier ++ leBytes 1 t.poolPool)
  else
    let d := modCtx d c fun x => { x with poolRow := 0, ovRow := x.ovRow + 1, ovHist := (true :: x.ovHist).take 256 }
    let x := ctxOf d c
    if rdB d (pPart p) Reg.CTL_FRAME_NEXT 16 && (decide (3 ≤ x.ovRow) || decide (8 ≤ (x.ovHist.filter id).length)) then
      let d := modCtx d c fun x => { x with ovRow := 0, ovHist := [] }
      (jobParts d p ((x.image.map Image.jobId).getD 0)).foldl escalate d
    else d

/-- The overruns in a row that a partition charges to one node (R348). -/
def countRemote (d : Dev) (p : Nat) (above : Bool) : Dev :=
  let old := smGetD (0, 0) d.rmt.remoteRow p
  let new := match above, (partOf d p).dist with
    | true, some q => if q.cause = causeRemote then (q.sub, if old.1 = q.sub then old.2 + 1 else 1) else (0, 0)
    | _, _ => (0, 0)
  { d with rmt := { d.rmt with remoteRow := smPutD (0, 0) d.rmt.remoteRow p new } }

/-- What firmware does when the outcome of a frame is known (R33, R115, R298, R348). -/
def afterOutcome (d : Dev) (p : Nat) (commit above : Bool) (fault : Option (List Byte)) : Dev :=
  match running d p with
  | none => d
  | some (c, _) =>
    let d := countRemote d p above
    match fault with
    | some res => if rdB d (pPart p) Reg.CTL_FRAME_STATUS 6 then d else haltWith d p 2 res
    | none =>
      if above then countOverrun d p c
      else if commit then modCtx d c fun x => { x with ovRow := 0, poolRow := 0, ovHist := (false :: x.ovHist).take 256 }
      else modCtx d c fun x => { x with ovHist := (false :: x.ovHist).take 256 }

/-- Step 6: the words that the snapshot takes (R26). -/
def latchSnap (d : Dev) (p : Nat) : Dev :=
  let l := (List.range 28).map fun i => rd d (pPart p) (Reg.CTL_EVT_OVERRUN + 4 * i)
  modPart d p fun t => { t with snap := l }

/-- Steps 3 to 6 with the frame's outcome. -/
def outcome (d : Dev) (p : Nat) (commit : Bool) : Dev :=
  let t := partOf d p
  let f := frameNum d p
  let above := !commit && !t.cutDone && t.killNow.isNone && !rdB d (pPart p) Reg.CTL_FRAME_STATUS 6
  let d := if commit then d else classEvent (event d (pPart p) Reg.CTL_FRAME_STATUS 1 Reg.CTL_EVT_KILLED) 2 (pPart p) f
  let d := if above then overrunNote d p else d
  let d := modPart d p fun t => { t with
    decision := some commit, groupWait := false, shadow := if commit then shadowOf t.named else [] }
  let fault := if commit then none else frameFault d p
  let d := if commit then d else dropFrame d p
  let d := sendTrailers (sendMarkers d p f commit) p f commit
  latchSnap (afterOutcome d p commit above fault) p

/-! ## The cut -/

/-- Step 1: the completion cut latches what is done and what kill applies; then the decision, or the group's vote (R21, R205). -/
def takeCut (d : Dev) (p : Nat) : Dev :=
  if (partOf d p).cutTaken then d
  else
    let d := cutCharges d p
    let done := allDone d p
    let left := cellsLeft d p
    let halted := rdB d (pPart p) Reg.CTL_FRAME_STATUS 6 && (running d p).isSome
    let d := markersAtCut d p
    let d := modPart d p fun t => { t with cutTaken := true, cutDone := done, pendCells := left }
    let d := (ctxsOf d p).foldl (drainInbox p) d
    let commit := done && (partOf d p).killNow.isNone && !halted
    let exch := match runImage d p with
      | some (_, _, img, _) => !img.exch.isEmpty
      | none => false
    if exch then modPart (sendVotes d p commit) p fun t => { t with decision := some commit, groupWait := true }
    else outcome d p commit

/-- −400 ns: the outcome of an exchange group, and the teardown that a split vote asks for (R205, R206) (log entry 18, DEDUCED). -/
def takeGroup (d : Dev) (p : Nat) : Dev :=
  if (partOf d p).groupWait then
    let f := frameNum d p
    let q := groupVote d p
    splitTear (outcome q.1 p (q.2 && decide ((partOf d p).decision = some true))) p f
  else d

/-! ## The meanings -/

/-- COMPLETION_CUT (R21). -/
def execCompletionCut (p : Fin 16) (s : State) : Host.Outcome State Fault Refusal := onDev s fun d => takeCut d p.val

/-- GROUP_OUTCOME (R205). -/
def execGroupOutcome (p : Fin 16) (s : State) : Host.Outcome State Fault Refusal := onDev s fun d => takeGroup d p.val

/-- A write to CTL_KILL_REQ: KILL with a reason of 1 to 5 files a kill request (Table 01-11). -/
def writeKill (d : Dev) (p v : Nat) : Dev :=
  let reason := nbits v 11 8
  if bitAt v 0 && decide (1 ≤ reason) && decide (reason ≤ 5) then fileKill d p reason else d

/-- KILL_REQUEST: a write to CTL_KILL_REQ (R37, Table 01-11). -/
def execKillRequest (p : Fin 16) (value : W32) (s : State) : Host.Outcome State Fault Refusal :=
  onDev s fun d => writeKill d p.val value.toNat

end Sys2Proof.Machine
end

