-- ==== Sys2Proof/Machine/Naming.lean ====
section
/-! DEFINITION. The scheduler and the start of a frame (04 R99, R100; 08 R197; 10 R273; 15 R388 to R391; 18 R458): which context a
frame runs, what the cells and engines hold at cycle 0, naming, and the staging of command blocks. -/

namespace Sys2Proof.Machine

/-! ## What may run -/

/-- Is a unit in service? -/
def inService (d : Dev) (u : Nat) : Bool := stateIs d u .ready || stateIs d u .running

/-- The units that a partition's frame needs: itself, its combs and cells with the physical ones that carry them, its engines. -/
def frameUnits (d : Dev) (p : Nat) : List Nat :=
  pPart p :: ((partCombs d p).flatMap fun k => [pComb k, pPhysComb (physCombOf d k)])
    ++ ((partCells d p).flatMap fun c => [pCell c, pPhysCell (physOf d c)])
    ++ (wglEngines d p).map pWgl ++ (swmEngines d p).map pSwm

/-- Is the partition held: does a unit that its frame needs stand out of service (R20, R55, R440)? -/
def heldPart (d : Dev) (p : Nat) : Bool := !(frameUnits d p).all (inService d)

/-- Is a context READY or RUNNING in a partition? -/
def candidate (d : Dev) (p c : Nat) : Bool :=
  let x := ctxOf d c
  x.part == p && (decide (x.state = .ready) || decide (x.state = .running))

/-- May a context run a slice index in the frame that begins: it is a candidate, the index is its own, names a slice, and is
staged (R273)? -/
def canRun (d : Dev) (p : Nat) (r : Nat × Nat) : Bool :=
  let x := ctxOf d r.1
  candidate d p r.1 && x.slice == r.2 && !rdB d (pPart p) Reg.CTL_FRAME_STATUS 6 && !heldPart d p
    && decide (smGet (partOf d p).staged (r.2 % 2) = some r)
    && match x.image with
      | some i => (imageSlice r.2 i.slices i.loop i.loopStart).isSome
      | none => false

/-! ## Frame start (R100, R197) -/

/-- The streams of a block at cycle 0. -/
def startStreams (ds : List StreamDesc) : SMap Strm :=
  ds.zipIdx.foldl (fun m e =>
    if e.1.enable then smPut m e.2 { Strm.init with state := if e.1.triggered then .idle else .running, desc := some e.1 } else m) []

/-- The staging bank of a slice index in a cell's store (R99). -/
def bankAddr (c x : Nat) : Nat := cellAddr c (0x3E0000 + 0x10000 * (x % 2))

/-- From −760 ns to the tick a cell's front end copies its block from the staging bank: the block, and whether a word of it is lost. A
correction is a SCRUB disturbance that the window absorbs (R70, R71, R100) (log entry 138, DEDUCED). -/
def copyBlock (d : Dev) (p c x : Nat) : Dev × List Byte × Bool :=
  let a := bankAddr c x
  let n := min 65536 (blockBytes (readBytes d a 2))
  let r := scanStores d p 0 [(a, n)]
  (r.1, readBytes r.1 a n, r.2.2)

/-- A cell at cycle 0 of a frame (R100): with the record buffer that its front end has filled, or with no stream when the slice has no
block for it (R98). The gated element-steps not yet counted are kept (R84). -/
def startCell (d : Dev) (p c : Nat) (x : Option Nat) (killed : Bool) : Dev :=
  let objs := (partOf d p).objects
  let q := match x with
    | none => (d, [], false)
    | some x => copyBlock d p c x
  let d := modCell q.1 c fun y => { CellSt.init with
    buffer := q.2.1, gateRem := y.gateRem, killed := killed, dead := q.2.2
    streams := if q.2.1.isEmpty then [] else startStreams (blockStreams q.2.1)
    slots := if q.2.1.isEmpty then [] else (blockBinds q.2.1).foldl (fun m (b : Bind) => smPutD 0 m b.slot (smGetD 0 objs b.index)) [] }
  let d := wrF d (pCell c) Reg.CEL_CMD_ERR 7 7 0
  { d with acc := smDel (smDel d.acc (2 * c)) (2 * c + 1) }

/-- By a tick the corrected words of a partition's stores have been written back (R70, R88) (log entry 102, DEDUCED). -/
def healStores (d : Dev) (p : Nat) : Dev :=
  let mine := fun (a : Nat) => match whereIs d a with
    | .cell c => decide (combOwner d (c / 8) = some p)
    | .comb k => decide (combOwner d k = some p)
    | _ => false
  { d with marks := d.marks.filter fun e => !(e.2.seen.isSome && mine e.1) }

/-- The requests of a slice's buffer list, one per cycle from cycle 0, in list order (R197): cycle and entry. -/
def listOf (img : Image) (sl : Nat) : List (Nat × Nat) :=
  ((img.bufList.zipIdx.filter fun e => e.1.slice == sl && decide (e.1.mode < 2)).map Prod.snd).zipIdx.map fun e => (e.2, e.1)

/-- The registers and contexts of a frame that runs a context (Table 15-10). -/
def openFrame (d : Dev) (p c x : Nat) (byHw : Bool) (prev : Option Nat) : Dev :=
  let u := pPart p
  let k := ctxOf d c
  let d := wrN (wrN d u Reg.CTL_SLICE_IDX x) u Reg.CTL_SCHED_NOW (c + 512 * b2n byHw + 1024 * b2n k.pinned)
  let d := modCtx d c fun k => { k with
    state := .running, preempted := false, runLen := if prev = some c then k.runLen + 1 else 1 }
  let last := (partOf d p).lastCtx
  let d := if last.isSome && decide (last ≠ some c) then event d u Reg.CTL_SCHED_EVENTS 1 Reg.CTL_EVT_SWITCH else d
  modPart d p fun t => { t with lastCtx := some c }

/-- Cycle 0 of a frame. `rerun` is the context and index of a killed frame that runs again (R273); `prev` the context of the frame
that ended, which had `n` cycles. -/
def frameStart (d : Dev) (p : Nat) (rerun : Option (Nat × Nat)) (prev : Option Nat) (n : Nat) : Dev :=
  let d := if heldPart d p then modPart d p fun t => { t with staged := [] } else d
  let t := partOf d p
  let again := rerun.filter (canRun d p)
  let run := match again with
    | some r => some r
    | none => t.next.filter (canRun d p)
  let d := match run with
    | some r => openFrame d p r.1 r.2 (again.isNone && t.nextByHw) prev
    | none => wrN d (pPart p) Reg.CTL_SCHED_NOW (256 + 512 * b2n t.nextByHw)
  let d := (ctxsOf d p).foldl (fun d c => if run.map Prod.fst = some c then d else modCtx d c fun x => { x with runLen := 0 }) d
  let d := (partCombs d p).foldl (fun d k => modComb d k fun _ => CombSt.init) d
  let d := (wglEngines d p).foldl wglFrame d
  let d := (swmEngines d p).foldl swmFrame d
  let d := healStores (fgrFrame d p n) p
  let kill := t.killNow.isSome
  match runImage d p with
  | none => (partCells d p).foldl (fun d c => startCell d p c none true) d
  | some (_, x, img, sl) =>
    let d := (partCells d p).zipIdx.foldl (fun d e =>
      startCell d p e.1 (if img.blocks.any fun b => b.slice == sl && b.cell == e.2 then some x else none) kill) d
    let d := modPart d p fun t => { t with listTodo := listOf img sl }
    (swmEngines d p).foldl (fun d i => colFrame d p i img sl again.isSome) d

/-! ## Naming (R388, R389, R458) -/

/-- LAST_RUN stays within 32,767 frames of the frame number (R458). -/
def ageRuns (d : Dev) (p : Nat) : Dev :=
  let f := frameNum d p
  (ctxsOf d p).foldl (fun d c =>
    if (f + 65536 - (ctxOf d c).lastRun) % 65536 ≤ 32767 then d
    else modCtx d c fun x => { x with lastRun := (f + 65536 - 32767) % 65536 }) d

/-- Rule 3: the highest priority, then the oldest LAST_RUN, then the lower number. -/
def oldest (d : Dev) (p : Nat) (cs : List Nat) : Option Nat :=
  let age := fun c => (frameNum d p + 65536 - (ctxOf d c).lastRun) % 65536
  (sortBy (fun a b =>
    let x := ctxOf d a
    let y := ctxOf d b
    decide (y.prio < x.prio) || (x.prio == y.prio && (decide (age b < age a) || (age a == age b && decide (a < b))))) cs).head?

/-- The scheduler's choice among the candidates by rules 1 to 3; `r` is the context that runs. -/
def chooseCtx (d : Dev) (p : Nat) (cs : List Nat) (r : Option Nat) : Option Nat :=
  match (ctxsOf d p).find? fun c => (ctxOf d c).pinned with
  | some c => if cs.contains c then some c else none
  | none =>
    let stays := fun (c : Nat) => cs.contains c && decide ((ctxOf d c).runLen < rdF d (pPart p) Reg.CTL_SCHED_CFG 15 0)
      && cs.all fun q => decide ((ctxOf d q).prio ≤ (ctxOf d c).prio)
    match r.filter stays with
    | some c => some c
    | none => oldest d p cs

/-- Rule 4: a context whose slice would need the staging bank of the running slice is not named. -/
def parityHold (d : Dev) (cur : Option (Nat × Nat)) (c : Nat) : Bool :=
  match cur with
  | some (r, x) => c != r && (ctxOf d c).slice % 2 == x % 2
  | none => false

/-- A context's next slice: its slice index, or one more for the context that runs. -/
def nextSlice (d : Dev) (cur : Option (Nat × Nat)) (c : Nat) : Nat :=
  match cur with
  | some (r, x) => if c = r then (x + 1) % 2 ^ 32 else (ctxOf d c).slice
  | none => (ctxOf d c).slice

/-- Writes a name for the next frame (R388): CTL_SCHED_NEXT, CTL_SCHED_SLICE and LAST_RUN. -/
def writeName (d : Dev) (p : Nat) (n : Option (Nat × Nat)) (byHw : Bool) : Dev :=
  let u := pPart p
  let d := match n with
    | none => wrN (wrN d u Reg.CTL_SCHED_NEXT 256) u Reg.CTL_SCHED_SLICE 0
    | some (c, x) =>
      let f := (frameNum d p + 1) % 65536
      modCtx (wrN (wrN d u Reg.CTL_SCHED_NEXT c) u Reg.CTL_SCHED_SLICE x) c fun k => { k with lastRun := f }
  modPart d p fun t => { t with next := n, nextByHw := byHw, written := false }

/-- The Forager copies the blocks of a named slice into staging bank x mod 2 (R99, R273). -/
def stageBlocks (d : Dev) (p c x : Nat) : Dev :=
  match (ctxOf d c).image with
  | none => d
  | some img =>
    match imageSlice x img.slices img.loop img.loopStart with
    | none => d
    | some sl =>
      let d := (partCells d p).zipIdx.foldl (fun d e =>
        match img.blocks.find? fun b => b.slice == sl && b.cell == e.2 with
        | some b => writeBytes d (bankAddr e.1 x) b.raw
        | none => d) d
      modPart d p fun t => { t with staged := smPut t.staged (x % 2) (c, x) }

/-- Cycle 0 of frame F: the context and slice of frame F + 1 are named and staged. Without the scheduler and without a name that
it wrote before, the hardware names the running context's next slice (R389) (log entry 66, DEDUCED). -/
def nameNext (d : Dev) (p : Nat) : Dev :=
  let u := pPart p
  let cur := running d p
  let r := cur.map Prod.fst
  let ready := (ctxsOf d p).filter (candidate d p)
  let cs := ready.filter fun c => !lsAhead d p c
  let d := if cs.length < ready.length then lsWait d else d
  let named := fun (c : Nat) => (c, nextSlice d cur c)
  let d :=
    if rdB d u Reg.CTL_FRAME_STATUS 6 then writeName d p none false
    else if (partOf d p).written then
      let v := rdN d u Reg.CTL_SCHED_NEXT
      writeName d p (if bitAt v 8 then none else some (v % 256, rdN d u Reg.CTL_SCHED_SLICE)) false
    else if !compUp d 1 then
      let d := event d u Reg.CTL_SCHED_EVENTS 0 Reg.CTL_EVT_NAME_LATE
      writeName d p ((r.filter cs.contains).map named) true
    else match chooseCtx d p cs r with
      | none => writeName d p none false
      | some c =>
        if parityHold d cur c then
          writeName (event d u Reg.CTL_SCHED_EVENTS 3 Reg.CTL_EVT_PARITY_HOLD) p ((r.filter cs.contains).map named) false
        else writeName d p (some (named c)) false
  match (partOf d p).next with
  | some (c, x) => stageBlocks d p c x
  | none => d

end Sys2Proof.Machine
end

