-- ==== Sys2Proof/Machine/Propolis.lean ====
section
/-! DEFINITION. The propolis table (19 R490 to R492, 15 R393, 13 R339, R347): requests, their checks, and changes taking effect. -/

namespace Sys2Proof.Machine

/-! ## Changes -/

/-- Sets or clears an entry. -/
def putEntry {β : Type} (m : SMap β) (i : Nat) (e : Option β) : SMap β :=
  match e with
  | some x => smPut m i x
  | none => smDel m i

/-- A change of the table's own entries. -/
def changeTable (pr : Propolis) (c : PropChange) : Propolis :=
  match c with
  | .window i _ e => { pr with windows := putEntry pr.windows i e }
  | .trigger i _ e => { pr with triggers := putEntry pr.triggers i e }
  | .grant i e => { pr with grants := putEntry pr.grants i e }
  | .host i e => { pr with hosts := putEntry pr.hosts i e }
  | .key i k => { pr with keys := smPutD 0 pr.keys i k }
  | .revoke i id => { pr with revoked := smPutD 0 pr.revoked i id }
  | .both _ _ _ | .policy _ _ _ => pr

/-- The partition at whose tick a change takes effect; none: the next grid point (Table 19-8). -/
def PropChange.part : PropChange → Option Nat
  | .window _ p _ | .trigger _ p _ => some p
  | .both _ p _ => if p < 16 then some p else none
  | _ => none

/-- Staged operations that an old window covered and no window of their partition covers any more are dropped (R345, R492). -/
def dropUncovered (d : Dev) (old : Option WindowEntry) (pr : Propolis) : Dev :=
  match old with
  | none => d
  | some w =>
    let sized := fun (o : StagedOp) => match o.what with
      | .unit _ _ _ => false
      | _ => true
    let gone := fun (o : StagedOp) => sized o && o.part == w.owner.val && covers w o.addr o.bytes
      && !(pr.windows.any fun e => e.2.owner.val == o.part && covers e.2 o.addr o.bytes && (match o.what with
        | .store _ => e.2.store
        | _ => e.2.atomic))
    let n := (d.rmt.staging.filter gone).length
    events { d with rmt := { d.rmt with staging := d.rmt.staging.filter fun o => !gone o } } (pPart w.owner.val) Reg.CTL_RMT_EVENTS 3
      Reg.CTL_EVT_PUBLISH_DROP n

/-- What a change does outside the table. -/
def changeDev (d : Dev) (pr pr' : Propolis) (c : PropChange) : Dev :=
  match c with
  | .window i _ _ => dropUncovered d (smGet pr.windows i) pr'
  | .both c _ b => { d with host := { d.host with both := smPutD false d.host.both c b } }
  | .revoke _ id =>
    if id = 0 then d
    else (List.range 34).foldl (fun d k => match smGet d.sec.auth k with
      | some a => if a.partner = id then (if k < 32 then bolRetrain d k else hxvRetrain d (k - 32)) else d
      | none => d) d
  | .policy pol link svn =>
    let d := [0, 1].foldl (fun d i => wrN (wrN d (pSec i) Reg.SEC_POLICY pol) (pSec i) Reg.SEC_LINK_POLICY link) d
    { d with fuses := { d.fuses with svnMin := max d.fuses.svnMin svn } }
  | _ => d

/-- A change takes effect, and is logged. -/
def applyChange (s : Propolis × Dev) (c : PropChange) : Propolis × Dev :=
  let pr := changeTable s.1 c
  (pr, logTable (changeDev s.2 s.1 pr c) pr)

/-- The accepted changes that a predicate selects take effect, oldest first. -/
def applyChanges (pr : Propolis) (d : Dev) (sel : PropChange → Bool) : Propolis × Dev :=
  (pr.changes.filter sel).foldl applyChange ({ pr with changes := pr.changes.filter fun c => !sel c }, d)

/-- Changes of a partition take effect at its tick. -/
def propTick (pr : Propolis) (d : Dev) (p : Nat) : Propolis × Dev := applyChanges pr d fun c => c.part == some p

/-- Device-wide changes take effect at a grid point. -/
def propGrid (pr : Propolis) (d : Dev) : Propolis × Dev := applyChanges pr d fun c => c.part.isNone

/-- The table as it will be after every accepted change. -/
def propAfter (pr : Propolis) : Propolis := pr.changes.foldl changeTable pr

/-! ## Checks (R339, R347, R491) -/

/-- Does a range lie in Tier H, or in the comb stores of a partition (R339)? -/
def windowRange (d : Dev) (p a n : Nat) : Bool :=
  let ks := partCombs d p
  if inStore a then
    decide (a + n ≤ 0x080040000000)
      && (List.range ((a + n - 1) / 0x1000000 - a / 0x1000000 + 1)).all fun i => ks.contains (a / 0x1000000 - 0x080000 + i)
  else rangeOk d a n && decide (tierOfAddr d a = 1) && decide (tierOfAddr d (a + n - 1) = 1)

/-- Does a range lie in the published buffer of an object (R339)? -/
def inReceive (d : Dev) (p obj a n : Nat) : Bool :=
  let h := smGetD 0 (partOf d p).objects obj
  let b := bufOf d.vat (hPool h) (hIndex h)
  decide (h ≠ 0) && decide (b.gen = hGen h) && decide (b.state = .published) && decide (bufAddr d.vat h ≤ a)
    && decide (a + n ≤ bufAddr d.vat h + poolBytes (hPool h))

/-- Is a window entry acceptable at an index (R339, Table 13-2)? -/
def windowOk (d : Dev) (pr : Propolis) (i : Nat) (w : WindowEntry) : Bool :=
  let p := w.owner.val
  !w.reserved && w.base % 32 == 0 && w.length % 32 == 0 && decide (32 ≤ w.length) && decide (w.base < 2 ^ 48)
    && decide (w.length < 2 ^ 48) && decide (w.srcLo < 2048) && decide (w.srcHi < 2048) && decide (w.recvObject < 2 ^ 24)
    && !(w.replica && (w.store || w.atomic)) && windowRange d p w.base w.length
    && (!(w.store || w.atomic) || inReceive d p w.recvObject w.base w.length)
    && (w.replica || (jobMembers d p).contains ⟨myNode d, w.owner⟩)
    && !((propAfter pr).windows.any fun e => e.1 != i && decide (e.2.owner = w.owner)
      && decide (e.2.base < w.base + w.length) && decide (w.base < e.2.base + e.2.length))

/-- Is a trigger entry acceptable? -/
def triggerOk (e : TriggerEntry) : Bool :=
  !e.reserved && decide (e.idLo < 65536) && decide (e.idHi < 65536) && decide (e.srcLo < 65536) && decide (e.srcHi < 65536)

/-- Does a table hold an ADMIN grant? -/
def hasAdmin (pr : Propolis) : Bool := pr.grants.any fun e => e.2.admin

/-- Is a grant acceptable? -/
def grantOk (e : GrantEntry) : Bool := !e.reserved && decide (e.pathLo < 65536) && decide (e.pathHi < 65536)

/-- Is a host window acceptable? -/
def hostOk (e : HostWindow) : Bool := !e.reserved && decide (e.base < 2 ^ 64) && decide (e.length < 2 ^ 64)

/-- Link modes of a policy value: no reserved bit, no mode 3. -/
def linkPolicyOk (v : Nat) : Bool := decide (v < 16) && v % 4 != 3 && v / 4 != 3

/-- SVN of the running firmware. -/
def runningSvn (d : Dev) : Nat := (((activeCpx d).bind fun i => smGet d.cpx i).map Cpx.svn).getD 0

/-- The partition of the entry that an index holds or will hold. -/
def windowPart (pr : Propolis) (i : Nat) : Nat :=
  match smGet (propAfter pr).windows i, smGet pr.windows i with
  | some e, _ => e.owner.val
  | none, some e => e.owner.val
  | none, none => 0

/-- The same for a trigger. -/
def triggerPart (pr : Propolis) (i : Nat) : Nat :=
  match smGet (propAfter pr).triggers i, smGet pr.triggers i with
  | some e, _ => e.targetPart.val
  | none, some e => e.targetPart.val
  | none, none => 0

/-! ## Requests (R491) -/

/-- May a requester ask: the security monitor, in whose row of Table 15-8b alone the propolis table stands, or one with
ADMIN (R393, R491) (log entry 69, DEDUCED)? -/
def mayAsk (pr : Propolis) (r : Requester) : Bool := r == fwReq 0 || isAdmin pr r

/-- The monitor's answer stands in both SEC pages. -/
def propAnswer (d : Dev) (seq res : Nat) : Dev :=
  [0, 1].foldl (fun d i =>
    let u := pSec i
    let d := wrN (wrF d u Reg.SEC_STATUS 2 2 0) u Reg.SEC_PROP_STATUS (seq % 256 + 256 * res + 4096)
    if res = 0 then d else event d u Reg.SEC_EVENTS 3 Reg.SEC_EVT_PROP_REFUSED) d

/-- Result of a request: permission, index, fields. -/
def propResult (pr : Propolis) (r : Requester) (index size : Nat) (ok : Bool) : Nat :=
  if !mayAsk pr r then 2 else if size ≤ index then 5 else if !ok then 4 else 0

/-- A request is answered; an accepted change waits for its time, after those accepted before it. -/
def propDo (pr : Propolis) (d : Dev) (r : Requester) (seq index size : Nat) (ok : Bool) (c : PropChange) : Propolis × Dev :=
  let res := propResult pr r index size ok
  (if res = 0 then { pr with changes := pr.changes ++ [c] } else pr, propAnswer d seq res)

/-- The next state of a request (log entry 69, DEDUCED). -/
def propRequest (s : State) (r : Requester) (seq index size : Nat) (ok : Bool) (c : PropChange) : Host.Outcome State Fault Refusal :=
  let q := propDo s.prop s.dev r seq index size ok c
  .next { s with prop := q.1, dev := q.2 }

/-- Does an ADMIN grant remain in force, and after every accepted change, when a grant changes (R491)? -/
def adminStays (pr : Propolis) (c : PropChange) : Bool := hasAdmin (propAfter { pr with changes := pr.changes ++ [c] })

/-! ## The meanings -/

/-- SET_WINDOW (R339). -/
def execSetWindow (requester : Requester) (seq : BitVec 8) (index : Nat) (e : WindowEntry) (s : State) : Host.Outcome State Fault Refusal :=
  propRequest s requester seq.toNat index 256 (windowOk s.dev s.prop index e) (.window index e.owner.val (some e))

/-- CLEAR_WINDOW. -/
def execClearWindow (requester : Requester) (seq : BitVec 8) (index : Nat) (s : State) : Host.Outcome State Fault Refusal :=
  propRequest s requester seq.toNat index 256 true (.window index (windowPart s.prop index) none)

/-- SET_TRIGGER (R347). -/
def execSetTrigger (requester : Requester) (seq : BitVec 8) (index : Nat) (e : TriggerEntry) (s : State) : Host.Outcome State Fault Refusal :=
  propRequest s requester seq.toNat index 256 (triggerOk e) (.trigger index e.targetPart.val (some e))

/-- CLEAR_TRIGGER. -/
def execClearTrigger (requester : Requester) (seq : BitVec 8) (index : Nat) (s : State) : Host.Outcome State Fault Refusal :=
  propRequest s requester seq.toNat index 256 true (.trigger index (triggerPart s.prop index) none)

/-- SET_GRANT: an ADMIN grant must remain (R491). -/
def execSetGrant (requester : Requester) (seq : BitVec 8) (index : Nat) (e : GrantEntry) (s : State) : Host.Outcome State Fault Refusal :=
  propRequest s requester seq.toNat index 64 (grantOk e && adminStays s.prop (.grant index (some e))) (.grant index (some e))

/-- CLEAR_GRANT. -/
def execClearGrant (requester : Requester) (seq : BitVec 8) (index : Nat) (s : State) : Host.Outcome State Fault Refusal :=
  propRequest s requester seq.toNat index 64 (adminStays s.prop (.grant index none)) (.grant index none)

/-- SET_HOST_WINDOW. -/
def execSetHostWindow (requester : Requester) (seq : BitVec 8) (index : Nat) (e : HostWindow) (s : State) : Host.Outcome State Fault Refusal :=
  propRequest s requester seq.toNat index 64 (hostOk e) (.host index (some e))

/-- CLEAR_HOST_WINDOW. -/
def execClearHostWindow (requester : Requester) (seq : BitVec 8) (index : Nat) (s : State) : Host.Outcome State Fault Refusal :=
  propRequest s requester seq.toNat index 64 true (.host index none)

/-- SET_CONTEXT_PORTS (R383); a FREE context's bit changes at the next grid point. -/
def execSetContextPorts (requester : Requester) (seq : BitVec 8) (index : Nat) (both : Bool) (s : State) : Host.Outcome State Fault Refusal :=
  let x := ctxOf s.dev index
  propRequest s requester seq.toNat index 256 true (.both index (if x.state = .free then 16 else x.part) both)

/-- SET_OWNER_KEY. -/
def execSetOwnerKey (requester : Requester) (seq : BitVec 8) (index : Nat) (key : BitVec 384) (s : State) : Host.Outcome State Fault Refusal :=
  propRequest s requester seq.toNat index 8 true (.key index key)

/-- REVOKE. -/
def execRevoke (requester : Requester) (seq : BitVec 8) (index : Nat) (deviceId : BitVec 256) (s : State) : Host.Outcome State Fault Refusal :=
  propRequest s requester seq.toNat index 64 true (.revoke index deviceId)

/-- SET_POLICY (R479, R491). -/
def execSetPolicy (requester : Requester) (seq : BitVec 8) (index : Nat) (policy linkPolicy svnMin : W32) (s : State) : Host.Outcome State Fault Refusal :=
  propRequest s requester seq.toNat index 1
    (decide (policy.toNat < 4) && linkPolicyOk linkPolicy.toNat && decide (svnMin.toNat ≤ runningSvn s.dev))
    (.policy policy.toNat linkPolicy.toNat svnMin.toNat)

end Sys2Proof.Machine
end

