-- ==== Sys2Proof/Machine/Sparing.lean ====
section
/-! DEFINITION. Cell and comb sparing (17 R440 to R442). A repair of a unit whose partition runs a frame waits for the tick that
ends it. -/

namespace Sys2Proof.Machine

/-- The spare cells of a die that are still unused: powered off or idle, carrying nothing and not soft-disabled. -/
def freeSpares (d : Dev) (die : Nat) : List Nat :=
  if d.bup.journal.soft.contains (pPhysComb (spareComb die)) then []
  else ((List.range 8).map (8 * spareComb die + ·)).filter fun q =>
    !((List.range d.fuses.nCells).any fun c => physOf d c == q) && !d.bup.journal.soft.contains (pPhysCell q)

/-- The spare comb of a die has power: sparing switches it on (R498). -/
def spareOn (d : Dev) (die : Nat) : Dev :=
  let n := spareComb die
  if domOn d n then d
  else (fedBy d n).foldl (fun d u => setState d u (serviceState d u)) (markDom d n true)

/-- A spare unit has failed its test: it is entered in the soft-disable map (R440, step 2). -/
def spareFailed (d : Dev) (u : Nat) : Dev :=
  let j := d.bup.journal
  journalled (setState { d with bup := { d.bup with journal := { j with soft := j.soft ++ [u] } } } u .spared) 2 u (some [])

/-- A logical unit no longer waits for a spare. -/
def spareEnds (d : Dev) (u : Nat) : Dev := { d with bup := { d.bup with sparing := d.bup.sparing.filter (· != u) } }

/-- SPARED, with its class event. -/
def sparedEvent (d : Dev) (u : Nat) : Dev := classEvent (event d pBup Reg.BUP_EVENTS 1 Reg.BUP_EVT_SPARED) 3 u (frameOf d u)

/-- A physical unit that a logical one has left is out of service: it reports SPARED from now on (R48). -/
def movedOff (d : Dev) (u : Nat) : Dev :=
  let j := d.bup.journal
  setState { d with bup := { d.bup with journal := { j with left := if j.left.contains u then j.left else j.left ++ [u] } } } u .spared

/-- A logical cell moves to a physical one; its reset follows (R48, R440 step 4). -/
def moveCell (d : Dev) (c q : Nat) : Dev :=
  let old := physOf d c
  let j := d.bup.journal
  let d := { d with cellMap := smPut d.cellMap c q, bup := { d.bup with journal := { j with cells := smPut j.cells c q } } }
  let d := movedOff (journalled d 1 (pPhysCell q) (some [c])) (pPhysCell old)
  let d := setState (nextGen (clearUnit d (pCell c)) (pCell c)) (pCell c) (serviceState d (pCell c))
  spareEnds d (pCell c)

/-- A failed unit that no spare can carry is out of service: its comb leaves its partition, which halts, and the host is told of
each context (R442). -/
def outOfService (pr : Propolis) (d : Dev) (u : Nat) : Dev :=
  let k := if pageKind u = .cell then u % 1024 / 8 else u % 1024
  let d := event d pBup Reg.BUP_EVENTS 2 Reg.BUP_EVT_NO_SPARE
  let d := spareEnds { d with bup := { d.bup with out := if d.bup.out.contains u then d.bup.out else d.bup.out ++ [u] } } u
  match combOwner d k with
  | none => d
  | some p =>
    let d := haltPart d p
    let d := (ctxsOf d p).foldl (fun d c => eventCpl d c 13 (leBytes 2 u)) d
    let d := wrF d (pPart p) Reg.CTL_PART_COMBS k k 0
    logTable (syncRunning d) pr

/-- What a repair without a spare ends with: a failed unit goes out of service. -/
def noSpare (pr : Propolis) (d : Dev) (u : Nat) : Dev :=
  repairEnd (if stateIs d u .failed then outOfService pr d u else d) 2

/-- SPARE_CELL (R440): the lowest unused spare of the die that passes its test carries the cell. -/
def spareCellNow (pr : Propolis) (d : Dev) (r : RepairRun) : Dev :=
  let c := r.path % 1024
  let die := dieOfComb d.fuses (c / 8)
  let l := freeSpares d die
  let bad := l.takeWhile fun q => r.fails.contains q
  let d := if l.isEmpty then d else spareOn d die
  let d := bad.foldl (fun d q => spareFailed d (pPhysCell q)) d
  match (l.drop bad.length).head? with
  | none => noSpare pr d r.path
  | some q =>
    let n := rdF d pDev Reg.CTL_CAP_SPARES (8 * die + 7) (8 * die)
    let d := wrF (moveCell d c q) pDev Reg.CTL_CAP_SPARES (8 * die + 7) (8 * die) (n - 1)
    repairEnd (sparedEvent d r.path) 0

/-- SPARE_COMB (R441): the spare comb of the die carries the comb with its eight cells, when all eight spares are unused and every
one of them passes its test with the comb store. -/
def spareCombNow (pr : Propolis) (d : Dev) (r : RepairRun) : Dev :=
  let k := r.path % 1024
  let die := dieOfComb d.fuses k
  let m := spareComb die
  let l := freeSpares d die
  if l.length < 8 then noSpare pr d r.path
  else
    let d := spareOn d die
    let bad := (l.filter fun q => r.fails.contains q).map pPhysCell ++ (if r.fails.contains (288 + m) then [pPhysComb m] else [])
    let d := bad.foldl spareFailed d
    if !bad.isEmpty then noSpare pr d r.path
    else
      let old := physCombOf d k
      let j := d.bup.journal
      let d := { d with combMap := smPut d.combMap k m, bup := { d.bup with journal := { j with combs := smPut j.combs k m } } }
      let d := movedOff (journalled d 1 (pPhysComb m) (some [k])) (pPhysComb old)
      let d := (List.range 8).foldl (fun d i => moveCell d (8 * k + i) (8 * m + i)) d
      let d := setState (nextGen (clearUnit d r.path) r.path) r.path (serviceState d r.path)
      let d := wrF (spareEnds d r.path) pDev Reg.CTL_CAP_SPARES (8 * die + 7) (8 * die) 0
      repairEnd (sparedEvent d r.path) 0

/-- The partition whose running frame a sparing must wait for. -/
def sparingFrame (d : Dev) (path : Nat) : Option Nat := (frameOwner d path).bind fun p => if (running d p).isSome then some p else none

/-- The running repair, when it is a sparing, is carried out. -/
def sparingNow (pr : Propolis) (d : Dev) : Dev :=
  match d.bup.repair with
  | none => d
  | some r => if r.op = 1 then spareCellNow pr d r else if r.op = 2 then spareCombNow pr d r else d

/-- At the tick that ends a partition's frame, a sparing of one of its units that has waited is carried out. -/
def sparingTick (pr : Propolis) (d : Dev) (p : Nat) : Dev :=
  match d.bup.repair with
  | none => d
  | some r => if frameOwner d r.path = some p then sparingNow pr d else d

end Sys2Proof.Machine
end

