-- ==== Sys2Proof/Machine/Tick.lean ====
section
/-! DEFINITION. The tick (01 R16, R21 step 7, R24 to R26, R29, R55; 09 R232, R241; 15 R381, R384, R390, R391). -/

namespace Sys2Proof.Machine

/-- The hall time of a partition's next tick (log entry 19, DEDUCED). -/
def tickTime (d : Dev) (p : Nat) : Nat := roundUp (max d.hall (rdN d (pPart p) Reg.CTL_TICK_TIME + 1)) (frameLen (frameExp d p))

/-! ## Buffers and the object table (R24, R25, R293) -/

/-- Queues the buffers of a partition in a state for release at this tick. -/
def queueState (d : Dev) (p : Nat) (s : BufState) : Dev :=
  { d with vat := { d.vat with bufs := d.vat.bufs.map fun e =>
    (e.1, if e.2.part = p ∧ e.2.state = s then { e.2 with queued := true } else e.2) } }

/-- The shadow table becomes active: handles named by the frame are published, and its context holds their indices; another context's
entries stay (R24, R379). -/
def switchTable (d : Dev) (p : Nat) (ctx : Option Nat) : Dev :=
  (partOf d p).shadow.foldl (fun d e =>
    match ctx with
    | some c =>
      if heldElsewhere d p c e.1 then d
      else modCtx (publishAt d p e.1 e.2) c fun x => { x with held := if x.held.contains e.1 then x.held else x.held ++ [e.1] }
    | none => d) d

/-- Releases what is queued, in ascending handle order. -/
def releaseQueued (d : Dev) (p : Nat) : Dev := releaseAll d (bufsOf d.vat p fun b => b.queued)

/-! ## Registers of the tick -/

/-- The snapshot is published (R26). -/
def publishSnap (d : Dev) (p : Nat) : Dev :=
  let u := pPart p
  let d := (partOf d p).snap.zipIdx.foldl (fun d e => wr d u (Reg.CTL_SNAP + 4 * e.2) e.1) d
  wrN d u Reg.UNIT_SNAP_FRAME (frameNum d p)

/-- The frame number advances; at the common tick of a pinned START it is set to FRAME_NUM_START (R14, R381). -/
def nextFrameNum (d : Dev) (p t : Nat) : Dev :=
  let d := wrN d (pPart p) Reg.CTL_FRAME_NUM ((frameNum d p + 1) % 65536)
  match (ctxsOf d p).find? fun c => decide ((ctxOf d c).startAt = some t) with
  | some c => match (ctxOf d c).image with
    | some i => wrN d (pPart p) Reg.CTL_FRAME_NUM i.frameStart
    | none => d
  | none => d

/-- The slice index advances with a committed frame; past its end the context is IDLE with event cause 7 (R16). -/
def advanceSlice (d : Dev) (ran : Option (Nat × Nat)) (committed : Bool) : Dev :=
  match ran with
  | none => d
  | some (c, x) =>
    let k := ctxOf d c
    if k.state ≠ .running then d
    else if !committed then modCtx d c fun k => { k with state := .ready }
    else match k.image with
      | none => d
      | some i =>
        let n := (x + 1) % 2 ^ 32
        let above := decide (x = 0xFFFFFFFF) || (imageSlice n i.slices i.loop i.loopStart).isNone
        let d := modCtx d c fun k => { k with slice := n, ordinal := k.ordinal + 1, state := if above then .idle else .ready }
        if above then eventCpl d c 7 (leBytes 4 i.slices) else d

/-! ## Deferred commands (R20, R55, R391) -/

/-- Unit commands whose killed frame has ended act; those filed for the next frame wait for its end. -/
def actAll (d : Dev) (p : Nat) : Dev :=
  let l := (partOf d p).deferred
  let d := modPart d p fun t => { t with deferred := (l.filter fun e => !e.killed).map fun e => { e with killed := true } }
  (l.filter Deferred.killed).foldl actDeferred d

/-- The health agent's self-tests of units. -/
def selfTests (d : Dev) (us : List Nat) : Dev := us.foldl (fun d u => issueCmd 5 (fun _ => true) d u 4 0 2 none true) d

/-- The self-tests of an unexplained overrun: the partition's combs and the engines it reserves (R20). -/
def testAll (d : Dev) (p : Nat) : Dev :=
  selfTests d ((partCombs d p).map pComb ++ (wglEngines d p).map pWgl ++ (swmEngines d p).map pSwm)

/-! ## Step boundaries (R232, R241) -/

/-- The step boundaries of a tick: the committed slice that applies results, the tick at which an image is loaded, and every tick of an
IDLE serving context, for which the spec names none (log entry 79, DEDUCED). -/
def boundaries (d : Dev) (p : Nat) (ran : Option (Nat × Nat × Image × Nat)) (committed : Bool) (t : Nat) : Dev :=
  (ctxsOf d p).foldl (fun d c =>
    match (ctxOf d c).image.bind Image.brood with
    | none => modCtx d c fun x => { x with fresh := false }
    | some r =>
      let hit := match ran with
        | some (k, _, _, sl) => k == c && committed && sl == r.apply_
        | none => false
      if hit || (ctxOf d c).fresh || decide ((ctxOf d c).state = .idle) then boundaryOf d p c r hit t else d) d

/-! ## What else waits for a tick -/

/-- Is a CXL_MODE value ready to take effect: are the slots of every tier that becomes READ_ONLY drained, and are the partitions whose
images write into it QUIESCED (R264, steps 2 and 3)? -/
def roReady (d : Dev) (e : Nat × Nat) : Bool :=
  [2, 3].all fun t => !bitAt e.2 (t - 2) || tierRO d t e.1
    || ((List.range 16).all (fun p => !((images d p).any fun i => writesTier i.2 t e.1) || stateIs d (pPart p) .quiesced)
      && !d.tier.slots.any fun s => s.port == e.1 && (match whereIs d s.chunk with
        | .tierC _ => t == 2
        | .tierF _ => t == 3
        | _ => false))

/-- CXL_MODE values take effect (R264) (log entry 118, DESIGN CHOICE). -/
def modesDue (d : Dev) : Dev :=
  let l := d.tier.roPend.filter (roReady d)
  l.foldl (fun d e => wrF d (pCxl e.1) Reg.CXL_STATUS 3 2 (e.2 % 4))
    { d with tier := { d.tier with roPend := d.tier.roPend.filter fun e => !roReady d e } }

/-- Trace capture is armed or disarmed (R517). -/
def traceDue (d : Dev) (p : Nat) : Dev :=
  match (partOf d p).traceArm with
  | none => d
  | some on =>
    let d := modPart d p fun t => { t with traceArm := none }
    let d := wrF d (pPart p) Reg.CTL_TRACE_STATUS 2 2 (b2n on)
    if on then wrN d (pPart p) Reg.CTL_TRACE_HEAD 0 else d

/-- Windows and triggers that grant a dead node are closed (R349). -/
def tornDue (pr : Propolis) (d : Dev) (p : Nat) : Propolis × Dev :=
  let l := d.rmt.torn.filter fun e => e.1 == p
  let d := { d with rmt := { d.rmt with torn := d.rmt.torn.filter fun e => e.1 != p } }
  (l.flatMap fun e => closeDead pr p e.2).foldl applyChange (pr, d)

/-! ## Span-mode units (R221) -/

/-- The place of a staged unit in the buffer of the LAND that took it: handle and offset. -/
def unitPlace (d : Dev) (img : Image) (sl : Nat) (o : StagedOp) (tag block bytes : Nat) : Option (Nat × Nat) :=
  img.entries.findSome? fun e => match e.what with
    | .swm c (.land l) =>
      let w := max 1 (ceilDiv l.rowBytes 512)
      let off := c.offsetA + block / w * l.rowBytes + 512 * (block % w)
      match smGet (partOf d o.part).listGot c.bufA with
      | some (h, _) =>
        if c.slice = sl ∧ c.tag = tag ∧ c.delivery.val = 2 ∧ c.peer = o.src ∧ block / w < l.rows ∧ 512 * (block % w) + bytes ≤ l.rowBytes
            ∧ off + bytes ≤ poolBytes (hPool h) then some (h, off) else none
      | none => none
    | _ => none

/-- At the tick of a committed frame the staged units that a LAND of its slice has taken are written into its MODE 1 buffer, whose handle
is published with them; a unit that no LAND has taken stays staged for 16 frames (log entry 32, DEDUCED). -/
def publishUnits (d : Dev) (p now : Nat) (ran : Option (Nat × Nat × Image × Nat)) (committed : Bool) : Dev :=
  let take := fun (o : StagedOp) => match o.what, ran with
    | .unit tag block data, some (_, _, img, sl) =>
      if committed ∧ stagedFrame d p tag o.src = some o.frame then (unitPlace d img sl o tag block data.length).map fun q => (q, data) else none
    | _, _ => none
  let due := stagedDue d p now true
  let old := due.filter fun o => (take o).isNone && decide (16 ≤ serialDiff now o.frame)
  let d' := { d with rmt := { d.rmt with staging := d.rmt.staging.filter fun o => !due.contains o || ((take o).isNone && !old.contains o) } }
  (due.filterMap take).foldl (fun d e =>
    let a := bufAddr d.vat e.1.1 + e.1.2
    bump (noteWrite (writeAnywhere d a e.2) p (pPart p) 0xFFFF a e.2.length) (pPart p) Reg.CTL_RMT_PUBLISHED_BYTES e.2.length)
    (events d' (pPart p) Reg.CTL_RMT_EVENTS 3 Reg.CTL_EVT_PUBLISH_DROP old.length)

/-! ## The tick -/

/-- The end of the frame: buffers, table, snapshot, numbers, propolis changes and deferred commands. -/
def endFrame (pr : Propolis) (d : Dev) (p t : Nat) (committed : Bool) : Propolis × Dev :=
  let ran := running d p
  let d := if committed then digestSend d p ((partOf d p).shadow.map Prod.fst) else d
  let d := switchTable (queueState d p .leaving) p (ran.map Prod.fst)
  let d := queueState d p .frame
  let d := if ran.isNone then event d (pPart p) Reg.CTL_SCHED_EVENTS 2 Reg.CTL_EVT_IDLE_FRAME else d
  let d := nextFrameNum (publishSnap d p) p t
  let d := capCycles (advanceSlice d ran committed) p
  let q := propTick pr d p
  let s := partOf q.2 p
  let d := modPart q.2 p fun s => { s with
    cutTaken := false, killNow := s.killNext, killNext := none, decision := none, groupWait := false, dist := none, named := [],
    shadow := [], listGot := [], listTodo := [], before := [], wrote := [], schedUsed := [], resume := false, testNow := false
    testEng := [] }
  let d := sparingTick q.1 (actAll d p) p
  let d := if s.resume then unitCommand d (fun _ => true) (pPart p) 3 0 0 else d
  (q.1, selfTests (if s.testNow then testAll d p else d) s.testEng)

/-- What the tick brings in: commands, releases, staged data, collectives, brood and tiers. -/
def tickIn (pr : Propolis) (d : Dev) (p t f : Nat) (ran : Option (Nat × Nat × Image × Nat)) (committed : Bool) : Propolis × Dev :=
  let d := applyDrained d pr p (ran.map Prod.fst) committed t
  let d := publishStaged (preloadTick (releaseQueued d p) p) pr p f
  let d := brdTick (colTick d p f committed) p committed
  let d := slotReleases (boundaries d p ran committed t)
  let d := if committed then fgrCommit d p f else d
  tornDue pr (modesDue (durableTick d p)) p

/-- TICK of a partition (R21 step 7). A cut, and a group's outcome, that have not been commanded come first; so do the requests of buffer
lists that reached the Vat managers before the tick. -/
def tickOf (pr : Propolis) (d : Dev) (p : Nat) : Propolis × Dev :=
  let d := takeGroup (takeCut d p) p
  let t := tickTime d p
  let n := frameLen (frameExp d p) * clockNow d / 1000
  let d := listsTo (compsBack { d with hall := t }) (t * clockNow d)
  let f := frameNum d p
  let committed := decide ((partOf d p).decision = some true)
  let ran := runImage d p
  let cur := running d p
  let q := endFrame pr (publishUnits d p f ran committed) p t committed
  let q := tickIn q.1 q.2 p t f ran committed
  let d := dutyDue (clockDue (frameSwitchDue q.2 p t) t) p
  let d := traceDue (rolesAtTick (lsTick d)) p
  let d := wrN d (pPart p) Reg.CTL_TICK_TIME t
  let d := frameStart d p (if committed then none else cur) (cur.map Prod.fst) n
  (q.1, nameNext (ageRuns d p) p)

/-! ## The meaning -/

/-- TICK (R21). -/
def execTick (p : Fin 16) (s : State) : Host.Outcome State Fault Refusal :=
  let q := tickOf s.prop s.dev p.val
  .next { s with prop := q.1, dev := q.2 }

end Sys2Proof.Machine
end

