-- ==== Sys2Proof/Machine/Hexvan.lean ====
section
/-! DEFINITION. The Hexvan host link (16): packets, command records, completions, data space, host replicas, training and
retries; and the spare lanes and ports of a Bollum link (12 R327, R329). -/

namespace Sys2Proof.Machine

/-! ## Packets (R406, R407) -/

/-- A packet as it arrives (Table 16-3). -/
structure HxvIn where
  cls     : Nat
  last    : Bool
  reqId   : Nat
  addr    : Nat
  status  : Nat
  count   : Nat
  aux     : Nat
  payload : List Byte
  deriving DecidableEq, Repr

/-- Reads a packet. -/
def readHxv (l : List Byte) : HxvIn :=
  ⟨leAt l 0 1 % 16, bitAt (leAt l 1 1) 0, leAt l 4 4, leAt l 8 8, leAt l 0x10 1, leAt l 0x11 1, leAt l 0x14 8, l.drop 32⟩

/-- Do LENGTH and AUX keep Table 16-4? (log entry 46, DEDUCED) -/
def hxvShape (p : HxvIn) : Bool :=
  let n := p.payload.length
  match p.cls with
  | 0 => decide (1 ≤ p.count) && decide (p.count ≤ 8) && n == 64 * p.count && p.addr == 0 && p.aux == 0
  | 2 => decide (32 ≤ n) && decide (n ≤ 4096) && n % 32 == 0 && p.aux == 0
  | 4 => n == 0 && decide (p.aux < 2 ^ 13)
  | 6 => decide (p.aux < 32) && n == (if 16 ≤ p.aux then p.aux % 16 else 0)
  | 9 => decide (n ≤ 4096)
  | 11 => decide (n ≤ 4096)
  | _ => false

/-- Is a packet taken: CRC, reserved bits, class, direction and length (R406, R409)? -/
def hxvGood (l : List Byte) : Bool :=
  decide (32 ≤ l.length) && l.length == 32 + leAt l 2 2 && leAt l 0 1 < 16 && decide (leAt l 1 1 < 2) && decide (leAt l 2 2 ≤ 4096)
    && zeroBytes l 0x12 2 && crc32c (sliceBytes l 0 28 ++ l.drop 32) == leAt l 0x1C 4 && hxvShape (readHxv l)

/-- A packet is dropped (R406). -/
def hxvDrop (d : Dev) (i : Nat) : Dev := event d (pHxv i) Reg.HXV_EVENTS 5 Reg.HXV_EVT_HDR_DROP

/-- A packet reaches a port that is up: it is counted and numbered; a bad one, or one of another class, is dropped. Traffic for a
port in reset is absorbed (R437). Answers the packet that is to be acted on. -/
def hxvTake (d : Dev) (i cls : Nat) (l : List Byte) : Dev × Option HxvIn :=
  if !hxvUp d i then (d, none)
  else if stateIs d (pHxv i) .resetting then (absorbing d [pHxv i] id, none)
  else
    let d := bump d (pHxv i) Reg.HXV_RX_BYTES l.length
    let d := wrN d (pHxv i) Reg.HXV_LAST_SEQ ((rdF d (pHxv i) Reg.HXV_LAST_SEQ 15 0 + 1) % 65536)
    if !hxvGood l then (hxvDrop d i, none)
    else
      let p := readHxv l
      if p.cls ≠ cls then (d, none) else (d, some p)

/-- A packet that is taken acts on the device. -/
def hxvArrive (d : Dev) (i cls : Nat) (l : List Byte) (act : HxvIn → Dev → Dev) : Dev :=
  let t := hxvTake d i cls l
  match t.2 with
  | some p => act p t.1
  | none => t.1

/-! ## Commands and completions (R382, R409 to R411) -/

/-- A command record in its 64 bytes (Table 15-3), on a port. -/
def readCmd (i : Nat) (b : List Byte) : CmdRec :=
  ⟨i, 0, leAt b 0 1, leAt b 1 1, leAt b 2 2, BitVec.ofNat 32 (leAt b 4 4), sliceBytes b 8 56⟩

/-- COMMAND: its records in payload order (R409). -/
def commandIn (d : Dev) (i : Nat) (p : HxvIn) : Dev :=
  (List.range p.count).foldl (fun d k => placeRec d (readCmd i (sliceBytes p.payload (64 * k) 64))) d

/-- A completion record (Table 15-5). -/
def cplBytes (c : Cpl) : List Byte :=
  leBytes 1 c.opcode ++ leBytes 1 c.status ++ leBytes 2 c.ctx ++ leBytes 4 c.tag.toNat ++ leBytes 2 c.frame
    ++ leBytes 1 (b2n c.replay) ++ leBytes 1 0 ++ leBytes 4 c.seq ++ result16 c.result

/-- COMPLETION_SEND: up to 16 waiting records leave when the port is up and holds a credit; they are kept for 16 ms (R398). -/
def completionSend (d : Dev) (i : Nat) : Dev :=
  let q := hxvOf d i
  let l := q.queue.take 16
  if l.isEmpty || !hxvUp d i || hxvCredits d i 1 == 0 then d
  else
    let d := modHxv d i fun q => { q with
      queue := q.queue.drop 16
      sent := (q.sent.filter fun c => decide (d.hall < c.time + 16000000)) ++ l.map fun c => { c with time := d.hall } }
    let d := wrN d (pHxv i) Reg.HXV_CPL_QUEUE (hxvOf d i).queue.length
    let d := bump d (pCtl ((activeCpx d).getD 0)) Reg.CTL_COMPLETIONS l.length
    hxvSend d i (hxvPkt 1 false 0 0 0 l.length 0 (l.flatMap cplBytes))

/-! ## Data space (R66, R67, R412, R413) -/

/-- The units whose domain and reset an address of data space meets (R412). -/
def dataUnits (d : Dev) (a : Nat) : List Nat :=
  match whereIs d a with
  | .cell c => cellUnits d c
  | .comb k => [pComb k, pPhysComb (physCombOf d k)]
  | .absent => []
  | _ => [memUnit d a]

/-- The first and the last byte of an access, which may lie in two regions (R66, R412). -/
def bothEnds (a n : Nat) : List Nat := [a, a + n - 1]

/-- Does an open preload range of a port cover an access (R265)? (log entry 100, DESIGN CHOICE) -/
def preloadCovers (d : Dev) (a n : Nat) : Bool :=
  d.tier.preload.any fun e => decide (e.base ≤ a) && decide (a + n ≤ e.base + e.bytes)

/-- Does an access meet an open preload range? -/
def preloadMeets (d : Dev) (a n : Nat) : Bool :=
  d.tier.preload.any fun e => decide (a < e.base + e.bytes) && decide (e.base < a + n)

/-- Is an access inside one host data window with its right (R67)? -/
def hostWindowOk (pr : Propolis) (i a n : Nat) (write : Bool) : Bool :=
  pr.hosts.any fun e => decide (e.2.base ≤ a) && decide (a + n ≤ e.2.base + e.2.length)
    && (if i = 0 then e.2.port0 else e.2.port1) && (if write then e.2.write else e.2.read)

/-- Is a store owned by a loaded partition and not QUIESCED (R67)? -/
def storeBusy (d : Dev) (a : Nat) : Bool :=
  let held := fun (u : Nat) => ((ownerOf d u).map (loaded d)).getD false && !stateIs d u .quiesced
  match whereIs d a with
  | .cell c => held (pCell c)
  | .comb k => held (pComb k)
  | _ => false

/-- Is a write to a tier that is READ_ONLY refused: everything outside an open preload range (R67, R265)? -/
def tierClosed (d : Dev) (a n : Nat) (write : Bool) : Bool :=
  if preloadMeets d a n then !(write && preloadCovers d a n)
  else write && (bothEnds a n).any fun b => match whereIs d b with
    | .tierC p => tierRO d 2 p
    | .tierF p => tierRO d 3 p
    | _ => false

/-- The status of a WRITE or READ before POISON (R412): ALIGN, ADDRESS, PERMISSION, POWER_OFF, RESETTING. -/
def dataStatus (d : Dev) (pr : Propolis) (i a n : Nat) (write : Bool) : Nat :=
  if a % 32 ≠ 0 ∨ n % 32 ≠ 0 ∨ n < 32 ∨ 4096 < n then 3
  else if !rangeOk d a n then 1
  else if !hostWindowOk pr i a n write || (bothEnds a n).any (storeBusy d) || inCaches d a n || tierClosed d a n write then 2
  else if ((bothEnds a n).flatMap (dataUnits d)).any fun u => !unitOn d u then 4
  else if ((bothEnds a n).flatMap (dataUnits d)).any fun u => stateIs d u .resetting then 5
  else 0

/-- The first address of the comb stores. -/
abbrev storeBase : Nat := 0x80000000000

/-- How many of `n` bytes from an address lie below the stores. -/
def tierPart (a n : Nat) : Nat := min n (storeBase - a)

/-- A write of the host into the tiers: write-back slots no longer hold the sectors it writes (log entry 45, DEDUCED). -/
def hostStoreTier (d : Dev) (a : Nat) (bs : List Byte) : Dev :=
  if bs.isEmpty then d
  else
    let hit := fun (s : CacheSlot) (q : Nat) => decide (a < s.chunk + 32 * q + 32) && decide (s.chunk + 32 * q < a + bs.length)
    let left := (d.tier.slots.map fun s => { s with valid := s.valid.filter fun q => !hit s q }).filter fun s => !s.valid.isEmpty
    let d := modTier d fun t => { t with slots := left }
    let d := match portOfAddr d a with
      | some p => if preloadCovers d a bs.length then bump d (pCxl p) Reg.CXL_PRELOAD_BYTES bs.length else d
      | none => d
    tierWrite d a bs

/-- A write of the host, visible at once. -/
def hostStore (d : Dev) (a : Nat) (bs : List Byte) : Dev :=
  let n := tierPart a bs.length
  writeBytes (hostStoreTier d a (bs.take n)) (a + n) (bs.drop n)

/-- WRITE: checked, applied and acknowledged (R412). -/
def hostWriteIn (d : Dev) (pr : Propolis) (i : Nat) (p : HxvIn) : Dev :=
  let st := dataStatus d pr i p.addr p.payload.length true
  let d := if st = 0 then hostStore d p.addr p.payload else d
  hxvSend d i (hxvPkt 3 false p.reqId p.addr st 0 0 [])

/-- The read of store sectors by the host: an uncorrectable one fails the unit, with no kill (R412). -/
def hostLoadStore (d : Dev) : List (Nat × Bool) → Dev × Bool
  | [] => (d, true)
  | (s, bad) :: l =>
    let d := useSector d s (storeNow d s)
    if bad then (storeFails d s, false) else hostLoadStore (storeCorr d s) l

/-- The read of a tier range by the host: the owner of an uncorrectable line is treated, one listed already among them (R248). -/
def hostLoadTier (d : Dev) (a n : Nat) : Dev × Bool :=
  if n = 0 then (d, true)
  else
    let r := tierRead d a n
    (r.2.2.foldl ownerLost r.1, r.2.2.isEmpty)

/-- The bytes of a host read, which sees what the running frames have replaced (R23), and whether they are good. -/
def hostLoad (d : Dev) (a n : Nat) : Dev × Bool × List Byte :=
  let k := tierPart a n
  let t := hostLoadTier d a k
  let s := hostLoadStore t.1 (markedSectors t.1 (a + k) (n - k))
  (s.1, t.2 && s.2, pubBytes s.1 a n)

/-- READ: the bytes, or POISON (R412). -/
def hostReadIn (d : Dev) (pr : Propolis) (i : Nat) (p : HxvIn) : Dev :=
  let a := p.addr
  let n := p.aux % 2 ^ 13
  let st := dataStatus d pr i a n false
  let answer := fun (d : Dev) (st : Nat) (bs : List Byte) => hxvSend d i (hxvPkt 5 false p.reqId a st 0 p.aux bs)
  if st ≠ 0 then answer d st []
  else
    let r := hostLoad d a n
    if r.2.1 then answer r.1 0 r.2.2 else answer r.1 6 []

/-! ## Host replicas (R414) -/

/-- HOST_DATA in a cycle of the frame of the object's partition: bytes of a fetch, in ascending offset; the whole chunk ends it, and any
failure ends it too (log entry 64, DEDUCED). -/
def hostDataIn (d : Dev) (i : Nat) (p : HxvIn) (cycle : Nat) : Dev :=
  let open_ := (hxvOf d i).fetches.find? fun f => f.reqId == p.reqId
    && d.tier.refetches.any fun r => r.inst == f.inst && r.chunk == f.chunk && r.host
  match open_ with
  | none => hxvDrop d i
  | some f =>
    let done := fun (d : Dev) => modHxv d i fun q => { q with fetches := q.fetches.filter fun g => g.reqId != f.reqId }
    let all := f.got ++ p.payload
    if p.status ≠ 0 ∨ p.aux ≠ f.got.length ∨ 65536 < all.length then refetchFails (done d) f.inst f.chunk
    else if p.last then
      if all.length = 65536 then refetched (done d) f.inst f.chunk cycle all else refetchFails (done d) f.inst f.chunk
    else modHxv d i fun q => { q with fetches := q.fetches.map fun g => if g.reqId = f.reqId then { g with got := all } else g }

/-! ## Training and retries (R403 to R405) -/

/-- The retry buffer after the partner has reported its last accepted number: what it accepted goes, the rest leaves again; after a reset
of either end both start again from 0 (R405). -/
def hxvRejoin (d : Dev) (i seq : Nat) : Dev :=
  let q := hxvOf d i
  if seq % 65536 = 0xFFFF then modHxv (wrN d (pHxv i) Reg.HXV_LAST_SEQ 0xFFFF) i fun q => { q with retry := [], nextSeq := 0 }
  else
    let rest := q.retry.filter fun e => decide (0 < serialDiff e.1 (seq % 65536))
    let d := modHxv d i fun q => { q with retry := rest, wire := q.wire ++ rest.map Prod.snd }
    bump d (pHxv i) Reg.HXV_TX_BYTES (rest.foldl (fun n e => n + 32 + e.2.payload.length) 0)

/-- The width that the lanes of a port allow at a generation: all 8 when all qualify under Table 17-4, else lanes 0 to 3, else lanes 4
to 7, else none (Table 16-2 steps 4 and 5, R427). -/
def hxvWidth (gen2 : Bool) (q : Qual) : Nat :=
  let limit := if gen2 then 212 else 106
  let low := lanesOut limit 4 q == 0
  let high := lanesOut limit 4 { q with symbols := q.symbols.drop 4 } == 0
  if low && high then 3 else if low then 1 else if high then 2 else 0

/-- HEXVAN_TRAINING: the steps of Table 16-2 (log entry 62, DEDUCED). -/
def hxvTrain (d : Dev) (i : Nat) (x : TrainFacts) : Dev :=
  let u := pHxv i
  let d := if hxvUp d i then hxvRetrain d i else d
  let w := hxvWidth x.bothGen2 x.qual
  if !x.signal || !x.eqOk || w == 0 then hxvDown d i
  else if !x.authOk then hxvDown (event d u Reg.HXV_EVENTS 4 Reg.HXV_EVT_AUTH_FAIL) i
  else
    let d := wrN d u Reg.HXV_STATUS ((if w = 3 then 3 else 4) + 8 * b2n x.bothGen2 + 16 * w)
    let d := if w = 3 then d else classEvent (event d u Reg.HXV_EVENTS 2 Reg.HXV_EVT_DEGRADE) 3 u 0
    let d := authReset (hxvRejoin d i x.partnerSeq) (32 + i)
    hxvPump (modHxv d i fun q => { q with
      timer := false, credits := [(1, 64), (3, 128), (5, 128), (7, 16), (8, 4), (10, 4)] }) i

/-- Corrected symbols of a lane within 10 ms against the limit of the generation (R403). -/
def hxvSymbols (d : Dev) (i lane n : Nat) : Dev :=
  let u := pHxv i
  let d := bump (bump d u Reg.HXV_FEC_CORR 1) u (Reg.HXV_LANE_SYMERR lane) n
  let d := modHxv d i fun q => if q.symStart + 10000000 ≤ d.hall then { q with symbols := [], symStart := d.hall } else q
  let d := modHxv d i fun q => { q with symbols := smModD 0 q.symbols lane (· + n) }
  if (if rdB d u Reg.HXV_STATUS 3 then 2125 else 1062) < smGetD 0 (hxvOf d i).symbols lane then hxvRetrain d i else d

/-- HEXVAN_LINK_RETRY (R403, R487). -/
def hxvRetry (d : Dev) (i : Nat) (why : RetryWhy) (refusals time : Nat) : Dev :=
  if !hxvUp d i then d
  else match why with
    | .corrected lane n => hxvSymbols d i lane.val n
    | _ =>
      let d := if why = .uncorrectable then bump d (pHxv i) Reg.HXV_FEC_UNCORR 1 else d
      let t := if why = .tagFail then tagFail d (32 + i) (32 + i) time else (d, false)
      let d := event t.1 (pHxv i) Reg.HXV_EVENTS 0 Reg.HXV_EVT_RETRY
      let ts := time :: (hxvOf d i).retries.filter fun x => decide (time < x + 1000000)
      let d := modHxv d i fun q => { q with retries := ts }
      if t.2 ∨ 8 ≤ refusals ∨ 64 < ts.length then hxvRetrain d i else d

/-- The 1 s retry of a DOWN port: it trains again (R325, R404). -/
def portRetry (d : Dev) (p : LinkPort) : Dev :=
  match p with
  | .bol i =>
    if !d.fuses.bol i.val || bolState d i.val != 0 || !(bolOf d i.val).timer || noPartner d i.val then d
    else modBol (wrN d (pBol i.val) Reg.BOL_PORT_STATUS 1) i.val fun q => { q with timer := false }
  | .hxv i =>
    if hxvState d i.val ≠ 0 ∨ !(hxvOf d i.val).timer then d
    else modHxv (wrN d (pHxv i.val) Reg.HXV_STATUS 1) i.val fun q => { q with timer := false }
  | .eth _ => d

/-! ## Lanes and spare ports (R327, R329) -/

/-- A write to BOL_LANE_CTL: one lane leaves service, or all four return; a second lane is refused (R327)
(log entry 47, DEDUCED). -/
def laneControl (d : Dev) (i v : Nat) : Dev :=
  let n := v % 16
  let old := rdF d (pBol i) Reg.BOL_LANE_CTL 3 0
  if !d.fuses.bol i || !([0, 1, 2, 4, 8].contains n) || (n != 0 && old != 0 && n != old) then d
  else bolRetrain (wrN d (pBol i) Reg.BOL_LANE_CTL n) i

/-- A write to BOL_SPARE_ROLE: role 1 stands in for an X port of the bundle toward slot s xor 1 that is DOWN (R329). -/
def spareControl (d : Dev) (i v : Nat) : Dev :=
  let role := v % 4
  let x := nbits v 12 8
  if i < 30 ∨ role = 3 ∨ (role = 1 ∧ !((twinPorts d).contains x && bolState d x == 0)) then d
  else wrN d (pBol i) Reg.BOL_SPARE_ROLE (role + 256 * x)

/-! ## The meanings -/

/-- COMMAND_PACKET (R409). -/
def execCommandPacket (port : Fin 2) (raw : List Byte) (s : State) : Host.Outcome State Fault Refusal :=
  onDev s fun d => hxvArrive d port.val 0 raw fun p d => commandIn d port.val p

/-- COMPLETION_SEND (R410). -/
def execCompletionSend (port : Fin 2) (s : State) : Host.Outcome State Fault Refusal := onDev s fun d => completionSend d port.val

/-- HOST_WRITE (R412, R413). -/
def execHostWrite (port : Fin 2) (raw : List Byte) (s : State) : Host.Outcome State Fault Refusal :=
  onDevP s fun pr d => hxvArrive d port.val 2 raw fun p d => hostWriteIn d pr port.val p

/-- HOST_READ (R412). -/
def execHostRead (port : Fin 2) (raw : List Byte) (s : State) : Host.Outcome State Fault Refusal :=
  onDevP s fun pr d => hxvArrive d port.val 4 raw fun p d => hostReadIn d pr port.val p

/-- HOST_DATA (R414). -/
def execHostData (port : Fin 2) (x : BytesAt) (s : State) : Host.Outcome State Fault Refusal :=
  onDev s fun d => hxvArrive d port.val 9 x.data fun p d => hostDataIn d port.val p x.cycle

/-- HEXVAN_TRAINING (R404). -/
def execHexvanTraining (port : Fin 2) (x : TrainFacts) (s : State) : Host.Outcome State Fault Refusal :=
  onDev s fun d => hxvTrain d port.val x

/-- HEXVAN_LINK_RETRY (R403). -/
def execHexvanLinkRetry (port : Fin 2) (why : RetryWhy) (refusals time : Nat) (s : State) : Host.Outcome State Fault Refusal :=
  onDev s fun d => hxvRetry d port.val why refusals time

/-- HEXVAN_CREDIT_RETURN (R407): credits of a class come back, and waiting packets leave. -/
def execHexvanCreditReturn (port : Fin 2) (cls : Fin 16) (n : Nat) (s : State) : Host.Outcome State Fault Refusal :=
  onDev s fun d => hxvPump (modHxv d port.val fun q => { q with credits := smModD 0 q.credits cls.val (· + n) }) port.val

/-- PORT_RETRY_TIMER (R325, R404). -/
def execPortRetryTimer (port : LinkPort) (s : State) : Host.Outcome State Fault Refusal := onDev s fun d => portRetry d port

/-- LANE_OUT (R327). -/
def execLaneOut (port : Fin 32) (value : W32) (s : State) : Host.Outcome State Fault Refusal :=
  onDev s fun d => laneControl d port.val value.toNat

/-- SPARE_ROLE (R329). -/
def execSpareRole (port : Fin 32) (value : W32) (s : State) : Host.Outcome State Fault Refusal :=
  onDev s fun d => spareControl d port.val value.toNat

end Sys2Proof.Machine
end

