-- ==== Sys2Proof/Machine/Bringup.lean ====
section
/-! DEFINITION. Bring-up and device reset (17 R419 to R428, R438; 20 R495, R496): the two paths up to the wait for a firmware
image, the start of that image's components (15 R395, R396), and READY. -/

namespace Sys2Proof.Machine

/-! ## Phases and events -/

/-- Sets PHASE. -/
def setPhase (d : Dev) (n : Nat) : Dev := hltSync (wrF d pBup Reg.BUP_STATUS 3 0 n)

/-- PHASE. -/
def phase (d : Dev) : Nat := rdF d pBup Reg.BUP_STATUS 3 0

/-- The count of a bit of BUP_EVENTS (Table 17-11). -/
def bupCount (bit : Nat) : Nat :=
  if bit = 8 then Reg.BUP_EVT_BCAST_BAD_CHUNK
  else if bit = 9 then Reg.BUP_EVT_JOURNAL_BAD
  else if bit = 10 then Reg.BUP_EVT_PATH_LATE
  else if bit = 11 then Reg.BUP_EVT_BCAST_DONE
  else Reg.BUP_EVT_SELFTEST_FAIL + 4 * bit

/-- `n` events of a bit of BUP_EVENTS (R450). -/
def bupEvents (d : Dev) (bit n : Nat) : Dev := events d pBup Reg.BUP_EVENTS bit (bupCount bit) n

/-- The device stops (R421). -/
def bringFailed (d : Dev) : Dev := classEvent (setPhase d 8) 6 pBup 0

/-- Changes the bring-up block. -/
def modBup (d : Dev) (g : BupSt → BupSt) : Dev := { d with bup := g d.bup }

/-- Changes the journal. -/
def modJournal (d : Dev) (g : Journal → Journal) : Dev := modBup d fun b => { b with journal := g b.journal }

/-- Is a path running: has the package power, and is PHASE neither READY nor FAILED? -/
def pathRuns (d : Dev) : Bool := d.powered && decide (phase d ≠ 7) && decide (phase d ≠ 8)

/-! ## What a start finds (R424) -/

/-- Lanes out of service of a Bollum port by the k-th window it saw: the limits of Table 17-4, with none out when it saw none; a
Virier partner's port has no use for fewer lanes (R427). -/
def bolOut (warm : Bool) (x : BringFacts) (i k : Nat) : Nat :=
  match (x.bolQuals.filter fun q => q.1.val == i)[k]? with
  | none => 0
  | some (_, rev1, q) =>
    let n := lanesOut (if rev1 then 2125 else if warm && k == 0 then 425 else 4250) 4 q
    if rev1 && n != 0 then 4 else n

/-- Failed windows of a port, from the first to the fallback's. -/
def failedWindows (warm : Bool) (bad : Nat → Bool) : Nat := if !bad 0 then 0 else if warm && bad 1 then 2 else 1

/-- Bollum ports that fail training or qualification, once for each time. -/
def bolFailing (warm : Bool) (x : BringFacts) : List Nat :=
  x.bolFails ++ (List.range 32).flatMap fun i => List.replicate (failedWindows warm fun k => decide (1 < bolOut warm x i k)) i

/-- Lanes in service of a Bollum port that has qualified. -/
def bolLanes (warm : Bool) (x : BringFacts) (i : Nat) : Nat :=
  4 - bolOut warm x i (if warm && decide (1 < bolOut warm x i 0) then 1 else 0)

/-- Ethernet ports that fail training or qualification, once for each time (Table 17-4). -/
def ethFailing (warm : Bool) (x : BringFacts) : List Nat :=
  x.ethFails ++ (List.range 4).flatMap fun i => List.replicate (failedWindows warm fun k =>
    match (x.ethQuals.filter fun q => q.1.val == i)[k]? with
    | none => false
    | some (_, q) => lanesOut (if warm && k == 0 then 425 else 4250) 4 q != 0) i

/-- Does an item fail for good: on the cold path when it is named, on the warm path when its fallback fails too? -/
def failsNow (warm : Bool) (l : List Nat) (i : Nat) : Bool := if warm then decide (2 ≤ l.count i) else l.contains i

/-- Items that fall back on the warm path, each once. -/
def fallBacks (warm : Bool) (l : List Nat) : Nat := if warm then l.eraseDups.length else 0

/-- Is the journal without a training record of a stack or port of the grade (R419)? -/
def untrained (d : Dev) : Bool :=
  let f := d.fuses
  let items := (stacksOf f).map pMem ++ ((List.range 32).filter f.bol).map pBol ++ [pHxv 0, pHxv 1] ++ (List.range 4).map pCxl
    ++ ((List.range 4).filter f.eth).map pEth
  items.any fun u => !d.bup.journal.trained.contains u

/-- Does a device reset take the cold path (R419)? -/
def coldStart (d : Dev) : Bool :=
  rdB d pBup Reg.BUP_BOOT_CFG 0 || !d.bup.reached || d.bup.journal.bad || untrained d

/-! ## Mapping and service (R425, R426, R438) -/

/-- Spare cells of a die that carry a logical cell or are out of service (log entry 58, DEDUCED). -/
def sparesUsed (d : Dev) (die : Nat) : Nat :=
  ((List.range 8).filter fun i => (List.range d.fuses.nCells).any (fun c => physOf d c == 8 * spareComb die + i)
    || d.bup.journal.soft.contains (pPhysCell (8 * spareComb die + i)) || d.bup.journal.soft.contains (pPhysComb (spareComb die))).length

/-- CTL_CAP_SPARES of every die. -/
def spareCounts (d : Dev) : Dev :=
  (List.range 4).foldl (fun d i => wrF d pDev Reg.CTL_CAP_SPARES (8 * i + 7) (8 * i) (8 - sparesUsed d i)) d

/-- Self-test on the cold path: the units that fail, with their test codes, and those that pass (Table 17-3). Fused-off units
are not tested (log entry 52, DEDUCED). -/
def selfTested (d : Dev) (x : BringFacts) : Dev :=
  let f := d.fuses
  let fails := (x.combFails.filter fun e => f.physComb e.1).map (fun e => (pPhysComb e.1, e.2))
    ++ (x.cellFails.filter fun e => f.physCell e.1).map fun e => (pPhysCell e.1, e.2)
  let j := d.bup.journal
  let tested := fails.filter fun e => !j.soft.contains e.1 || j.cleared.contains e.1
  let d := tested.foldl (fun d e =>
    let d := wrN (bupEvents d 0 1) pBup Reg.BUP_LAST_FAIL (e.1 + 65536 * (e.2 % 256))
    if d.bup.journal.soft.contains e.1 then d
    else journalled (modJournal d fun j => { j with soft := j.soft ++ [e.1] }) 2 e.1 (some [])) d
  let good := fun (u : Nat) => d.bup.journal.cleared.contains u && !(fails.any fun e => e.1 == u)
  let back := d.bup.journal.soft.filter good
  back.foldl (fun d u => journalled d 2 u none)
    (modJournal d fun j => { j with soft := j.soft.filter fun u => !good u, cleared := j.cleared.filter fun u => !good u })

/-- The Waggle, Swarm, Forager, Vat and brood blocks that fail their self-test on the cold path have FAILED (Table 17-1 step 4a, R51). -/
def blocksTested (d : Dev) (x : BringFacts) : Dev :=
  (x.blockFails.filter fun e => present d.fuses e.1 && [PageKind.block 1, .block 2, .block 3, .block 4, .block 5].contains (pageKind e.1)).foldl
    (fun d e => setState (wrN (bupEvents d 0 1) pBup Reg.BUP_LAST_FAIL (e.1 + 65536 * (e.2 % 256))) e.1 .failed) d

/-- The journalled spare map on top of the initial map (R438). -/
def mapUnits (d : Dev) : Dev := spareCounts { d with cellMap := d.bup.journal.cells, combMap := d.bup.journal.combs }

/-- The units that are present, from the dies down. -/
def allUnits (f : Fuses) : List Nat :=
  (List.range 6).map pDie ++ (List.range f.nCombs).map pComb ++ (List.range f.nCells).map pCell ++ (List.range 16).map pPart
    ++ ((List.range 15).flatMap fun t => (List.range 32).filterMap fun b => if f.block t b then some (pBlock t b) else none)
    ++ ((List.range 288).filter f.physCell).map pPhysCell ++ ((List.range 36).filter f.physComb).map pPhysComb

/-- Is a unit out of service: by the soft-disable map, itself, the comb it is in, or what carries it; or because a logical unit has
moved off it (R48)? (log entry 53, DEDUCED) -/
def softOut (d : Dev) (u : Nat) : Bool :=
  let s := d.bup.journal.soft
  let left := d.bup.journal.left
  let cell := fun (p : Nat) => s.contains (pPhysCell p) || s.contains (pPhysComb (p / 8))
  match pageKind u with
  | .physCell => cell (u % 1024) || left.contains u || left.contains (pPhysComb (u % 1024 / 8))
  | .physComb => s.contains u || left.contains u
  | .cell => cell (physOf d (u % 1024))
  | .comb => s.contains (pPhysComb (physCombOf d (u % 1024)))
  | _ => false

/-- A unit comes into service, or is kept out of it: a unit without power is OFF, a physical one that is soft-disabled is SPARED,
and a logical one without a carrier has FAILED and waits for a spare (R440) (log entry 49, DEDUCED). -/
def intoService (d : Dev) (u : Nat) : Dev :=
  if !unitOn d u then setState d u .off
  else if !softOut d u then setState d u .ready
  else match pageKind u with
    | .cell | .comb => wantSpare (setState d u .failed) u
    | _ => setState d u .spared

/-- Every unit is in service or out of it; a reset has advanced every GENERATION (R436). -/
def unitsUp (d : Dev) (reset : Bool) : Dev :=
  (allUnits d.fuses).foldl (fun d u => intoService (if reset then nextGen d u else d) u) d

/-! ## Domains (Table 20-2) -/

/-- Is a domain switched on by step 1: not absent, no spare comb that carries nothing, no retired stack? -/
def startsOn (d : Dev) (n : Nat) : Bool :=
  let spare := decide (n < 36) && n % 9 == 8
  let used := d.bup.journal.cells.any (fun e => e.2 / 8 == n) || d.bup.journal.combs.any fun e => e.2 == n
  let st := (n - 36) % 8
  !domAbsent d.fuses n && (!spare || used) && !(decide (36 ≤ n) && decide (n < 52) && retiredStack d st)

/-- Step 1 switches its domains on. -/
def domainsUp (d : Dev) : Dev := (List.range 80).foldl (fun d n => if startsOn d n then markDom d n true else d) d

/-! ## Memory (R253, R256, R282, R287) -/

/-- The extents that retired stacks hold on a port. -/
def extentsOn (d : Dev) (port : Nat) : List Nat :=
  d.tier.retire.flatMap fun e => match e.2 with
    | .retired ex | .copying ex => (ex.filter fun q => q.1 == port).map Prod.snd

/-- Does a range of a port meet an extent of a retired stack? -/
def meetsExtent (d : Dev) (a n : Nat) : Bool :=
  (List.range 4).any fun p => (extentsOn d p).any fun b => decide (a < b + 24 * 2 ^ 30) && decide (b < a + n)

/-- The highest 24 GiB of a port's Tier C that no extent holds (log entry 54, DEDUCED). -/
def freeExtent (d : Dev) (port : Nat) : Option Nat :=
  let cap := cxlBytes d port false / 2 ^ 30
  let at_ := fun (g : Nat) => 0x10000000000 + port * 0x8000000000 + (cap - 24 * g) * 2 ^ 30
  ((List.range (cap / 24)).map (· + 1)).findSome? fun g => if meetsExtent d (at_ g) (24 * 2 ^ 30) then none else some (at_ g)

/-- A stack that fails training is retired; bring-up takes its extents, which start empty (R281, R282, R421). -/
def retireAtStart (d : Dev) (st : Nat) : Dev :=
  if (smGet d.tier.retire st).isSome then d
  else
    let ex := (List.range 4).filterMap fun p => (freeExtent d p).map fun b => (p, b)
    if ex.length < 4 then event d (pMem st) Reg.MEM_EVENTS 4 Reg.MEM_EVT_RETIRE_BLOCKED
    else
      let d := { d with tier := { d.tier with retire := smPut d.tier.retire st (.retired ex) } }
      let d := markDom (markDom d (36 + st) false) (44 + st) false
      classEvent (journalled d 5 st (some (ex.map Prod.snd))) 3 (pMem st) 0

/-- A cold bring-up makes the journalled row mappings permanent in the stacks that support post-package repair, and frees their spare
rows (R252, Table 17-1 step 4b). -/
def rowsPermanent (d : Dev) (st : Nat) : Dev :=
  if !Config.postPackage st || retiredStack d st then d
  else
    let rows := ((rowsOf d st).map RowMap.row).eraseDups
    rows.foldl (fun d r => journalled d 3 (rowSubject st r) (some [0])) { d with tier := { d.tier with rows := smPutD [] d.tier.rows st [] } }

/-- What MEM_STATE shows of a stack at a start: retired or in service, its spare rows and its listed lines. -/
def stackUp (d : Dev) (st : Nat) : Dev :=
  let d := wrF d (pMem st) Reg.MEM_STATE 1 0 (if retiredStack d st then 2 else 0)
  poisonSync (wrF d (pMem st) Reg.MEM_STATE 15 8 (64 - (rowsOf d st).length)) st

/-- A retirement that was copying is over: the copy is lost with the memory, and the extents were never journalled. -/
def dropCopies (d : Dev) : Dev :=
  { d with tier := { d.tier with retire := d.tier.retire.filter fun e => match e.2 with
    | .retired _ => true
    | .copying _ => false } }

/-- Is a percentile of the qualifying reads at most 80 % of a tier's read latency (R256)? -/
def fastEnough (tier lat : Nat) : Bool := decide (5 * lat ≤ 4 * tierReadLat tier)

/-- A CXL port whose link has trained: its device is qualified, and each capacity appears in its window or is refused for its tier with
DEVICE_SLOW; a link narrower or slower than R428 asks leaves both windows empty (R254, R256, R428). `ro` are the READ_ONLY bits. -/
def cxlQualify (d : Dev) (port ro : Nat) (e : CxlDevice) : Dev :=
  let u := pCxl port
  let full := decide (e.lanes = 16) && decide (e.rate = if e.cxl2 then 32 else 64)
  let c := dataGiB e.rawC 512
  let f := dataGiB e.rawF 1024
  let okC := full && fastEnough 2 e.latC
  let okF := full && fastEnough 3 e.latF
  let slow := if full then b2n (c != 0 && !okC) + b2n (f != 0 && !okF) else 1
  let d := wrN d u Reg.CXL_STATUS (1 + 2 * b2n (decide (e.rate = 64)) + 4 * ro + 256 * min e.lanes 16)
  wrN (events d u Reg.CXL_EVENTS 4 Reg.CXL_EVT_DEVICE_SLOW slow) u Reg.CXL_CAP ((if okC then c else 0) + 65536 * (if okF then f else 0))

/-- A CXL port at a start: its device is qualified, and its tiers are READ_ONLY (R264); a port that fails training has an empty window
(R421). -/
def cxlUp (d : Dev) (fails : List Nat) (warm : Bool) (e : CxlDevice) : Dev :=
  if 3 < e.port ∨ failsNow warm fails e.port then d else cxlQualify d e.port 3 e

/-- Largest count of a pool's region (Table 11-1). -/
def poolMax (pool : Nat) : Nat :=
  if pool < 5 then 1048576 else if pool = 5 then 786432 else if pool = 6 then 49152 else if pool = 7 then 3072 else 262144

/-- May the tier manager lay out a region so, outside the areas it keeps for itself (R287)? (log entry 55, DESIGN CHOICE) -/
def regionOk (d : Dev) (areas : List (Nat × Nat)) (pool port base count : Nat) : Bool :=
  let n := count * poolBytes pool
  let rs := areas ++ d.vat.regions.map fun e => (e.2.base, e.2.count * poolBytes (e.1 / 64))
  decide (3 ≤ pool) && decide (pool < 16) && decide (port < 4) && (decide (8 ≤ pool) || port == 0) && decide (0 < count)
    && decide (count ≤ poolMax pool) && base % poolBytes pool == 0 && rangeOk d base n && decide (tierOfAddr d base = poolTier pool)
    && (decide (pool < 8) || decide (portOfAddr d base = some port)) && !(decide (pool < 8) && inCaches d base n) && !meetsExtent d base n
    && !(rs.any fun r => decide (r.1 < base + n) && decide (base < r.1 + r.2))
    && (smGet d.vat.regions (pool * 64 + port)).isNone

/-- Step 7 builds the regions (R287) and the remote staging region (R343). -/
def poolsUp (d : Dev) (x : BringFacts) : Dev :=
  let d := x.pools.foldl (fun d r => if regionOk d x.areas r.1 r.2.1 r.2.2.1 r.2.2.2
    then { d with vat := { d.vat with regions := smPut d.vat.regions (r.1 * 64 + r.2.1) ⟨r.2.2.1, r.2.2.2, 0, [], r.2.2.2⟩ } } else d) d
  vatSync { d with rmt := { d.rmt with stageSize := x.stageRegion } }

/-! ## Links -/

/-- A Bollum port after step 4c: it trains on the lanes that qualify, or is DOWN (R427); Z ports of a pod of one rack have no partner (R303, R421)
(log entry 56, DEDUCED). -/
def bolUp (d : Dev) (x : BringFacts) (warm : Bool) (i : Nat) : Dev :=
  if failsNow warm (bolFailing warm x) i then bolDown d i
  else if noPartner d i then d
  else
    let n := bolLanes warm x i
    let d := wrN d (pBol i) Reg.BOL_PORT_STATUS (1 + 8 * n)
    if n = 3 then classEvent (event d (pBol i) Reg.BOL_PORT_EVENTS 2 Reg.BOL_EVT_DEGRADE) 3 (pBol i) 0 else d

/-- A Hexvan port after step 4c. -/
def hxvStart (d : Dev) (x : BringFacts) (warm : Bool) (i : Nat) : Dev :=
  if failsNow warm x.hxvFails i then hxvDown d i else wrN d (pHxv i) Reg.HXV_STATUS 1

/-- Step 4b and 4c: stacks and ports. -/
def linksUp (d : Dev) (x : BringFacts) (warm : Bool) : Dev :=
  let f := d.fuses
  let d := bupEvents d 4 (fallBacks warm x.stackFails + fallBacks warm (bolFailing warm x) + fallBacks warm x.hxvFails
    + fallBacks warm x.cxlFails + fallBacks warm (ethFailing warm x))
  let d := (x.cxlFails.eraseDups.filter fun i => decide (i < 4) && failsNow warm x.cxlFails i).foldl (fun d i =>
    event d (pCxl i) Reg.CXL_EVENTS 4 Reg.CXL_EVT_DEVICE_SLOW) d
  let d := x.cxlCaps.foldl (fun d e => cxlUp d x.cxlFails warm e) d
  let d := ((stacksOf f).filter fun s => failsNow warm x.stackFails s).foldl retireAtStart (dropCopies d)
  let d := if warm then d else (stacksOf f).foldl rowsPermanent d
  let d := (stacksOf f).foldl stackUp d
  let d := (List.range 4).foldl (fun d p => poisonSync d (8 + p)) d
  let d := ((List.range 32).filter f.bol).foldl (fun d i => bolUp d x warm i) d
  let d := [0, 1].foldl (fun d i => hxvStart d x warm i) d
  ((List.range 4).filter f.eth).foldl (fun d i => wrF d (pEth i) Reg.ETH_STATUS 0 0 (b2n (!failsNow warm (ethFailing warm x) i))) d

/-- Step 5: the training records of what has trained (R419, R447). -/
def trainingSaved (d : Dev) (x : BringFacts) (warm : Bool) : Dev :=
  let f := d.fuses
  let ok := fun (l : List Nat) (i : Nat) => !failsNow warm l i
  let new := ((stacksOf f).filter fun s => !retiredStack d s && ok x.stackFails s).map pMem
    ++ ((List.range 32).filter fun i => f.bol i && ok (bolFailing warm x) i).map pBol ++ ([0, 1].filter (ok x.hxvFails)).map pHxv
    ++ ((List.range 4).filter (ok x.cxlFails)).map pCxl ++ ((List.range 4).filter fun i => f.eth i && ok (ethFailing warm x) i).map pEth
  let add := new.filter fun u => !d.bup.journal.trained.contains u
  add.foldl (fun d u => journalled d (if pageKind u = .block 6 then 7 else 6) u (some [])) (modJournal d fun j => { j with trained := j.trained ++ add })

/-! ## The two paths (R420, R423) -/

/-- A boot ROM starts in a complex that is good; its identity key is derived, and its log begins (R473, R481)
(log entry 11, DESIGN CHOICE). -/
def bootRom (d : Dev) (ok : List Bool) (i : Nat) : Dev :=
  let d := wrN d (pSec i) Reg.SEC_STATUS (1 + 256 * d.fuses.revokedRoots.toNat)
  if !ok.getD i true then d
  else appendLog (wrN d (pCtl i) Reg.CTL_CX_STATUS 1) i 1 0 0xFFFF 0 ((List.range 32).map Config.bootRom)

/-- A complex that fails its test has no role, and its unit has FAILED. -/
def complexFailed (d : Dev) (ok : List Bool) (i : Nat) : Dev := if ok.getD i true then d else setState d (pCtl i) .failed

/-- Steps 2 to 5, up to the wait for an image; a start that cannot go on stops with PHASE FAILED (R421). -/
def bringUp (d : Dev) (warm reset : Bool) (x : BringFacts) : Dev :=
  let d := setPhase (modBup d fun b => { b with warm := warm, facts := some x, reached := false }) 1
  let d := wrF d pBup Reg.BUP_STATUS 4 4 (b2n warm)
  if !x.fuseReadOk then bringFailed d
  else
    let lost := x.journalBad.eraseDups
    let d := lost.foldl journalLost (modJournal d fun j => { j with bad := !lost.isEmpty })
    let d := bupEvents d 9 lost.length
    let d := drawFree (wrN (wrN d pBup Reg.BUP_JOURNAL_SEQ d.bup.journal.seq) pBup Reg.BUP_JOURNAL (Config.freeValue d.freeSeq 0 % 127))
    let ok := if warm then [true, true] else x.complexOk
    let d := [0, 1].foldl (fun d i => bootRom d ok i) (setPhase d 2)
    let d := wrN d pDev Reg.BOL_PLACE (x.place.toNat / 8192 * 8192)
    if !ok.getD 0 true && !ok.getD 1 true then bringFailed d
    else
      let d := setPhase d 3
      let d := if warm then d else selfTested d x
      let d := linksUp d x warm
      if (stacksOf d.fuses).all (fun s => failsNow warm x.stackFails s)
          || (failsNow warm x.hxvFails 0 && failsNow warm x.hxvFails 1 && !x.parentAlive) then bringFailed d
      else
        let d := unitsUp (mapUnits (setPhase d 4)) reset
        let d := [0, 1].foldl (fun d i => complexFailed d ok i) (if warm then d else blocksTested d x)
        setPhase (trainingSaved d x warm) 5

/-- POWER_ON_RESET_RELEASE: time 0 of the cold path; the device enables its first rails (R420, R495). -/
def resetReleased (d : Dev) : Dev :=
  if d.powered then d
  else
    let b := volatileGone d false
    hltSync { b with powered := true, pins := { Pins.off with resetReleased := true, railEn := 1 } }

/-- A group's rails are in tolerance: the next group is enabled; after the last one the domains come on and steps 2 to 5 run. -/
def railGood (d : Dev) (k : Nat) (late : Bool) (x : BringFacts) : Dev :=
  if !d.powered || phase d != 0 || !bitAt d.pins.railEn.toNat k || bitAt d.pins.railPg.toNat k then d
  else
    let pg := d.pins.railPg ||| BitVec.ofNat 6 (2 ^ k)
    let d := bupEvents { d with pins := { d.pins with railPg := pg } } 10 (b2n late)
    if k < 5 then { d with pins := { d.pins with railEn := d.pins.railEn ||| BitVec.ofNat 6 (2 ^ (k + 1)) } }
    else bringUp (domainsUp d) false false x

/-- A step runs past its latest end (R421); a rail group that never comes up stops the device (R495). -/
def stepLate (d : Dev) (step : Nat) (fatal : Bool) : Dev :=
  if !pathRuns d then d
  else if fatal ∧ step = 1 ∧ phase d = 0 then bringFailed d
  else bupEvents d 10 1

/-- What a device reset leaves of the registers: every GENERATION, and the values that take effect with it (R260, R304, R419)
(log entry 50, DEDUCED). -/
def resetRegs (d b : Dev) : Dev :=
  let b := (d.regs.filter fun e => e.1 % 4096 == Reg.UNIT_STATE).foldl (fun b e =>
    wrF b (e.1 / 4096) Reg.UNIT_STATE 15 8 (fld e.2 15 8)) b
  let b := [(pDev, Reg.BOL_POD_SHAPE), (pBup, Reg.BUP_BOOT_CFG)].foldl (fun b r => wr b r.1 r.2 (rd d r.1 r.2)) b
  let b := { b with fab := { b.fab with racks := rdF d pDev Reg.BOL_POD_SHAPE 4 0 } }
  (List.range 4).foldl (fun b p =>
    let b := wr b (pCxl p) Reg.CXL_CACHE (rd d (pCxl p) Reg.CXL_CACHE)
    { b with tier := { b.tier with cache := smPutD 4 b.tier.cache p (rdF d (pCxl p) Reg.CXL_CACHE 5 0) } }) b

/-- A device reset: everything goes but the configuration store, the package stays powered, a running repair is aborted, and the
warm or the cold path begins (R419, R436, R444). -/
def deviceReset (d : Dev) (x : BringFacts) : Dev :=
  if !d.powered || d.pins.railPg.toNat != 63 then d
  else
    let warm := !coldStart d
    let b := volatileGone d true
    let b := resetRegs d { b with powered := true, pins := { d.pins with ibi := false }, hall := 0 }
    let b := (List.range 80).foldl (fun b n => if domOn d n then markDom b n true else b) b
    let b := match d.bup.repair with
      | some r => wrN b pBup Reg.BUP_REPAIR_STATUS (r.seq + 256 * 6 + 4096)
      | none => b
    let b := setState b pDev .resetting
    bringUp (domainsUp b) warm true x

/-! ## The firmware image (R395, R396, R473, R481) -/

/-- The component table of an image: the digest of a component's code (R478). -/
def componentDigest (chunk0 : List Byte) (n : Nat) : List Byte := sliceBytes chunk0 (48 * n + 16) 32

/-- The bytes that a manifest's digest and its signature cover: header and data chunk digests. -/
def manifestBody (l : List Byte) : List Byte := l.take (64 + 32 * leAt l 0x0C 4)

/-- Every port that carries traffic authenticates again once an alias key exists (R485). -/
def rekeyAll (d : Dev) : Dev :=
  let up := ((List.range 32).filter fun i => let s := bolState d i; s == 3 || s == 4 || s == 7) ++ ([0, 1].filter (hxvUp d)).map (32 + ·)
  up.foldl (fun d k => modAuth d k fun a => { a with running := true, rekey := true, step := 0 }) d

/-- A verified image starts in a complex whose boot ROM waits: measurements, components, alias key and role. -/
def startComplex (d : Dev) (m : Manifest) (body chunk0 : List Byte) (i : Nat) : Dev :=
  if rdF d (pCtl i) Reg.CTL_CX_STATUS 1 0 ≠ 1 then d
  else
    let dig := sha256 body
    let role := if (activeCpx d).isNone then 2 else 3
    let d := appendLog d i 2 0 0xFFFF (m.svn % 65536 + 65536 * (m.keyIndex % 256)) dig
    let d := (List.range 5).foldl (fun d n => appendLog d i 3 n 0xFFFF 0 (componentDigest chunk0 n)) d
    let d := appendLog d i 7 role 0xFFFF 0 []
    let comps := (List.range 5).map fun n => (n, componentDigest chunk0 n)
    let vs := (List.range 5).map fun n => (n, Config.freeValue d.freeSeq n % 2 ^ 32)
    let d := drawFree { d with cpx := smPut d.cpx i ⟨[], vs, dig, m.fwNumeric, m.timing, m.svn, comps, []⟩ }
    let d := wrN (wrF d (pSec i) Reg.SEC_STATUS 1 1 1) (pCtl i) Reg.CTL_CX_STATUS (role + 0x1F00)
    if role = 2 then rekeyAll (wrN d pDev Reg.CTL_CAP_TIMING (m.timing % 65536 + 65536 * (m.fwNumeric % 65536))) else d

/-- READY: hall time follows a reference, LOCKED or in HOLDOVER, in step 7 (R420, R423, R456) (log entry 57, DESIGN CHOICE)
(log entry 95, DESIGN CHOICE). -/
def becomeReady (d : Dev) : Dev :=
  let t := rdF d pTim Reg.TIM_STATUS 2 0
  if phase d = 6 ∧ (t = 1 ∨ t = 2) then
    let reset := stateIs d pDev .resetting
    let d := modBup (wrF d pBup Reg.BUP_BOOT_CFG 0 0 0) fun b => { b with reached := true }
    let d := drawFree (wrN d pBup Reg.BUP_READY_US (Config.freeValue d.freeSeq 0 % 2 ^ 32))
    setState (setPhase (if reset then nextGen d pDev else d) 7) pDev .ready
  else d

/-- A verified firmware image starts the components of every complex that waits for one; at bring-up step 7 follows. -/
def startFirmware (d : Dev) (m : Manifest) (body chunk0 : List Byte) : Dev :=
  let d := [0, 1].foldl (fun d i => startComplex d m body chunk0 i) d
  if phase d = 5 then
    let d := drawFree (wrN d pBup Reg.BUP_WAIT_IMAGE_US (Config.freeValue d.freeSeq 0 % 2 ^ 32))
    let d := setPhase d 6
    becomeReady (match d.bup.facts with
      | some x => poolsUp d x
      | none => d)
  else d

/-! ## The meanings -/

/-- POWER_ON_RESET_RELEASE (R420, R495). The propolis table is the one after reset (R490). -/
def execPowerOnResetRelease (s : State) : Host.Outcome State Fault Refusal :=
  .next { s with prop := if s.dev.powered then s.prop else Propolis.reset, dev := resetReleased s.dev }

/-- RAIL_PG (R420, R421, R495). -/
def execRailPg (group : Fin 6) (late : Bool) (x : BringFacts) (s : State) : Host.Outcome State Fault Refusal :=
  onDev s fun d => railGood d group.val late x

/-- BRINGUP_STEP_TIMEOUT (R421, R495). -/
def execBringupStepTimeout (step : Fin 9) (fatal : Bool) (s : State) : Host.Outcome State Fault Refusal :=
  onDev s fun d => stepLate d step.val fatal

/-- DEVICE_RESET (R419, R423, R436). -/
def execDeviceReset (x : BringFacts) (s : State) : Host.Outcome State Fault Refusal :=
  let acts := s.dev.powered && s.dev.pins.railPg.toNat == 63
  .next { s with prop := if acts then Propolis.reset else s.prop, dev := deviceReset s.dev x }

/-- POWER_LOSS (R496): every domain and every rail goes off. -/
def execPowerLoss (s : State) : Host.Outcome State Fault Refusal :=
  .next { s with prop := Propolis.reset, dev := powerDown s.dev }

end Sys2Proof.Machine
end

