-- ==== Sys2Proof/Machine/Auth.lean ====
section
/-! DEFINITION. Attestation reports (19 R483, R484), and the authentication and key changes of links (19 R485 to R489, 12 R328). -/

namespace Sys2Proof.Machine

/-! ## What a report says of a context and of the part -/

/-- The code of a context's state (Table 15-2). -/
def CtxState.code : CtxState → Nat
  | .free => 0 | .open => 1 | .loaded => 2 | .ready => 3 | .running => 4 | .idle => 5 | .halted => 6

/-- The code of a grade (Table 02-14). -/
def Grade.code : Grade → Nat
  | .m768 => 1 | .m576 => 2 | .m768t => 3 | .m224 => 4

/-- CTL_CAP_GRADE. -/
def capGrade (f : Fuses) : Nat := f.grade.code + 256 * (f.stepping % 256)

/-- SEC_SVN: SVN_MIN and the SVN of the running firmware. -/
def secSvn (d : Dev) : Nat := d.fuses.svnMin % 65536 + 65536 * (runningSvn d % 65536)

/-- DEVICE_ID as bytes. -/
def idBytes (id : BitVec 256) : List Byte := beBytes 32 id.toNat

/-- Bytes of a run of 32-bit registers. -/
def regBytes (d : Dev) (u off n : Nat) : List Byte := (List.range n).flatMap fun i => leBytes 4 (rdN d u (off + 4 * i))

/-! ## Attestation reports -/

/-- No report. -/
def Att.init : Att := ⟨false, 0, [], none, []⟩

/-- The report of a SEC instance. -/
def attOf (d : Dev) (i : Nat) : Att := smGetD Att.init d.sec.att i

/-- Changes the report of a SEC instance. -/
def modAtt (d : Dev) (i : Nat) (g : Att → Att) : Dev := { d with sec := { d.sec with att := smModD Att.init d.sec.att i g } }

/-- A report request is refused: 1 BUSY, 2 PERMISSION. -/
def attRefused (d : Dev) (i res : Nat) : Dev :=
  event (wrF d (pSec i) Reg.SEC_ATT_STATUS 3 2 res) (pSec i) Reg.SEC_EVENTS 5 Reg.SEC_EVT_ATT_REFUSED

/-- A write to SEC_ATT_CTL (R483): READ on the page is needed, and one report is built at a time (log entry 84, DEDUCED). -/
def attRequest (d : Dev) (pr : Propolis) (i : Nat) (r : Requester) (scope : Nat) : Dev :=
  if !(reqKind r == 0 || granted pr r .read (pSec i)) then attRefused d i 2
  else if (attOf d i).busy then attRefused d i 1
  else
    let nonce := regBytes d (pSec i) Reg.SEC_ATT_NONCE 8
    wrN (modAtt d i fun a => { a with busy := true, scope := scope % 65536, nonce := nonce, body := none }) (pSec i) Reg.SEC_ATT_STATUS 1

/-- The open contexts of the partitions in scope, in ascending number. -/
def attCtxs (d : Dev) (scope : Nat) : List Nat :=
  (List.range 256).filter fun c => let x := ctxOf d c; decide (x.state ≠ .free) && bitAt scope x.part

/-- A context entry of a report: 64 bytes. -/
def attCtx (d : Dev) (c : Nat) : List Byte :=
  let x := ctxOf d c
  let job := (x.image.map Image.jobId).getD 0
  let dig := (x.image.map Image.digest).getD []
  leBytes 1 c ++ leBytes 1 x.part ++ leBytes 1 x.state.code ++ [0] ++ leBytes 4 x.slice ++ leBytes 16 job ++ sliceBytes dig 0 32 ++ leBytes 8 0

/-- Bytes of the certificates and the signature of a report. -/
def attTail : Nat := 16352 + 17216 + 17088

/-- A report up to its certificates (Table 19-6), as a grid point leaves the state; `cx` is the active complex. -/
def attBody (d : Dev) (pr : Propolis) (cx : Nat) (a : Att) : List Byte :=
  let cs := attCtxs d a.scope
  let l := logOf d cx
  leBytes 4 0x52545441 ++ leBytes 2 1 ++ leBytes 2 cs.length ++ leBytes 4 (0xE0 + 64 * cs.length + attTail) ++ leBytes 2 a.scope ++ leBytes 2 0
    ++ sliceBytes a.nonce 0 32 ++ leBytes 8 d.hall ++ leBytes 4 (rdN d pDev Reg.BOL_PLACE) ++ leBytes 4 (capGrade d.fuses)
    ++ idBytes d.fuses.deviceId ++ sliceBytes l.accum 0 32 ++ sliceBytes l.fold 0 32 ++ leBytes 4 l.first ++ leBytes 4 (l.next - 1)
    ++ leBytes 4 (secSvn d) ++ leBytes 4 (rdN d pDev Reg.CTL_CAP_TIMING) ++ sliceBytes (tableDigest d pr) 0 32 ++ leBytes 1 cx ++ leBytes 15 0
    ++ cs.flatMap (attCtx d)

/-- A grid point captures every report that waits for one; without an active complex there is no alias key to sign with, and the
report goes on waiting. -/
def attCapture (d : Dev) (pr : Propolis) : Dev :=
  match activeCpx d with
  | none => d
  | some cx => [0, 1].foldl (fun d i =>
      let a := attOf d i
      if a.busy && a.body.isNone then modAtt d i fun q => { q with body := some (attBody d pr cx a) } else d) d

/-- A certificate body (Table 19-3). -/
def certBytes (kind param index serial : Nat) (id key binding : List Byte) : List Byte :=
  leBytes 4 0x54524543 ++ leBytes 1 kind ++ leBytes 1 param ++ leBytes 1 index ++ leBytes 1 0 ++ leBytes 8 serial ++ sliceBytes id 0 32
    ++ sliceBytes key 0 32 ++ sliceBytes binding 0 32 ++ leBytes 16 0

/-- The device's identity certificate, which its factory record holds (R476). -/
def idCertificate (f : Fuses) : List Byte :=
  let id := f.deviceId
  let body := certBytes 0 1 (Config.certFact id 0 % 4) (Config.certFact id 1) (idBytes id) ((List.range 32).map (Config.idKey id)) []
  body ++ (List.range 16224).map (Config.rootSign id body)

/-- The alias certificate of a complex by the manifest digest of its firmware, signed by the identity key (R473, R476). -/
def aliasCertificate (f : Fuses) (dig : List Byte) : List Byte :=
  let id := f.deviceId
  let key := (List.range 32).map (Config.aliasKey id dig)
  let body := certBytes 1 0 0xFF (Config.certFact id 2) (sha256 key) key dig
  body ++ (List.range 17088).map (Config.idSign id body)

/-- The certificates and the signature of a report, under the alias key of the complex that it names. -/
def attSigned (d : Dev) (body : List Byte) : List Byte :=
  let dig := ((smGet d.cpx (leAt body 0xD0 1)).map Cpx.digest).getD []
  let all := body ++ idCertificate d.fuses ++ aliasCertificate d.fuses dig
  all ++ (List.range 17088).map (Config.aliasSign d.fuses.deviceId dig all)

/-- A captured report is signed and can be read (R483). -/
def attReady (d : Dev) (i : Nat) : Dev :=
  match (attOf d i).body with
  | none => d
  | some b =>
    let l := attSigned d b
    let d := modAtt d i fun a => { a with busy := false, body := none, report := l }
    let d := wrN (wrF (wrF d (pSec i) Reg.SEC_ATT_STATUS 0 0 0) (pSec i) Reg.SEC_ATT_STATUS 1 1 1) (pSec i) Reg.SEC_ATT_SIZE l.length
    bump d (pSec i) Reg.SEC_REPORTS 1

/-! ## Certificates (R476, R477) -/

/-- Bytes as a big-endian number. -/
def beAt (l : List Byte) (off n : Nat) : Nat := (sliceBytes l off n).foldl (fun v b => v * 256 + b.toNat) 0

/-- The fields of a certificate body that do not depend on its kind (Table 19-3). -/
def certBody (l : List Byte) (kind param : Nat) : Bool :=
  leAt l 0 4 == 0x54524543 && leAt l 4 1 == kind && leAt l 5 1 == param && zeroBytes l 7 1 && zeroBytes l 0x70 16
    && sliceBytes l 0x10 32 == sha256 (sliceBytes l 0x30 32)

/-- SUBJECT_KEY of a certificate. -/
def certKey (l : List Byte) : Nat := beAt l 0x30 32

/-- Does an identity certificate verify under a root that is not revoked? -/
def idCertOk (f : Fuses) (kind : Nat) (l : List Byte) : Bool :=
  let root := leAt l 6 1
  l.length == 16352 && certBody l kind 1 && decide (root < 4) && zeroBytes l 0x50 32 && !bitAt f.revokedRoots.toNat root
    && Config.slhVerify (Config.rootKey root) (l.take 128) (l.drop 128)

/-- Does an alias certificate verify under an identity key? -/
def aliasCertOk (key : Nat) (l : List Byte) : Bool :=
  l.length == 17216 && certBody l 1 0 && leAt l 6 1 == 0xFF && Config.slhVerify128 key (l.take 128) (l.drop 128)

/-- Does a partner's chain verify: a device's, or on a Hexvan port an adapter's, which has no alias certificate? -/
def chainOk (f : Fuses) (hxv : Bool) (x : Hello) : Bool :=
  if hxv && leAt x.idCert 4 1 == 2 then idCertOk f 2 x.idCert && x.aliasCert.isEmpty
  else idCertOk f 0 x.idCert && (x.aliasCert.isEmpty || aliasCertOk (certKey x.idCert) x.aliasCert)

/-! ## Link authentication (R485 to R487) -/

/-- The number of a port in the authentication state; Ethernet ports are not authenticated (R489). -/
def authKey : LinkPort → Option Nat
  | .bol i => some i.val
  | .hxv i => some (32 + i.val)
  | .eth _ => none

/-- Does a port carry traffic: UP, DEGRADED or LOCKSTEP? -/
def carries (d : Dev) (k : Nat) : Bool :=
  if k < 32 then d.fuses.bol k && (let s := bolState d k; s == 3 || s == 4 || s == 7) else hxvUp d (k - 32)

/-- Is an exchange open at a port: its first one, in AUTHENTICATING, or one that runs beside its traffic? -/
def exchanging (d : Dev) (k : Nat) : Bool :=
  (decide (k < 32) && d.fuses.bol k && bolState d k == 2) || ((authOf d k).running && (authOf d k).rekey && carries d k)

/-- A port retrains. -/
def retrainPort (d : Dev) (k : Nat) : Dev := if k < 32 then bolRetrain d k else hxvRetrain d (k - 32)

/-- An exchange fails: AUTH_FAIL in the port's page, PARTNER_REFUSED, and SIG_FAIL for a certificate. A first exchange leaves the
port DOWN, one that ran beside traffic makes it retrain. -/
def authFailed (d : Dev) (k : Nat) (cert : Bool) : Dev :=
  let again := (authOf d k).rekey && carries d k
  let d := [0, 1].foldl (fun d s =>
    let d := event d (pSec s) Reg.SEC_EVENTS 2 Reg.SEC_EVT_PARTNER_REFUSED
    if cert then event d (pSec s) Reg.SEC_EVENTS 0 Reg.SEC_EVT_SIG_FAIL else d) d
  let d := authReset d k
  let d := if k < 32 then event d (pBol k) Reg.BOL_PORT_EVENTS 5 Reg.BOL_EVT_AUTH_FAIL
    else event d (pHxv (k - 32)) Reg.HXV_EVENTS 4 Reg.HXV_EVT_AUTH_FAIL
  if again then retrainPort d k else if k < 32 then bolDown d k else hxvDown d (k - 32)

/-- The bytes of a HELLO. -/
def helloBytes (x : Hello) : List Byte :=
  leBytes 4 x.place.toNat ++ beBytes 32 x.nonce.toNat ++ x.idCert ++ x.aliasCert ++ x.kemKey

/-- Bytes of the device's own that are fresh in each exchange: free, by the number of the draw. -/
def freshBytes (d : Dev) (off n : Nat) : List Byte := (List.range n).map fun i => Config.freeByte d.freeSeq (off + i)

/-- The device's own HELLO: with the alias certificate once the active complex has an alias key; nonce and encapsulation key are fresh
(R485). -/
def ownHello (d : Dev) : List Byte :=
  let alias_ := match (activeCpx d).bind (smGet d.cpx) with
    | some x => aliasCertificate d.fuses x.digest
    | none => []
  leBytes 4 (rdN d pDev Reg.BOL_PLACE) ++ freshBytes d 0 32 ++ idCertificate d.fuses ++ alias_ ++ freshBytes d 32 1184

/-- Has the device the lower DEVICE_ID of the two ends? -/
def ownLow (d : Dev) (a : AuthSt) : Bool := decide (d.fuses.deviceId.toNat < a.partner.toNat)

/-- The transcript T of an exchange (R485). -/
def transcript (d : Dev) (a : AuthSt) : List Byte :=
  sha256 (if ownLow d a then a.mine ++ a.hello ++ a.myCt ++ a.ct else a.hello ++ a.mine ++ a.ct ++ a.myCt)

/-- The key and the IV salt of a sending direction, from the two shared secrets and T (R485). -/
def linkKey (secrets t sender : List Byte) : List Byte := hkdf256 t secrets (ascii "FDX link" ++ sender) 36

/-- Step 1 of Table 19-7: the chain, the revocation list, and two different DEVICE_IDs (log entry 83, DEDUCED). -/
def authHello (d : Dev) (pr : Propolis) (k : Nat) (x : Hello) : Dev :=
  let id := beAt x.idCert 0x10 32
  if !exchanging d k || (authOf d k).step != 0 then d
  else if !chainOk d.fuses (decide (32 ≤ k)) x then authFailed d k true
  else if pr.revoked.any (fun e => e.2.toNat == id) || id == d.fuses.deviceId.toNat || x.kemKey.length != 1184 then authFailed d k false
  else drawFree (modAuth d k fun a => { a with
    running := true
    step := 1
    partner := BitVec.ofNat 256 id
    key := certKey (if x.aliasCert.isEmpty then x.idCert else x.aliasCert)
    hello := helloBytes x
    mine := ownHello d })

/-- Step 2: the ciphertext is decapsulated. -/
def authKem (d : Dev) (k : Nat) (ct : List Byte) : Dev :=
  if !exchanging d k || (authOf d k).step != 1 then d
  else if ct.length != 1088 then authFailed d k false
  else drawFree (modAuth d k fun a => { a with step := 2, ct := ct, myCt := freshBytes d 0 1088 })

/-- The mode of a port's kind in SEC_LINK_POLICY. -/
def ownMode (d : Dev) (k : Nat) : Nat := if k < 32 then rdF d (pSec 0) Reg.SEC_LINK_POLICY 1 0 else rdF d (pSec 0) Reg.SEC_LINK_POLICY 3 2

/-- New keys are in force: those of the exchange, the stricter of the two ends' modes, and the next key phase when traffic ran on. The
partner's mode and the two shared secrets, 64 bytes, are free. -/
def newKeys (d : Dev) (k : Nat) (again : Bool) : Dev :=
  let mode := max (ownMode d k) (Config.freeValue d.freeSeq 0 % 3)
  let t := transcript d (authOf d k)
  drawFree (modAuth d k fun a => { a with
    running := false
    rekey := false
    step := 0
    mode := mode
    phase := if again then 1 - a.phase else 0
    tx := linkKey (freshBytes d 0 64) t (idBytes d.fuses.deviceId)
    rx := linkKey (freshBytes d 0 64) t (idBytes a.partner) })

/-- An authenticated Bollum port enters service: UP or DEGRADED, or as the role of a spare port says (R329). -/
def bolService (d : Dev) (i : Nat) : Dev :=
  let s := if rdF d (pBol i) Reg.BOL_PORT_STATUS 5 3 = 3 then 4 else 3
  setBol d i (if i < 30 then s else match spareRole d i with
    | 1 => s
    | 2 => 7
    | _ => 6)

/-- Step 3: the signature of "FDX finish" and T verifies under the key of the partner's last certificate. -/
def authFinish (d : Dev) (k : Nat) (sig : List Byte) : Dev :=
  let a := authOf d k
  if !exchanging d k || a.step != 2 then d
  else if sig.length != 17088 || !Config.slhVerify128 a.key (ascii "FDX finish" ++ transcript d a) sig then authFailed d k false
  else
    let again := a.rekey && carries d k
    let d := newKeys d k again
    if again then d else bolService d k

/-- An exchange that has not completed within 50 ms fails. -/
def authTimeout (d : Dev) (k : Nat) : Dev := if exchanging d k then authFailed d k false else d

/-- The keys of a port change: steps 2 and 3 of Table 19-7 run again with fresh ciphertexts of both ends; a change that does not complete
within 50 ms makes the port retrain (R488). -/
def keyChange (d : Dev) (k : Nat) (completed : Bool) : Dev :=
  if !carries d k then d
  else if completed then
    newKeys (drawFree (modAuth d k fun a => { a with ct := freshBytes d 0 1088, myCt := freshBytes d 1088 1088 })) k true
  else retrainPort d k

/-- A message or time of a port's authentication. -/
def atPort (d : Dev) (p : LinkPort) (g : Dev → Nat → Dev) : Dev :=
  match authKey p with
  | some k => g d k
  | none => d

/-! ## The meanings -/

/-- LOG_FOLD (R482). -/
def execLogFold (i : Fin 2) (s : State) : Host.Outcome State Fault Refusal := onDev s fun d => foldLog d i.val

/-- ATTESTATION_REQUEST: a write to SEC_ATT_CTL (R483). -/
def execAttestationRequest (i : Fin 2) (requester : Requester) (scope : BitVec 16) (s : State) : Host.Outcome State Fault Refusal :=
  onDevP s fun pr d => gated pr d requester (pSec i.val) Reg.SEC_ATT_CTL fun d => attRequest d pr i.val requester scope.toNat

/-- ATTESTATION_REPORT_READY (R483, R484). -/
def execAttestationReportReady (i : Fin 2) (s : State) : Host.Outcome State Fault Refusal := onDev s fun d => attReady d i.val

/-- AUTH_HELLO (R485). -/
def execAuthHello (port : LinkPort) (x : Hello) (s : State) : Host.Outcome State Fault Refusal :=
  onDevP s fun pr d => atPort d port fun d k => authHello d pr k x

/-- AUTH_KEM (R485). -/
def execAuthKem (port : LinkPort) (ciphertext : List Byte) (s : State) : Host.Outcome State Fault Refusal :=
  onDev s fun d => atPort d port fun d k => authKem d k ciphertext

/-- AUTH_FINISH (R485, R486, R328). -/
def execAuthFinish (port : LinkPort) (signature : List Byte) (s : State) : Host.Outcome State Fault Refusal :=
  onDev s fun d => atPort d port fun d k => authFinish d k signature

/-- AUTH_TIMEOUT (R485). -/
def execAuthTimeout (port : LinkPort) (s : State) : Host.Outcome State Fault Refusal := onDev s fun d => atPort d port authTimeout

/-- KEY_CHANGE (R488). -/
def execKeyChange (port : LinkPort) (completed : Bool) (s : State) : Host.Outcome State Fault Refusal :=
  onDev s fun d => atPort d port fun d k => keyChange d k completed

end Sys2Proof.Machine
end

