-- ==== Sys2Proof/Machine/Broadcast.lean ====
section
/-! DEFINITION. Image broadcast (17 R429 to R435), signed manifests (19 R478, R480), and image pulls over Hexvan (16 R415). -/

namespace Sys2Proof.Machine

/-! ## The descriptor (R429) -/

/-- Bytes of a chunk (R430). -/
abbrev chunkBytes : Nat := 65536

/-- The entry of a node. -/
def nodeEntry (x : BcastDesc) (n : Nat) : Option BcastNode := x.nodes.find? fun e => e.node == n

/-- The children of a node, in ascending node number (R432). -/
def childrenOf (x : BcastDesc) (n : Nat) : List Nat :=
  sortBy (fun a b => decide (a < b)) ((x.nodes.filter fun e => e.parent == n && !e.root && e.node != n).map BcastNode.node)

/-- Does a node lie at most `k` parent links above another? -/
def isAbove (x : BcastDesc) (top : Nat) : Nat → Nat → Bool
  | 0, n => n == top
  | k + 1, n => n == top || (match nodeEntry x n with
    | some e => !e.root && isAbove x top k e.parent
    | none => false)

/-- The root's checks: one root, parents in the table, a tree of depth at most 16, at most 32 children, alternate parents. -/
def treeOk (x : BcastDesc) : Bool :=
  match x.nodes.filter BcastNode.root with
  | [r] => x.nodes.all fun e =>
      (nodeEntry x e.parent).isSome && isAbove x r.node 16 e.node && decide ((childrenOf x e.node).length ≤ 32)
        && (e.noAlt || (e.alt != e.parent && (e.alt == e.node || !isAbove x e.node x.nodes.length e.alt)))
  | _ => false

/-- A node entry as the descriptor holds it. -/
def nodeBytes (e : BcastNode) : List Byte :=
  leBytes 8 (e.node + 2 ^ 11 * e.parent + 2 ^ 22 * e.alt + 2 ^ 33 * b2n e.root + 2 ^ 34 * b2n e.noAlt)

/-- The descriptor as bytes (Table 17-5). -/
def descBytes (x : BcastDesc) : List Byte :=
  let ns := x.nodes.flatMap nodeBytes
  leBytes 4 x.magic.toNat ++ leBytes 2 x.bcastId ++ leBytes 1 x.kind.val ++ leBytes 1 x.context.val ++ leBytes 8 x.imageSize
    ++ leBytes 4 x.chunkCount ++ leBytes 2 x.nodes.length ++ leBytes 2 x.manifestChunks ++ sha256 ns ++ leBytes 8 0 ++ ns

/-! ## The session -/

/-- Changes the session. -/
def modBcast (d : Dev) (g : Bcast → Bcast) : Dev := modBup d fun b => { b with bcast := b.bcast.map g }

/-- BUP_BCAST_STATUS without REATTACHED and PULLING. -/
def bcastStatus (d : Dev) (bit : Nat) (on : Bool) : Dev := wrF d pBup Reg.BUP_BCAST_STATUS bit bit (b2n on)

/-- Sends a broadcast packet: node, OP of Table 17-6, chunk number and payload. A DATA entry stands for its 128 packets. -/
def bcastSend (d : Dev) (node op chunk : Nat) (payload : List Byte) : Dev :=
  modBup d fun b => { b with sent := b.sent ++ [(node, op, chunk, payload)] }

/-- Is every chunk held and verified? -/
def allHeld (b : Bcast) : Bool := b.manifest.isSome && (List.range b.desc.chunkCount).all fun n => (smGet b.held n).isSome

/-- May a chunk be taken now: a manifest chunk, or a data chunk once the manifest is verified (R430)? -/
def takeable (b : Bcast) (n : Nat) : Bool :=
  decide (n < b.desc.chunkCount) && (decide (n < b.desc.manifestChunks) || b.manifest.isSome)

/-- Is a chunk held and verified? -/
def heldChunk (b : Bcast) (n : Nat) : Bool := b.manifest.isSome && (smGet b.held n).isSome

/-- The chunks that are missing, in ascending number. -/
def missingChunks (b : Bcast) : List Nat := (List.range b.desc.chunkCount).filter fun n => (smGet b.held n).isNone

/-- Ranges as a payload, 60 to a packet (Table 17-6). -/
def rangePackets : Nat → List (Nat × Nat) → List (List Byte)
  | 0, _ => []
  | _, [] => []
  | k + 1, rs => ((rs.take 60).flatMap fun r => leBytes 4 r.1 ++ leBytes 4 r.2) :: rangePackets k (rs.drop 60)

/-- REQUEST or ATTACH for ranges. -/
def askFor (d : Dev) (node op : Nat) (chunks : List Nat) : Dev :=
  let rs := sectorRuns chunks
  (rangePackets rs.length rs).foldl (fun d p => bcastSend d node op 0 p) d

/-- A chunk goes to a node. -/
def sendChunk (d : Dev) (b : Bcast) (node n : Nat) : Dev := bcastSend d node 0 n ((smGet b.held n).getD [])

/-- A new chunk goes to the nodes that asked for it, in ascending node order, and their requests for it are served (R432). -/
def serveAsked (d : Dev) (n : Nat) : Dev :=
  match d.bup.bcast with
  | none => d
  | some b =>
    let wants := fun (q : Nat × List (Nat × Nat)) => q.2.any fun r => decide (r.1 ≤ n) && decide (n < r.1 + r.2)
    let me := (nodeEntry b.desc (myNode d)).map fun e => childrenOf b.desc e.node
    let kids := me.getD []
    let to_ := sortBy (fun x y => decide (x < y)) ((b.asked.filter fun q => wants q && !(kids.contains q.1 && decide (b.next ≤ n))).map Prod.fst).eraseDups
    to_.foldl (fun d k => sendChunk d b k n) d

/-- Chunks leave for the children in ascending number, each to the children in ascending order (R432). -/
def forward (d : Dev) : Dev :=
  match d.bup.bcast with
  | none => d
  | some b =>
    let run := (((List.range (b.desc.chunkCount - b.next)).map (b.next + ·)).takeWhile (heldChunk b))
    let kids := childrenOf b.desc (myNode d)
    let d := run.foldl (fun d n => kids.foldl (fun d k => sendChunk d b k n) d) d
    modBcast d fun b => { b with next := b.next + run.length }

/-- The session ends: its pulls end with it. -/
def dropSession (d : Dev) : Dev :=
  let d := [0, 1].foldl (fun d i => modHxv d i fun q => { q with pulls := [] }) d
  bcastStatus (bcastStatus (modBup d fun b => { b with bcast := none }) 16 false) 19 false

/-! ## Pulls over Hexvan (R415, R434) -/

/-- The node's own usable Hexvan port. -/
def pullPort (d : Dev) : Option Nat := [0, 1].find? (hxvUp d)

/-- IMAGE_PULL for a chunk; `fails` counts its failed checks. -/
def pullChunk (d : Dev) (i id n fails : Nat) : Dev :=
  let r := (hxvOf d i).nextReq
  let d := modHxv d i fun q => { q with nextReq := (r + 1) % 2 ^ 32, pulls := q.pulls ++ [⟨r, n, fails, d.hall, []⟩] }
  hxvSend d i (hxvPkt 10 false r id 0 0 n [])

/-- Pulls what is missing, with at most 4 chunks outstanding. -/
def pullMore (d : Dev) : Dev :=
  match d.bup.bcast, pullPort d with
  | some b, some i =>
    let busy := ((hxvOf d 0).pulls ++ (hxvOf d 1).pulls).map ImagePull.chunk
    if !b.pulling then d
    else (((missingChunks b).filter fun n => takeable b n && !busy.contains n).take (4 - busy.length)).foldl (fun d n =>
      pullChunk d i b.desc.bcastId n 0) d
  | _, _ => d

/-- The node pulls every chunk it lacks; without a usable port it keeps what it holds and waits for its next try (R434). -/
def startPull (d : Dev) : Dev :=
  let d := modBcast d fun b => { b with waiting := false, timer := false }
  match pullPort d with
  | some _ => pullMore (bcastStatus (bupEvents (modBcast d fun b => { b with pulling := true }) 6 1) 19 true)
  | none => d

/-! ## The manifest (R430, R478, R480) -/

/-- Reads a manifest from its chunks (Table 19-4). -/
def readManifest (l : List Byte) : Option Manifest :=
  let n := leAt l 0x0C 4
  let k := leAt l 4 1
  if h : k < 2 then
    some { magic := BitVec.ofNat 32 (leAt l 0 4), kind := ⟨k, h⟩, keyIndex := leAt l 5 1, svn := leAt l 6 2, fwNumeric := leAt l 8 2,
           timing := leAt l 0x0A 2, dataChunks := n, imageSize := leAt l 0x10 8
           digests := (List.range n).map fun i => BitVec.ofNat 256 (leAt l (64 + 32 * i) 32)
           signature := sliceBytes l (64 + 32 * n) 16224 }
  else none

/-- Does a manifest verify, but for its data chunks? `body` is what the signature covers. -/
def manifestOk (d : Dev) (pr : Propolis) (x : BcastDesc) (m : Manifest) (body : List Byte) : Bool :=
  decide (m.magic = 0x53464D49#32) && decide (m.kind = x.kind) && decide (m.dataChunks + x.manifestChunks = x.chunkCount)
    && decide (64 + 32 * m.dataChunks + 16224 ≤ x.manifestChunks * chunkBytes)
    && (if m.kind = 0 then
      decide (m.keyIndex < 4) && !bitAt d.fuses.revokedRoots.toNat m.keyIndex && decide (d.fuses.svnMin ≤ m.svn)
        && Config.slhVerify (Config.rootKey m.keyIndex) body m.signature
    else if m.keyIndex = 0xFF then !rdB d (pSec 0) Reg.SEC_POLICY 0 && m.signature.all (· == 0)
    else decide (m.keyIndex < 8) && decide (smGetD 0 pr.keys m.keyIndex ≠ 0)
      && Config.slhVerify (smGetD 0 pr.keys m.keyIndex).toNat body m.signature)

/-- SIG_FAIL in both SEC pages. -/
def sigFail (d : Dev) : Dev := [0, 1].foldl (fun d i => event d (pSec i) Reg.SEC_EVENTS 0 Reg.SEC_EVT_SIG_FAIL) d

/-- The manifest chunks of a session as bytes. -/
def manifestBytes (b : Bcast) : List Byte := (List.range b.desc.manifestChunks).flatMap fun n => (smGet b.held n).getD []

/-- With every manifest chunk here the manifest is verified: its chunks count, or the image is discarded. -/
def checkManifest (d : Dev) (pr : Propolis) : Dev :=
  match d.bup.bcast with
  | none => d
  | some b =>
    if b.manifest.isSome || !((List.range b.desc.manifestChunks).all fun n => (smGet b.held n).isSome) then d
    else
      let l := manifestBytes b
      match readManifest l with
      | some m =>
        if manifestOk d pr b.desc m (manifestBody l) then
          bump (modBcast d fun b => { b with manifest := some m }) pBup Reg.BUP_BCAST_CHUNKS b.desc.manifestChunks
        else dropSession (sigFail (if b.desc.kind = 0 then d else bupEvents d 7 1))
      | none => dropSession (sigFail (if b.desc.kind = 0 then d else bupEvents d 7 1))

/-! ## Chunks (R430, R432) -/

/-- Is a chunk's content right? A manifest chunk is judged with the whole manifest. -/
def chunkOk (b : Bcast) (n : Nat) (data : List Byte) : Bool :=
  decide (data.length = chunkBytes) && (decide (n < b.desc.manifestChunks) || match b.manifest with
    | some m => decide (m.digests.getD (n - b.desc.manifestChunks) 0 = BitVec.ofNat 256 (leNat (sha256 data)))
        && decide (n - b.desc.manifestChunks < m.digests.length)
    | none => false)

/-- A good chunk is kept and passed on; the chunk timer starts again. -/
def keepChunk (d : Dev) (pr : Propolis) (n : Nat) (data : List Byte) : Dev :=
  let d := modBcast d fun b => { b with held := smPut b.held n data, waiting := false, timer := !b.pulling }
  match d.bup.bcast with
  | none => d
  | some b =>
    let d := if n < b.desc.manifestChunks then checkManifest d pr else bump d pBup Reg.BUP_BCAST_CHUNKS 1
    let fresh := match d.bup.bcast with
      | some b' => if b'.manifest.isSome then (if b.manifest.isSome then [n] else List.range b.desc.manifestChunks) else []
      | none => []
    let d := forward (fresh.foldl serveAsked d)
    let done := (d.bup.bcast.map allHeld).getD false
    if done then bcastStatus (modBcast d fun b => { b with timer := false, pulling := false }) 19 false else d

/-- A chunk arrives from a holder: it is dropped when it is held already or cannot be taken yet; a bad one is asked for again, and
pulled after the third failure (R434). -/
def chunkIn (d : Dev) (pr : Propolis) (n : Nat) (data : List Byte) : Dev :=
  match d.bup.bcast with
  | none => d
  | some b =>
    if (smGet b.held n).isSome || !takeable b n then d
    else if chunkOk b n data then keepChunk d pr n data
    else
      let k := smGetD 0 b.fails n + 1
      let d := bupEvents (modBcast d fun b => { b with fails := smPut b.fails n k }) 8 1
      if 3 ≤ k then startPull d else askFor d b.source 1 [n]

/-- A pulled chunk is complete (R415). -/
def pullDone (d : Dev) (pr : Propolis) (i : Nat) (p : ImagePull) (data : List Byte) : Dev :=
  match d.bup.bcast with
  | none => d
  | some b =>
    if (smGet b.held p.chunk).isSome then pullMore d
    else if chunkOk b p.chunk data then pullMore (keepChunk d pr p.chunk data)
    else
      let d := bupEvents d 8 1
      if 3 ≤ p.fails + 1 then dropSession (sigFail d) else pullChunk d i b.desc.bcastId p.chunk (p.fails + 1)

/-- IMAGE_DATA: bytes of a pulled chunk, LAST with the last of them. -/
def imageDataIn (d : Dev) (pr : Propolis) (i : Nat) (p : HxvIn) : Dev :=
  match (hxvOf d i).pulls.find? fun q => q.reqId == p.reqId && q.chunk == p.aux with
  | none => hxvDrop d i
  | some q =>
    let all := q.got ++ p.payload
    if !p.last && decide (all.length < chunkBytes) then modHxv d i fun h => { h with
      pulls := h.pulls.map fun x => if x.reqId = q.reqId then { x with got := all } else x }
    else pullDone (modHxv d i fun h => { h with pulls := h.pulls.filter fun x => x.reqId != q.reqId }) pr i q all

/-! ## Descriptor, requests and timers (R429, R431 to R433) -/

/-- A descriptor arrives: a device that is not in it ignores it; the root checks it. It goes to the children first
(log entry 61, DEDUCED). -/
def descIn (d : Dev) (x : BcastDesc) (from_ : Nat) : Dev :=
  let me := myNode d
  match nodeEntry x me with
  | none => d
  | some e =>
    let known := match d.bup.bcast with
      | some b => b.desc.bcastId == x.bcastId
      | none => false
    if known || x.magic != 0x54534342#32 then d
    else if e.root && !treeOk x then bupEvents d 7 1
    else
      let d := dropSession d
      let d := modBup d fun b => { b with bcast := some ⟨x, none, [], if e.root then me else from_, [], [], 0, false, false, e.root,
        false, [], !e.root⟩ }
      let l := descBytes x
      let d := (childrenOf x me).foldl (fun d k => (List.range (ceilDiv l.length 512)).foldl (fun d i =>
        bcastSend d k 5 i (sliceBytes l (512 * i) 512)) d) d
      let d := wrN d pBup Reg.BUP_BCAST_STATUS (x.bcastId % 65536 + 65536 + 524288 * b2n e.root)
      pullMore d

/-- The chunks of ranges, below the chunk count. -/
def rangeChunks (b : Bcast) (rs : List (Nat × Nat)) : List Nat :=
  (List.range b.desc.chunkCount).filter fun n => rs.any fun r => decide (r.1 ≤ n) && decide (n < r.1 + r.2)

/-- HOLD: the highest chunk below which every chunk is held; a node that does not hold chunk 0 has none to name. -/
def sendHold (d : Dev) (b : Bcast) (child : Nat) : Dev :=
  let n := ((List.range b.desc.chunkCount).takeWhile (heldChunk b)).length
  if n = 0 then drawFree (bcastSend d child 2 0 (leBytes 4 (Config.freeValue d.freeSeq 0)))
  else bcastSend d child 2 0 (leBytes 4 (n - 1))

/-- REQUEST or ATTACH from a node: what is held goes at once, the rest as it arrives. A REQUEST is answered with HOLD. -/
def asked (d : Dev) (child : Nat) (rs : List (Nat × Nat)) (hold : Bool) : Dev :=
  match d.bup.bcast with
  | none => d
  | some b =>
    let d := if hold then sendHold d b child else d
    let d := ((rangeChunks b rs).filter (heldChunk b)).foldl (fun d n => sendChunk d b child n) d
    let rest := sectorRuns ((rangeChunks b rs).filter fun n => !heldChunk b n)
    modBcast d fun b => { b with asked := (b.asked.filter fun q => q.1 != child) ++ (if rest.isEmpty then [] else [(child, rest)]) }

/-- Is a session of this identity here? -/
def inSession (d : Dev) (id : Nat) : Bool := (d.bup.bcast.map fun b => b.desc.bcastId == id).getD false

/-- The chunk timer expires: REQUEST to the source for every missing range. -/
def timerOut (d : Dev) : Dev :=
  match d.bup.bcast with
  | none => d
  | some b =>
    if !b.timer || allHeld b then d
    else modBcast (askFor d b.source 1 (missingChunks b)) fun b => { b with timer := false, waiting := true }

/-- No answer within 2 ms: the alternate parent becomes the source, and after it the node's own Hexvan link (R433, R434). -/
def holdOut (d : Dev) : Dev :=
  match d.bup.bcast with
  | none => d
  | some b => match nodeEntry b.desc (myNode d) with
    | none => d
    | some e =>
      if !b.waiting then d
      else if e.noAlt || b.attached then startPull d
      else
        let d := modBcast d fun b => { b with attached := true, source := e.alt }
        bcastStatus (bupEvents (askFor d e.alt 3 (missingChunks b)) 5 1) 18 true

/-- A node that could not pull tries again: its own link, or the sequence of R433 from its parent. -/
def pullRetry (d : Dev) : Dev :=
  match d.bup.bcast with
  | none => d
  | some b =>
    if b.timer || b.waiting || b.pulling || allHeld b then d
    else if (pullPort d).isSome then startPull d
    else match nodeEntry b.desc (myNode d) with
      | none => d
      | some e => modBcast (askFor d e.parent 1 (missingChunks b)) fun b => { b with waiting := true, attached := false, source := e.parent }

/-! ## Completion (R435) -/

/-- Bytes of the image, without manifest and padding. -/
def imageOf (b : Bcast) (n : Nat) : List Byte :=
  ((List.range (b.desc.chunkCount - b.desc.manifestChunks)).flatMap fun i => (smGet b.held (b.desc.manifestChunks + i)).getD []).take n

/-- A mould image goes into a HELD Tier H buffer of its context, or is refused. -/
def mouldIn (d : Dev) (x : BcastDesc) (l : List Byte) : Dev :=
  let c := ctxOf d x.context.val
  match (List.range 5).find? fun k => decide (x.imageSize ≤ classBytes k) with
  | none => bupEvents d 7 1
  | some cls =>
    if c.state = .free then bupEvents d 7 1
    else
      let a := vatServe d c.part x.context.val 1 cls 0 false .held
      match a.2 with
      | .issued h => bupEvents (wrN (tierWrite a.1 (bufAddr a.1.vat h) l) pBup Reg.BUP_BCAST_HANDLE h) 11 1
      | q => bupEvents (vatShort a.1 1 q) 7 1

/-- Does every node that this one serves have every chunk? -/
def servedAll (b : Bcast) (me : Nat) : Bool :=
  (b.desc.nodes.filter fun e => e.node != me && ((e.parent == me && !e.root) || (!e.noAlt && e.alt == me))).all fun e => b.done.contains e.node

/-- The chunks are given up once everyone served is done. -/
def releaseSession (d : Dev) : Dev :=
  match d.bup.bcast with
  | some b => if b.complete && servedAll b (myNode d) then dropSession d else d
  | none => d

/-- The node holds every chunk: DONE to its parent and its alternate parent, and it acts on the image. -/
def selfDone (d : Dev) : Dev :=
  match d.bup.bcast with
  | none => d
  | some b => match b.manifest, nodeEntry b.desc (myNode d) with
    | some m, some e =>
      if b.complete || !allHeld b then d
      else
        let d := if e.root then d else bcastSend d e.parent 4 0 []
        let d := if e.root || e.noAlt then d else bcastSend d e.alt 4 0 []
        let d := bcastStatus (modBcast d fun b => { b with complete := true }) 17 true
        let d := if b.desc.kind = 0 then
            startFirmware d m (manifestBody (manifestBytes b)) ((smGet b.held b.desc.manifestChunks).getD [])
          else mouldIn d b.desc (imageOf b b.desc.imageSize)
        releaseSession d
    | _, _ => d

/-- DONE from a node. -/
def doneFrom (d : Dev) (n : Nat) : Dev :=
  releaseSession (modBcast d fun b => { b with done := if b.done.contains n then b.done else b.done ++ [n] })

/-! ## The meanings -/

/-- BROADCAST_DESC (R429, R432). -/
def execBroadcastDesc (x : BcastDesc) (fromNode : Nat) (s : State) : Host.Outcome State Fault Refusal :=
  onDev s fun d => descIn d x fromNode

/-- BROADCAST_DATA (R430 to R432). -/
def execBroadcastData (bcastId chunk : Nat) (data : List Byte) (_fromNode : Nat) (s : State) : Host.Outcome State Fault Refusal :=
  onDevP s fun pr d => if inSession d bcastId then chunkIn d pr chunk data else d

/-- BROADCAST_REQUEST (R432, R433). -/
def execBroadcastRequest (bcastId child : Nat) (ranges : List (Nat × Nat)) (s : State) : Host.Outcome State Fault Refusal :=
  onDev s fun d => if inSession d bcastId then asked d child ranges true else d

/-- BCAST_HOLD: the parent is alive, and the chunk timer starts again (R433). -/
def execBcastHold (bcastId _highest : Nat) (s : State) : Host.Outcome State Fault Refusal :=
  onDev s fun d => if inSession d bcastId then modBcast d fun b => { b with waiting := false, timer := !allHeld b && !b.pulling } else d

/-- BROADCAST_ATTACH (R432, R433). -/
def execBroadcastAttach (bcastId child : Nat) (ranges : List (Nat × Nat)) (s : State) : Host.Outcome State Fault Refusal :=
  onDev s fun d => if inSession d bcastId then asked d child ranges false else d

/-- BROADCAST_DONE: this node has every chunk, or another one says so (R435). -/
def execBroadcastDone (bcastId : Nat) (fromNode : Option Nat) (s : State) : Host.Outcome State Fault Refusal :=
  onDev s fun d => if inSession d bcastId then (match fromNode with
    | none => selfDone d
    | some n => doneFrom d n) else d

/-- CHUNK_TIMER (R433). -/
def execChunkTimer (s : State) : Host.Outcome State Fault Refusal := onDev s timerOut

/-- HOLD_TIMEOUT (R433, R434). -/
def execHoldTimeout (s : State) : Host.Outcome State Fault Refusal := onDev s holdOut

/-- PULL_RETRY_TIMER (R434). -/
def execPullRetryTimer (s : State) : Host.Outcome State Fault Refusal := onDev s pullRetry

/-- CHUNK_RETENTION_TIMEOUT: 2 s after it completed, a node gives up its chunks (R435). -/
def execChunkRetentionTimeout (s : State) : Host.Outcome State Fault Refusal :=
  onDev s fun d => match d.bup.bcast with
    | some b => if b.complete then dropSession d else d
    | none => d

/-- IMAGE_DATA (R415). -/
def execImageData (port : Fin 2) (raw : List Byte) (s : State) : Host.Outcome State Fault Refusal :=
  onDevP s fun pr d => hxvArrive d port.val 11 raw fun p d => imageDataIn d pr port.val p

end Sys2Proof.Machine
end

