-- ==== Sys2Proof/Machine/FabricSteps.lean ====
section
/-! DEFINITION. The meanings of remote requests at their target, of markers and queries (01, 13), and of the fabric's steps
(12). -/

namespace Sys2Proof.Machine

/-- A commit or abort marker arrives (R29, R31). -/
def execMarkerReceive (p : Fin 16) (src : Peer) (frame : Nat) (commit : Bool) (s : State) : Host.Outcome State Fault Refusal :=
  onDev s fun d => markerIn d p.val src frame commit

/-- A marker is not held at the cut of the tick ending FRAME + 2 (R31). -/
def execMarkerLate (p : Fin 16) (src : Peer) (frame : Nat) (s : State) : Host.Outcome State Fault Refusal :=
  onDev s fun d => markerMissing d p.val src frame

/-- RLOAD at the target (R337). -/
def execRloadRequest (r : RemReq) (sectors : Nat) (s : State) : Host.Outcome State Fault Refusal :=
  onDevP s fun pr d => targetLoad d pr r sectors

/-- RSTORE at the target (R337, R343). -/
def execRstoreRequest (r : RemReq) (pairCount : Nat) (data : List Byte) (s : State) : Host.Outcome State Fault Refusal :=
  onDevP s fun pr d => targetStore d pr r pairCount data

/-- RATOMIC at the target (R337, R346). -/
def execRatomicRequest (r : RemReq) (pairCount : Nat) (op : AtomOp) (wide : Bool) (operand compare : W64) (s : State) : Host.Outcome State Fault Refusal :=
  onDevP s fun pr d => targetAtomic d pr r pairCount op wide operand compare

/-- RTRIG at the target (R112, R347). -/
def execRtrigArrival (r : RemReq) (cell : Fin 256) (trigId : Nat) (arg : List Byte) (cycle : Nat) (s : State) : Host.Outcome State Fault Refusal :=
  onDevP s fun pr d => targetTrig d pr r cell.val trigId arg cycle false

/-- Requests held from the commit window are handled at cycle 0 (R338). -/
def execHeldRequestRelease (p : Fin 16) (s : State) : Host.Outcome State Fault Refusal :=
  onDevP s fun pr d => heldRelease d pr p.val

/-- The agent queries a node (R348). -/
def execNodeQuery (p : Fin 16) (node : Nat) (why : QueryWhy) (s : State) : Host.Outcome State Fault Refusal :=
  onDev s fun d => queryNode d p.val node why

/-- 10 ms after a query (R348). -/
def execQueryTimeout (node : Nat) (controllerReady : Bool) (s : State) : Host.Outcome State Fault Refusal :=
  onDev s fun d => queryEnd d node controllerReady

/-- A teardown reaches a member device (R349). -/
def execTeardownRequest (p : Fin 16) (node : Nat) (s : State) : Host.Outcome State Fault Refusal :=
  onDev s fun d => tearDown d p.val node

/-- A query from another node's agent (R31, R322, R348). -/
def execNodeQueryArrival (src : Peer) (p : Fin 16) (ask : QueryAsk) (s : State) : Host.Outcome State Fault Refusal :=
  onDev s fun d => queryAsked d src p.val ask

/-- The answer to a query (R223, R322, R348). -/
def execNodeQueryAnswer (node : Nat) (p : Fin 16) (r : QueryReport) (s : State) : Host.Outcome State Fault Refusal :=
  onDev s fun d =>
    let live := r == .alive && d.rmt.queries.any fun q => q.node == node && q.part == p.val && q.why == .votesMissing
    let d := queryAnswered d node p.val r
    if live then peerLive d p.val node else d

/-- A packet is assigned an output (R315, R316). -/
def execPacketRoute (id : Nat) (busy : W32) (s : State) : Host.Outcome State Fault Refusal :=
  onDev s fun d => routePkt d id busy

/-- An escape packet moves on (R317). -/
def execEscapeForward (id : Nat) (port : Fin 32) (s : State) : Host.Outcome State Fault Refusal :=
  onDev s fun d => escapeForward d id port.val

/-- A packet arrives on a port (R309, R318). -/
def execPacketArrival (port : Fin 32) (raw : List Byte) (s : State) : Host.Outcome State Fault Refusal :=
  onDev s fun d => packetIn d port.val raw

/-- A held fence is released (R321). -/
def execFenceRelease (id : Nat) (s : State) : Host.Outcome State Fault Refusal :=
  onDev s fun d => releaseFence d id

/-- A fence is held too long (R322). -/
def execFenceTimeout (id : Nat) (s : State) : Host.Outcome State Fault Refusal :=
  onDev s fun d => timeoutFence d id

/-- Refusals are weighed at a tick (R319). -/
def execSaturationCheck (p : Fin 16) (s : State) : Host.Outcome State Fault Refusal :=
  onDev s fun d => saturation d p.val

/-- A link packet is corrected or sent again (R323 to R325). -/
def execLinkRetry (port : Fin 32) (why : RetryWhy) (refusals : Nat) (time : Nat) (s : State) : Host.Outcome State Fault Refusal :=
  onDev s fun d => linkRetry d port.val why refusals time

/-- A Bollum port has trained (R325). -/
def execLinkRetrain (port : Fin 32) (lanes : Fin 5) (s : State) : Host.Outcome State Fault Refusal :=
  onDev s fun d => bolTrained d port.val lanes.val

/-- A link comes up and shows its partner (R302). -/
def execBollumLinkUp (port : Fin 32) (partner : W32) (rev1 : Bool) (s : State) : Host.Outcome State Fault Refusal :=
  onDev s fun d => linkUp d port.val partner.toNat rev1

/-- A datagram arrives on an Ethernet port (R332). -/
def execEthDatagramReceive (port : Fin 4) (checksumOk : Bool) (addressed : Bool) (raw : List Byte) (s : State) : Host.Outcome State Fault Refusal :=
  onDev s fun d => datagramIn d port.val checksumOk addressed raw

/-- An Ethernet link comes up or goes down (R331). -/
def execEthernetLinkChange (port : Fin 4) (up : Bool) (s : State) : Host.Outcome State Fault Refusal :=
  onDev s fun d => ethLink d port.val up

end Sys2Proof.Machine
end

