-- ==== Sys2Proof/Machine/Firmware.lean ====
section
/-! DEFINITION. The firmware components and their complexes (15 R394 to R399), and the 8 µs grid point (15 R384, R393; 19 R479,
R483, R490). -/

namespace Sys2Proof.Machine

/-! ## Faults of components (R394, R398) -/

/-- The standby must take over; a device without one is reported to the tray controller (R398, Table 21-1). -/
def wantSwitch (d : Dev) : Dev :=
  if (standbyCpx d).isSome then { d with host := { d.host with switch := true } }
  else classEvent d 6 (pCtl ((activeCpx d).getD 0)) 0

/-- A component that traps is stopped, recorded and restarted from its verified code within 20 ms: cause 1 protection, 2 exception, 3 watchdog.
A fault of the security monitor, and a third restart within an hour, end the active's role (log entry 85, DEDUCED). -/
def compFault (d : Dev) (i n cause time : Nat) : Dev :=
  let u := pCtl i
  match smGet d.cpx i with
  | none => d
  | some x =>
    if cause = 0 ∨ 3 < cause ∨ !rdB d u Reg.CTL_CX_STATUS (8 + n) ∨ 4 < n then d
    else
      let ts := time :: (smGetD [] x.faults n).filter fun t => decide (time < t + 3600000000000)
      let d := wrN d u Reg.CTL_CX_LAST_FAULT (n + 16 * cause)
      let d := if cause = 1 then event d u Reg.CTL_CX_EVENTS 1 Reg.CTL_EVT_PMP_FAULT
        else classEvent (event d u Reg.CTL_CX_EVENTS 0 Reg.CTL_EVT_COMP_RESTART) 3 u 0
      let d := compStop { d with cpx := smPut d.cpx i { x with faults := smPut x.faults n ts } } i n 20000000 true
      if activeCpx d = some i ∧ (n = 0 ∨ 3 ≤ ts.length) then wantSwitch d else d

/-- The active's heartbeat (R398). -/
def beat (d : Dev) : Dev := match activeCpx d with
  | some i => bump d (pCtl i) Reg.CTL_HEARTBEAT 1
  | none => d

/-- 1 ms without a heartbeat: the standby notes it and must take over. -/
def beatLost (d : Dev) : Dev := match activeCpx d with
  | some i => wantSwitch (event d (pCtl ((standbyCpx d).getD i)) Reg.CTL_CX_EVENTS 4 Reg.CTL_EVT_HEARTBEAT_LOST)
  | none => d

/-! ## Taking over (R398) -/

/-- Completions that a port sent in the last 16 ms are sent again, before those that wait, with REPLAY. -/
def replay (d : Dev) (i : Nat) : Dev :=
  let again := ((hxvOf d i).sent.filter fun c => decide (d.hall < c.time + 16000000)).map fun c => { c with replay := true }
  let d := modHxv d i fun q => { q with queue := again ++ q.queue, sent := [] }
  wrN d (pHxv i) Reg.HXV_CPL_QUEUE (hxvOf d i).queue.length

/-- A complex is reset: its boot ROM starts and waits for an image, and its log begins again (R395, R481). -/
def resetCpx (d : Dev) (i : Nat) : Dev :=
  let d := { d with cpx := smDel d.cpx i, sec := { d.sec with logs := smDel d.sec.logs i } }
  bootRom d [true, true] i

/-- SWITCHOVER commands that waited for the take-over are completed. -/
def switchCpls (d : Dev) : Dev :=
  let rs := d.host.drained.filter fun r => r.opcode == 0x26
  let d := { d with host := { d.host with drained := d.host.drained.filter fun r => r.opcode != 0x26 } }
  rs.foldl (fun d r => finishDev d r 0 []) d

/-- The standby takes over at a grid point (log entry 87, DEDUCED). -/
def takeOver (d : Dev) : Dev :=
  if !d.host.switch then d
  else
    let d := { d with host := { d.host with switch := false } }
    match activeCpx d, standbyCpx d with
    | some old, some new =>
      let d := resetCpx d old
      let d := wrF d (pCtl new) Reg.CTL_CX_STATUS 1 0 2
      let d := classEvent (event d (pCtl new) Reg.CTL_CX_EVENTS 2 Reg.CTL_EVT_SWITCHOVER) 3 (pCtl new) 0
      let d := appendLog d new 7 2 0xFFFF 0 []
      let d := match smGet d.cpx new with
        | some x => wrN d pDev Reg.CTL_CAP_TIMING (x.timing % 65536 + 65536 * (x.fwNumeric % 65536))
        | none => d
      switchCpls ([0, 1].foldl replay d)
    | _, _ => d

/-! ## Live update (R399) -/

/-- Does a loaded image require other versions than these? -/
def versionUsed (d : Dev) (numeric timing : Nat) : Bool :=
  (List.range 16).any fun p => (images d p).any fun e => e.2.fw != numeric || e.2.timing != timing

/-- UPDATE_COMPONENT: the new code is verified, takes over the old one's state within 5 ms, and is measured. The spec gives the code no
length, so its digest is free (log entry 86, DEDUCED). -/
def updateComp (d : Dev) (r : CmdRec) (verified importOk : Bool) (numeric timing version : Nat) : Dev :=
  let n := leAt r.arg 0 1
  let h := leAt r.arg 4 4
  let b := bufOf d.vat (hPool h) (hIndex h)
  match (activeCpx d).bind fun i => (smGet d.cpx i).map fun x => (i, x) with
  | none => finishDev d r 3 []
  | some (i, x) =>
    let check := handleCode d b.part h (leAt r.arg 8 4) false
    if n = 0 ∨ 4 < n then finishDev d r 2 []
    else if check ≠ 0 then finishDev (checkFailed d b.part h false check) r 2 []
    else if b.state ≠ .held then finishDev d r 2 []
    else if !verified then finishDev (event d (pSec i) Reg.SEC_EVENTS 0 Reg.SEC_EVT_SIG_FAIL) r 6 []
    else if versionUsed d numeric timing then finishDev d r 14 []
    else if !importOk then finishDev (compStop d i n 5000000 false) r 15 []
    else
      let dig := (List.range 32).map (Config.freeByte d.freeSeq)
      let d := drawFree { d with cpx := smPut d.cpx i { x with
        versions := smPut x.versions n version
        comps := smPut x.comps n dig
        fwNumeric := numeric
        timing := timing } }
      let d := compStop (appendLog d i 4 n 0xFFFF 0 dig) i n 5000000 false
      finishDev (wrN d pDev Reg.CTL_CAP_TIMING (timing % 65536 + 65536 * (numeric % 65536))) r 0 []

/-- The UPDATE_COMPONENT record of the row: one that has been drained and waits, or one that arrives: it is drained now at a grid point and
waits in the inbox elsewhere (log entry 73, DESIGN CHOICE). -/
def updateRow (d : Dev) (port : Nat) (tag : W32) (arg : List Byte) (verified importOk : Bool) (numeric timing version : Nat) : Dev :=
  match d.host.drained.find? fun r => r.opcode == 0x25 && r.port == port && r.tag == tag && r.arg == sliceBytes arg 0 56 with
  | some r => updateComp { d with host := { d.host with drained := d.host.drained.erase r } } r verified importOk numeric timing version
  | none =>
    if !atGrid d port then placeRec d ⟨port, 0, 0x25, 0, 256, tag, sliceBytes arg 0 56⟩
    else
      let q := devRec d port 0x25 tag arg
      if !argClean q.2 then finishDev q.1 q.2 2 [] else updateComp q.1 q.2 verified importOk numeric timing version

/-! ## The grid point -/

/-- Drains up to 16 records of the device inbox, which act (R384); no more while the port of the oldest has no room for
completions (R411). -/
def drainDev (d : Dev) (pr : Propolis) : Dev :=
  let l := d.host.inbox.take 16
  if !compUp d 1 || !l.all fun r => drains d r.port then d
  else
    let d := { d with host := { d.host with inbox := d.host.inbox.drop 16 } }
    let d := bump d (pCtl ((activeCpx d).getD 0)) Reg.CTL_COMMANDS l.length
    l.foldl (fun d r => applyDevCmd d pr r) d

/-- Records in the inbox of a FREE context, which no partition's cut drains, are refused (R385). -/
def drainFree (d : Dev) : Dev :=
  if !compUp d 1 then d
  else (d.ctxs.map Prod.fst).foldl (fun d c =>
    let x := ctxOf d c
    if x.state ≠ .free then d
    else (x.inbox.take 16).foldl (fun d r => finish d r 3 []) (modCtx d c fun x => { x with inbox := x.inbox.drop 16 })) d

/-- GRID_POINT: propolis changes first, then a take-over, the device inbox, and the reports that wait. -/
def gridOf (pr : Propolis) (d : Dev) : Propolis × Dev :=
  let d := compsBack { d with hall := (d.hall / 8000 + 1) * 8000 }
  let q := propGrid pr d
  (q.1, attCapture (drainFree (drainDev (takeOver q.2) q.1)) q.1)

/-! ## The meanings -/

/-- COMPONENT_FAULT (R394). -/
def execComponentFault (i : Fin 2) (component : Fin 6) (cause : Fin 4) (time : Nat) (s : State) : Host.Outcome State Fault Refusal :=
  onDev s fun d => compFault d i.val component.val cause.val time

/-- WATCHDOG_EXPIRY (R394). -/
def execWatchdogExpiry (i : Fin 2) (component : Fin 6) (time : Nat) (s : State) : Host.Outcome State Fault Refusal :=
  onDev s fun d => compFault d i.val component.val 3 time

/-- HEARTBEAT (R398). -/
def execHeartbeat (s : State) : Host.Outcome State Fault Refusal := onDev s beat

/-- HEARTBEAT_LOSS (R398). -/
def execHeartbeatLoss (s : State) : Host.Outcome State Fault Refusal := onDev s beatLost

/-- SWITCHOVER (R398). -/
def execSwitchover (port : Fin 2) (tag : W32) (s : State) : Host.Outcome State Fault Refusal :=
  onDevP s fun pr d => devRow d pr port.val 0x26 tag []

/-- UPDATE_COMPONENT (R399). -/
def execUpdateComponent (port : Fin 2) (tag : W32) (component : Nat) (handle : W32) (offset : Nat) (verified importOk : Bool)
    (numeric timing version : Nat) (s : State) : Host.Outcome State Fault Refusal :=
  onDev s fun d => updateRow d port.val tag (leBytes 4 component ++ leBytes 4 handle.toNat ++ leBytes 4 offset) verified importOk numeric
    timing version

/-- GRID_POINT (R384). -/
def execGridPoint (s : State) : Host.Outcome State Fault Refusal :=
  let q := gridOf s.prop (writeBackLines s.dev)
  .next { s with prop := q.1, dev := q.2 }

end Sys2Proof.Machine
end

