-- ==== Sys2Proof/Machine/Inject.lean ====
section
/-! DEFINITION. Injection and trace (12 R333, R334; 16 R417; 21 R516, R517). -/

namespace Sys2Proof.Machine

/-! ## Stored codewords and tier latency (R516) -/

/-- The value of a register field in a new register value: field hi..lo. -/
def vf (v hi lo : Nat) : Nat := nbits v hi lo

/-- Does an address lie in the command staging area of a cell store (R99)? -/
def inStagingArea (a : Nat) : Bool := decide (0x080040000000 ≤ a) && decide (0x3E0000 ≤ (a - 0x080040000000) % 0x400000)

/-- Result of arming an injection: 1 PERMISSION, 3 BUSY, 4 BAD_MODE, 2 ADDRESS, or 0. -/
def injResult (d : Dev) (pr : Propolis) (r : Requester) (mode delay a : Nat) : Nat :=
  let absent := decide (whereIs d a = .absent)
  let unit := if absent then pDev else memUnit d a
  if !granted pr r .test unit then 1
  else if rdB d pDev Reg.CTL_INJ_STATUS 11 then 3
  else if 3 < mode ∨ (mode = 3 ∧ delay = 0) then 4
  else if absent || inStagingArea a || (mode == 3 && inStore a) then 2
  else 0

/-- Arms an injection: a mark on the word of an address, one wrong data byte or a mark on its tier line, or a delay of its tier
(log entry 88, DEDUCED). -/
def injArm (d : Dev) (mode delay a : Nat) : Dev :=
  if mode = 3 then { d with tier := { d.tier with delayed := smPut d.tier.delayed (tierOfAddr d a) delay } }
  else
    let k := markKey a
    let old := (smGet d.marks k).getD ⟨false, false, none, []⟩
    let flip := decide (mode = 1) && !inStore a && !(old.wrong.any fun w => w.1 == a % 64)
    let m : Mark := ⟨decide (mode = 2) || old.uncorr, true, none, old.wrong ++ if flip then [(a % 64, 1)] else []⟩
    { d with marks := smPut d.marks k m }

/-- A write to CTL_INJ_CTL. -/
def writeInj (pr : Propolis) (r : Requester) (v : Nat) (d : Dev) : Dev :=
  let mode := vf v 2 0
  let seq := vf v 15 8
  let delay := vf v 31 16
  let a := rdN d pDev Reg.CTL_INJ_ADDR
  let keep := fun (d : Dev) => wrN d pDev Reg.CTL_INJ_CTL (mode + 256 * seq + 65536 * delay)
  if mode = 0 then keep d
  else
    let res := injResult d pr r mode delay a
    if res = 0 then wrN (injArm (keep d) mode delay a) pDev Reg.CTL_INJ_STATUS (seq + 2048)
    else wrF (wrF d pDev Reg.CTL_INJ_STATUS 7 0 seq) pDev Reg.CTL_INJ_STATUS 10 8 res

/-- A write to CTL_INJ_CTL with a mode of its own. -/
def injectRow (pr : Propolis) (d : Dev) (r : Requester) (v mode : Nat) : Dev :=
  gated pr d r pDev Reg.CTL_INJ_CTL (writeInj pr r (v - v % 8 + mode))

/-! ## Link packets (R333, R417) -/

/-- Are the fields that a mode uses in their ranges: RATE_EXP 1 to 24, SYMBOLS 1 to 31 for CORRUPT, DEPTH 1 to 7 for mode 3? -/
def injFieldsOk (mode v : Nat) : Bool :=
  mode == 0 || (decide (1 ≤ vf v 12 8) && decide (vf v 12 8 ≤ 24) && (mode != 2 || decide (1 ≤ vf v 20 16)) && (mode != 3 || decide (1 ≤ vf v 23 21)))

/-- A write to BOL_INJECT; packets are counted from the write. -/
def writeBolInject (i v : Nat) (d : Dev) : Dev :=
  let mode := vf v 2 0
  if 4 < mode ∨ !injFieldsOk mode v then d
  else modBol (wr d (pBol i) Reg.BOL_INJECT (BitVec.ofNat 64 v &&& 0x0FFF1F07#64)) i fun q => { q with injIndex := 0 }

/-- A write to HXV_INJECT. -/
def writeHxvInject (i v : Nat) (d : Dev) : Dev :=
  if !injFieldsOk (vf v 1 0) v then d
  else modHxv (wr d (pHxv i) Reg.HXV_INJECT (BitVec.ofNat 64 v &&& 0x00FF1F03#64)) i fun q => { q with injIndex := 0 }

/-! ## Trace capture (R517) -/

/-- Result of arming trace: 3 permission, 1 collectives, 2 region, or 0 (log entry 89, DEDUCED). -/
def traceResult (d : Dev) (pr : Propolis) (p : Nat) (r : Requester) (v : Nat) : Nat :=
  let u := pPart p
  let base := rdN d u Reg.CTL_TRACE_BASE
  let size := rdN d u Reg.CTL_TRACE_BYTES
  let top := ((smGet d.vat.carve p).map fun c => c.2.2).getD 0
  let cols := (images d p).any fun e => e.2.entries.any fun q => match q.what with
    | .col _ _ => true
    | _ => false
  if !granted pr r .test u then 3
  else if cols then 1
  else if size = 0 ∨ size % 4096 ≠ 0 ∨ base % 32 ≠ 0 ∨ 0x1000000 < base + size ∨ base + top < 0x1000000 ∨ (partCombs d p).length ≤ vf v 12 8 then 2
  else 0

/-- A write to CTL_TRACE_CTL: arming and disarming take effect at the next tick; a refused arming changes only ARM_RESULT. -/
def writeTrace (pr : Propolis) (p : Nat) (r : Requester) (v : Nat) (d : Dev) : Dev :=
  let u := pPart p
  let arm := bitAt v 0
  let res := if arm then traceResult d pr p r v else 0
  let d := wrF d u Reg.CTL_TRACE_STATUS 1 0 res
  if res = 0 then modPart (wr d u Reg.CTL_TRACE_CTL (BitVec.ofNat 64 v &&& 0x1F01#64)) p fun t => { t with traceArm := some arm } else d

/-! ## The meanings -/

/-- INJECT_CORR (R516): MODE 1. -/
def execInjectCorr (requester : Requester) (value : W32) (s : State) : Host.Outcome State Fault Refusal :=
  onDevP s fun pr d => injectRow pr d requester value.toNat 1

/-- INJECT_UNCORR (R516): MODE 2. -/
def execInjectUncorr (requester : Requester) (value : W32) (s : State) : Host.Outcome State Fault Refusal :=
  onDevP s fun pr d => injectRow pr d requester value.toNat 2

/-- INJECT_DELAY (R516): MODE 3. -/
def execInjectDelay (requester : Requester) (value : W32) (s : State) : Host.Outcome State Fault Refusal :=
  onDevP s fun pr d => injectRow pr d requester value.toNat 3

/-- BOL_INJECT (R333). -/
def execBolInject (port : Fin 32) (requester : Requester) (value : W32) (s : State) : Host.Outcome State Fault Refusal :=
  onDevP s fun pr d => gatedTest pr d requester (pBol port.val) Reg.BOL_INJECT (writeBolInject port.val value.toNat)

/-- HXV_INJECT (R417). -/
def execHxvInject (port : Fin 2) (requester : Requester) (value : W32) (s : State) : Host.Outcome State Fault Refusal :=
  onDevP s fun pr d => gatedTest pr d requester (pHxv port.val) Reg.HXV_INJECT (writeHxvInject port.val value.toNat)

/-- TRACE_ARM: a write to CTL_TRACE_CTL (R517). -/
def execTraceArm (p : Fin 16) (requester : Requester) (value : W32) (s : State) : Host.Outcome State Fault Refusal :=
  onDevP s fun pr d => gated pr d requester (pPart p.val) Reg.CTL_TRACE_CTL (writeTrace pr p.val requester value.toNat)

end Sys2Proof.Machine
end

