-- ==== Sys2Proof/Machine/RegView.lean ====
section
/-! DEFINITION. Reads of unit pages (02 R49, R50, R61, R62, R65, R520, and the register tables of every chapter): what a register
shows that the register file does not hold, but that is read off the state. -/

namespace Sys2Proof.Machine

/-! ## The common header (Tables 02-4 to 02-6) -/

/-- UNIT_ID. -/
def unitId (u : Nat) : Nat := u + 65536 * kindCode u + 2 ^ 24

/-- UNIT_INFO. -/
def unitInfo (d : Dev) (u : Nat) : Nat :=
  (members d u).length + 1024 * memberLevel u + 65536 * (match pageKind u with | .block t => t | _ => 0)

/-- UNIT_OWNER. -/
def unitOwner (d : Dev) (u : Nat) : Nat :=
  match ownerOf d u with
  | some p => p + 16
  | none => 0

/-- UNIT_GROUP_READY: members in READY or RUNNING, and members in FAILED. -/
def groupReady (d : Dev) (u : Nat) : Nat :=
  let ms := members d u
  (ms.filter fun m => stateIs d m .ready || stateIs d m .running).length + 65536 * (ms.filter fun m => stateIs d m .failed).length

/-- UNIT_SNAP_FRAME: of the partition, or of the owner's. -/
def snapFrame (d : Dev) (u : Nat) : Nat :=
  if pageKind u = .partition then rdN d u Reg.UNIT_SNAP_FRAME
  else ((ownerOf d u).map fun p => rdN d (pPart p) Reg.UNIT_SNAP_FRAME).getD 0

/-- Word `w` of UNIT_MEMBER_MAP. -/
def memberMap (d : Dev) (u w : Nat) : Nat :=
  let ms := (members d u).map (· % 1024)
  ((List.range 32).filter fun b => ms.contains (32 * w + b)).foldl (fun n b => n + 2 ^ b) 0

/-- What a header register shows that is not stored. -/
def headerView (d : Dev) (u off : Nat) : Option Nat :=
  if off = Reg.UNIT_ID then some (unitId u)
  else if off = Reg.UNIT_INFO then some (unitInfo d u)
  else if off = Reg.UNIT_OWNER then some (unitOwner d u)
  else if off = Reg.UNIT_POWER then some (unitPower d u)
  else if off = Reg.UNIT_GROUP_READY then some (groupReady d u)
  else if off = Reg.UNIT_SNAP_FRAME then some (snapFrame d u)
  else if Reg.UNIT_MEMBER_MAP ≤ off then some (memberMap d u ((off - Reg.UNIT_MEMBER_MAP) / 4))
  else none

/-! ## Capability registers (Table 02-14) -/

/-- Numbers below `n` that a predicate holds of, as a bit mask. -/
def maskWhere (n : Nat) (p : Nat → Bool) : Nat := ((List.range n).filter p).foldl (fun m i => m + 2 ^ i) 0

/-- A capability register fixed by fuses. -/
def capView (f : Fuses) (off : Nat) : Option Nat :=
  if off = Reg.CTL_CAP_GRADE then some (capGrade f)
  else if off = Reg.CTL_CAP_CELLS then some (f.nCells + 65536 * ((List.range 288).filter f.physCell).length)
  else if off = Reg.CTL_CAP_STACKS then some (maskWhere 8 f.stack)
  else if off = Reg.CTL_CAP_COMBS then some (maskWhere 32 fun k => decide (k < f.nCombs))
  else if off = Reg.CTL_CAP_BOLLUM then some (maskWhere 32 f.bol)
  else if off = Reg.CTL_CAP_LINKS then some (maskWhere 4 f.eth + 0xF30)
  else none

/-! ## Cells and combs (Tables 03-9, 03-10, 04-14, 04-15) -/

/-- The records that a resource of the cell works at in the cycle that the cell has reached: started and not complete. -/
def atWork (x : CellSt) (r : Res) : List InFl :=
  x.inflight.filter fun f => f.started && f.body.res == some r && decide (f.start ≤ x.now) && decide (x.now < f.due)

/-- CEL_ENGINE_STATUS in the cycle that the cell has reached: records that wait in a queue are not at work, and the lags of an idle array
are 0 (R82) (log entry 48, DEDUCED). -/
def engineStatus (x : CellSt) : Nat :=
  let ps := atWork x .array
  let ds := atWork x .drain
  let busy := fun (b : Fin 2) => (ps ++ ds).any fun f => f.body.bank == some b
  let idle := arrayIdle x x.now
  b2n (!ps.isEmpty) + 2 * b2n x.passSplit + 4 * b2n (busy 0) + 8 * b2n (busy 1) + 16 * b2n (!ds.isEmpty)
    + 32 * b2n (x.passBcast && !ps.isEmpty)
    + (if idle then 0 else 256 * min 255 (maxLag x) + 65536 * (maxLane x.lags - minLane x.lags))

/-- The code of a stream state (Table 04-15). -/
def StrmState.code : StrmState → Nat
  | .idle => 0 | .running => 1 | .waitTag => 2 | .waitRes => 3 | .switchedOut => 4 | .done => 5 | .stopped => 6

/-- CEL_FE_STATUS: streams that run, waiting or switched out ones among them, streams DONE and streams STOPPED. -/
def frontStatus (x : CellSt) : Nat :=
  let mask := fun (p : Nat → Bool) => maskWhere 8 fun s => p (strmOf x s).state.code
  mask (fun c => decide (1 ≤ c) && decide (c ≤ 4)) + 256 * mask (· == 5) + 65536 * mask (· == 6)

/-- CEL_STREAM_s: the next record of the block and the state. -/
def streamView (x : CellSt) (s : Nat) : Nat :=
  let y := strmOf x s
  nextRec y % 1024 + 1024 * y.state.code

/-- What a cell register shows that is not stored. -/
def cellView (d : Dev) (c off : Nat) : Option Nat :=
  let x := cellOf d c
  if off = Reg.CEL_ENGINE_STATUS then some (engineStatus x)
  else if off = Reg.CEL_FE_STATUS then some (frontStatus x)
  else if off = Reg.CEL_REMOTE_OUTSTANDING then some x.remotes.length
  else if Reg.CEL_STREAM 0 ≤ off ∧ off ≤ Reg.CEL_STREAM 7 then some (streamView x ((off - Reg.CEL_STREAM 0) / 4))
  else if Reg.CEL_TAGS 0 ≤ off ∧ off ≤ Reg.CEL_TAGS 15 then
    let w := (off - Reg.CEL_TAGS 0) / 4
    some ((tagOf x (2 * w)).count + 65536 * (tagOf x (2 * w + 1)).count)
  else none

/-- CMB_STATUS: the cells in the comb's current broadcast, from its start to its last issue cycle. -/
def combStatus (d : Dev) (k : Nat) : Nat :=
  let now := (List.range 8).foldl (fun n j => max n (cellOf d (8 * k + j)).now) 0
  let b := combOf d k
  if now < b.busy then b.subs + 256 * b2n (b.subs != 0) else 0

/-! ## Engines (Tables 08-13, 14-7, 09-8, 10-8, 11-7) -/

/-- Does a Swarm entry send? -/
def sends : SlotKind → Bool
  | .swm _ (.score _) | .swm _ (.bitmap _) | .swm _ (.route _) | .swm _ (.dispatch _) | .swm _ (.ret _) => true
  | .col send _ => send
  | _ => false

/-- Is a Swarm entry a COMBINE or LIVE_TABLE? -/
def combines : SlotKind → Bool
  | .swm _ (.combine _) | .swm _ (.live _) => true
  | _ => false

/-- SWM_STATUS. -/
def swmStatus (d : Dev) (i : Nat) : Nat :=
  let rs := (((smGet d.swm i).map SwmEng.runs).getD []).filter fun r => !r.fin
  b2n (!rs.isEmpty) + 2 * b2n (rs.any fun r => combines r.what) + 256 * min 255 (rs.filter fun r => sends r.what).length

/-- What a Swarm register shows that is not stored: the engine's state and the group window. -/
def swmView (d : Dev) (i off : Nat) : Option Nat :=
  let g := rdF d (pSwm i) Reg.SWM_COL_SEL 11 0
  let w := smGetD ColStat.init d.col.stats (i * 4096 + g)
  if off = Reg.SWM_STATUS then some (swmStatus d i)
  else if off = Reg.SWM_COL_BIND then
    some (((d.col.binds.find? fun b => b.gid == g).map fun b => b.localId % 256 + 256 * b.part + 4096).getD 0)
  else if off = Reg.SWM_COL_SLOW then some w.slow
  else if off = Reg.SWM_COL_SLOW_FRAME then some w.frame
  else if off = Reg.SWM_COL_LATE_NS then some w.late
  else if off = Reg.SWM_COL_GAP_NS then some w.gap
  else if off = Reg.SWM_COL_LATE_FOLDS then some w.folds
  else none

/-- What a brood register shows that is not stored. -/
def brdView (d : Dev) (off : Nat) : Option Nat :=
  if off = Reg.BRD_STATUS then
    some ((d.brd.table_.filter fun e => e.2.phase != 0).length + 65536 * b2n (d.brd.builds.any fun b => !b.done))
  else if Reg.BRD_WIN_DATA ≤ off ∧ off < Reg.BRD_WIN_DATA + 64 then
    some (match smGet d.brd.shown (rdF d pBrd Reg.BRD_WIN_INDEX 12 0) with
      | some e => leAt (brdBytes e) (off - Reg.BRD_WIN_DATA) 4
      | none => 0)
  else none

/-- Does the staging of a frame's successor run: has a slice been named for it, and is the completion cut, by which it is complete, still
to come (R273, R274)? (log entry 123, DESIGN CHOICE) -/
def stagingRuns (d : Dev) : Bool :=
  (List.range 16).any fun p => loaded d p && (partOf d p).next.isSome && !(partOf d p).cutTaken

/-- What a Forager register shows that is not stored. -/
def forView (d : Dev) (i off : Nat) : Option Nat :=
  if off = Reg.FOR_STATUS then
    some (min 256 (d.tier.runs.filter fun r => r.inst == i && !r.fin).length + 65536 * b2n (stagingRuns d))
  else if off = Reg.FOR_REPAIR_USED then some (d.tier.repairs.filter fun r => r.inst == i).length
  else none

/-- What a CXL register shows that is not stored. -/
def cxlView (d : Dev) (i off : Nat) : Option Nat :=
  if off = Reg.CXL_DIRTY then some (dirtySlots d i)
  else if off = Reg.CXL_STATUS then
    some (rdN d (pCxl i) off + 16 * (b2n (d.tier.preload.any fun q => q.port == i)))
  else none

/-- The pool window: the region selected, which is empty for a pool of the other instance. -/
def poolWindow (d : Dev) (i : Nat) : Nat × Region :=
  let v := rdN d (pVat i) Reg.VAT_POOL_SEL
  let pool := nbits v 3 0
  let sub := if pool < 3 then nbits v 8 4 else if pool < 8 then 0 else nbits v 5 4
  (pool * 64 + sub, if poolInst pool = i then regionOf d.vat pool sub else Region.none_)

/-- Buffers of a region in a state other than FREE, by position and state. -/
def regionBufs (d : Dev) (key : Nat) : List (Nat × BufState) :=
  d.vat.bufs.filterMap fun e =>
    let pool := e.1 / 2 ^ 20
    let idx := e.1 % 2 ^ 20
    if pool * 64 + poolSub pool idx = key ∧ e.2.state ≠ .free then some (poolPos pool idx, e.2.state) else none

/-- Buffers of the selected region that are WITHHELD: listed so, or at positions from the limit up. -/
def poolWithheld (d : Dev) (i : Nat) : Nat :=
  let w := poolWindow d i
  let bs := (regionBufs d w.1).filter fun b => decide (b.1 < min w.2.count w.2.limit) && decide (b.2 = .withheld)
  if w.2.count = 0 then 0 else bs.length + (w.2.count - w.2.limit)

/-- Buffers of the selected region that are FREE. -/
def poolFree (d : Dev) (i : Nat) : Nat :=
  let w := poolWindow d i
  let bs := (regionBufs d w.1).filter fun b => decide (b.1 < min w.2.count w.2.limit)
  min w.2.count w.2.limit - bs.length

/-- What a Vat register shows that is not stored: the pool and the quota window. -/
def vatView (d : Dev) (i off : Nat) : Option Nat :=
  let q := rdN d (pVat i) Reg.VAT_QUOTA_SEL
  if off = Reg.VAT_POOL_BASE then some (poolWindow d i).2.base
  else if off = Reg.VAT_POOL_COUNT then some (poolWindow d i).2.count
  else if off = Reg.VAT_POOL_FREE then some (poolFree d i)
  else if off = Reg.VAT_POOL_WITHHELD then some (poolWithheld d i)
  else if off = Reg.VAT_QUOTA_LIMIT then some (quotaLimit d (nbits q 7 0) (nbits q 9 8))
  else if off = Reg.VAT_QUOTA_USED then some (quotaUsed d (nbits q 7 0) (nbits q 9 8))
  else none

/-! ## Complexes, bring-up, time, security, power (Tables 15-12, 17-11, 18-6, 19-9, 20-9) -/

/-- What a control complex register shows that is not stored: the component and the context selected. -/
def ctlView (d : Dev) (i off : Nat) : Option Nat :=
  let c := rdF d (pCtl i) Reg.CTL_CTX_SEL 7 0
  let x := ctxOf d c
  if off = Reg.CTL_COMP_VERSION then
    some (((smGet d.cpx i).map fun q => smGetD 0 q.versions (rdF d (pCtl i) Reg.CTL_COMP_SEL 3 0)).getD 0)
  else if off = Reg.CTL_CTX_STATE then
    some (x.state.code + 8 * x.part + 128 * b2n x.pinned + 256 * b2n x.preempted + 512 * x.prio + 4096 * x.port
      + 65536 * x.inbox.length)
  else if off = Reg.CTL_CTX_SLICE then some x.slice
  else if off = Reg.CTL_CTX_APPLIED then some x.applied
  else if off = Reg.CTL_CTX_LAST_RUN then some x.lastRun
  else none

/-- BUP_MAP of the physical cell selected. -/
def bupMap (d : Dev) : Nat :=
  let q := rdF d pBup Reg.BUP_MAP_SEL 8 0
  let c := (List.range d.fuses.nCells).find? fun c => physOf d c == q
  c.getD 0 + 256 * b2n c.isSome + 512 * b2n (d.bup.journal.soft.contains (pPhysCell q)) + 1024 * b2n (!d.fuses.physCell q)

/-- What a time register shows that is not stored. -/
def timView (d : Dev) (off : Nat) : Option Nat :=
  if off = Reg.TIM_HALL_TIME then some d.hall
  else if off = Reg.TIM_STATUS then some (rdF d pTim off 7 0 + 256 * (d.tim.locked.filter fun e => e.2).length)
  else if off = Reg.TIM_PORT_OFFSET then
    let p := bolOf d (rdF d pTim Reg.TIM_PORT_SEL 4 0)
    some ((p.offset % 65536).toNat + 65536 * (p.delay % 65536).toNat)
  else none

/-- The log entry in a slot: entry n lies in slot n mod 4,096 (log entry 43, DEDUCED). -/
def logSlot (d : Dev) (i slot : Nat) : List Byte :=
  let l := logOf d i
  l.entries.getD ((slot + 4096 - l.first % 4096) % 4096) []

/-- What a SEC register shows that is not stored. -/
def secView (d : Dev) (i off : Nat) : Option Nat :=
  if Reg.SEC_DEVICE_ID ≤ off ∧ off < Reg.SEC_DEVICE_ID + 32 then some (leAt (idBytes d.fuses.deviceId) (off - Reg.SEC_DEVICE_ID) 4)
  else if off = Reg.SEC_SVN then some (secSvn d)
  else if Reg.SEC_LOG_DATA ≤ off ∧ off < Reg.SEC_LOG_DATA + 64 then
    some (leAt (logSlot d i (rdF d (pSec i) Reg.SEC_LOG_SEL 11 0)) (off - Reg.SEC_LOG_DATA) 4)
  else if Reg.SEC_ATT_WIN_DATA ≤ off ∧ off < Reg.SEC_ATT_WIN_DATA + 256 then
    some (leAt (attOf d i).report (rdN d (pSec i) Reg.SEC_ATT_WIN_OFFSET + (off - Reg.SEC_ATT_WIN_DATA)) 4)
  else none

/-- What a power register shows that is not stored: the selected domain, duty and sensor. -/
def pwrView (d : Dev) (off : Nat) : Option Nat :=
  let n := rdF d pPwr Reg.PWR_DOM_SEL 6 0
  let p := rdF d pPwr Reg.PWR_DUTY_SEL 3 0
  if off = Reg.PWR_DOM_STATUS then some (rdN d pPwr off / 256 * 256 + b2n (domOn d n) + 2 * b2n (domLocked d n))
  else if off = Reg.PWR_DUTY then some ((smGet d.pwr.dutyPend p).getD (smGetD 16 d.pwr.duty p) + 256 * dutyEff d p)
  else if off = Reg.PWR_TEMP then some (smGetD 0 d.pwr.temps (rdF d pPwr Reg.PWR_TEMP_SEL 5 0) % 65536).toNat
  else none

/-! ## Reads -/

/-- What a register past the header shows that is not stored. -/
def ownView (d : Dev) (u off : Nat) : Option Nat :=
  let i := u % 32
  match pageKind u with
  | .device => capView d.fuses off
  | .cell => cellView d (u % 1024) off
  | .comb => if off = Reg.CMB_STATUS then some (combStatus d (u % 1024)) else none
  | .block 0 => ctlView d i off
  | .block 2 => swmView d i off
  | .block 3 => forView d i off
  | .block 4 => vatView d i off
  | .block 5 => brdView d off
  | .block 7 => cxlView d i off
  | .block 11 => timView d off
  | .block 12 => secView d i off
  | .block 13 => pwrView d off
  | .block 14 => if off = Reg.BUP_MAP then some (bupMap d) else none
  | _ => none

/-- Registers fixed by fuses, which a reset does not change. -/
def fusedReg (u off : Nat) : Bool :=
  match pageKind u with
  | .device => decide (Reg.CTL_CAP_GRADE ≤ off) && decide (off ≤ Reg.CTL_CAP_CLOCKS)
  | .block 12 => (decide (Reg.SEC_DEVICE_ID ≤ off) && decide (off < Reg.SEC_DEVICE_ID + 32)) || off == Reg.SEC_SVN
  | _ => false

/-- The value of the register that starts at an offset; the registers of a unit that is RESETTING read as their reset values (R62). -/
def regNow (d : Dev) (u off : Nat) : Nat :=
  if off < 0x100 then (headerView d u off).getD (rdN d u off)
  else if stateIs d u .resetting && !fusedReg u off then (resetVal u off).toNat
  else (ownView d u off).getD (rdN d u off)

/-- A 4-byte read; of a 64-bit register it returns that half (R61). -/
def read4 (d : Dev) (u off : Nat) : Nat :=
  if isWide u off then regNow d u off % 2 ^ 32
  else if off % 8 = 4 ∧ isWide u (off - 4) then regNow d u (off - 4) / 2 ^ 32 % 2 ^ 32
  else regNow d u off % 2 ^ 32

/-- A read of 4 or 8 bytes (R61). -/
def readReg (d : Dev) (u off : Nat) (wide : Bool) : Nat := read4 d u off + (if wide then 2 ^ 32 * read4 d u (off + 4) else 0)

end Sys2Proof.Machine
end

