-- ==== Sys2Proof/Machine/Repair.lean ====
section
/-! DEFINITION. Live repairs (17 R443 to R445, R426, R449): how a repair is asked for, and what each of Table 17-9 does. -/

namespace Sys2Proof.Machine

/-! ## Requests -/

/-- Reports a repair in BUP_REPAIR_STATUS. -/
def repairStatus (d : Dev) (seq result : Nat) : Dev := wrN d pBup Reg.BUP_REPAIR_STATUS (seq % 256 + 256 * result + 4096)

/-- May a requester ask for a repair of a unit: the health agent, or the host with TEST over it (R443)? -/
def mayRepair (pr : Propolis) (r : Requester) (u : Nat) : Bool :=
  if reqKind r = 0 then decide (r = fwReq 4) else granted pr r .test u

/-- A repair begins: BUP_STATUS shows it while it runs. -/
def repairBegins (d : Dev) (op seq path : Nat) (fails : List Nat) : Dev :=
  wrF { d with bup := { d.bup with repair := some ⟨op, seq % 256, path, fails⟩ } } pBup Reg.BUP_STATUS 5 5 1

/-- A write to BUP_REPAIR_CMD: refused by the page, or with PERMISSION, BUSY or BAD_TARGET; otherwise the repair begins
(log entry 59, DEDUCED). -/
def repairAsk (d : Dev) (pr : Propolis) (r : Requester) (op seq path : Nat) (target : Bool) (fails : List Nat) (act : Dev → Dev) : Dev :=
  gated pr d r pBup Reg.BUP_REPAIR_CMD fun d =>
    if !mayRepair pr r path then repairStatus d seq 4
    else if d.bup.repair.isSome then repairStatus d seq 1
    else if !(present d.fuses path && target) then repairStatus d seq 5
    else act (repairBegins d op seq path fails)

/-! ## Sparing (R440, R441) -/

/-- SPARE_CELL and SPARE_COMB: at once, or at the tick that ends the frame of the unit's partition, which is killed. -/
def askSparing (d : Dev) (pr : Propolis) : Dev :=
  match d.bup.repair with
  | none => d
  | some r => match sparingFrame d r.path with
    | some p => fileKill d p 2
    | none => sparingNow pr d

/-! ## CXL devices (R445) -/

/-- Is a buffer of a port's regions in use, or does its cache hold a dirty chunk? -/
def portInUse (d : Dev) (port : Nat) : Bool :=
  (d.vat.bufs.any fun e => decide (8 ≤ e.1 / 2 ^ 20) && poolSub (e.1 / 2 ^ 20) (e.1 % 2 ^ 20) == port && decide (e.2.state ≠ .free)
    && decide (e.2.state ≠ .withheld)) || d.tier.slots.any fun s => s.port == port

/-- Sets which positions of a port's regions are WITHHELD. -/
def limitPort (d : Dev) (port : Nat) (limit : Nat → Region → Nat) : Dev :=
  { d with vat := { d.vat with regions := d.vat.regions.map fun e =>
    if 8 ≤ e.1 / 64 ∧ e.1 % 64 = port then (e.1, { e.2 with limit := limit (e.1 / 64) e.2 }) else e } }

/-- The bytes of a port's windows go with its device. -/
def forgetPort (d : Dev) (port : Nat) : Dev :=
  let out := fun (a : Nat) => !(decide (0x10000000000 + port * 0x8000000000 ≤ a) && decide (a < 0x10000000000 + (port + 1) * 0x8000000000))
    && !(decide (0x40000000000 + port * 0x10000000000 ≤ a) && decide (a < 0x40000000000 + (port + 1) * 0x10000000000))
  let d := (d.marks.filter fun e => !out e.1).foldl (fun d e => dropMark d e.1) d
  { d with mem := d.mem.filter fun e => out e.1 }

/-- CXL_DETACH (log entry 60, DEDUCED). -/
def cxlDetach (d : Dev) (port : Nat) : Dev :=
  if portInUse d port then repairEnd d 3
  else
    let u := pCxl port
    let d := limitPort d port fun _ _ => 0
    let d := wrN (wrN (forgetPort d port) u Reg.CXL_CAP 0) u Reg.CXL_STATUS (4 * rdF d u Reg.CXL_STATUS 3 2)
    let d := { d with tier := { d.tier with preload := d.tier.preload.filter fun q => q.port != port } }
    repairEnd (event (domsOff d (68 + port)) u Reg.CXL_EVENTS 5 Reg.CXL_EVT_ATTACH_CHANGE) 0

/-- CXL_ATTACH: the domain comes on, the link trains and the device is qualified (R256, R428); buffers within its capacity return. It
fails when no capacity of the device qualifies (log entry 60, DEDUCED). -/
def cxlAttach (d : Dev) (port : Nat) (trained : Bool) (x : CxlDevice) : Dev :=
  let u := pCxl port
  let d := if domOn d (68 + port) then d else resetEnd (markDom d (68 + port) true) u
  if !trained then repairEnd d 7
  else
    let d := event (cxlQualify d port (rdF d u Reg.CXL_MODE 1 0) x) u Reg.CXL_EVENTS 5 Reg.CXL_EVT_ATTACH_CHANGE
    if rdN d u Reg.CXL_CAP = 0 then repairEnd d 7
    else
      let d := limitPort d port fun pool r =>
        let top := if pool < 12 then 0x10000000000 + port * 0x8000000000 + cxlBytes d port false
          else 0x40000000000 + port * 0x10000000000 + cxlBytes d port true
        min r.count ((top - r.base) / poolBytes pool)
      repairEnd d 0

/-! ## Stacks, soft-disable entries, the journal -/

/-- RETIRE_STACK: runs until the stack redirects; FAILED when no extents can be taken (R282). -/
def askRetire (d : Dev) (st : Nat) : Dev :=
  let d := startRetire d st
  if (smGet d.tier.retire st).isSome then d else repairEnd d 7

/-- CLEAR_SOFT: the entry is marked for the next cold path (R426). -/
def askClear (d : Dev) (u : Nat) : Dev :=
  let j := d.bup.journal
  repairEnd { d with bup := { d.bup with journal := { j with cleared := if j.cleared.contains u then j.cleared else j.cleared ++ [u] } } } 0

/-- JOURNAL_COMPACTION: with fewer than 8 free segments the monitor writes the snapshot, ends it with SNAPSHOT_END and erases the
segments that it replaces (R449). How many segments that frees is free. -/
def compact (d : Dev) : Dev :=
  let n := rdF d pBup Reg.BUP_JOURNAL 6 0
  if 8 ≤ n then d
  else
    let d := snapshot d
    drawFree (wrN d pBup Reg.BUP_JOURNAL (n + 1 + Config.freeValue d.freeSeq 0 % (126 - n)))

/-! ## The meanings -/

/-- SPARE_CELL (R440). -/
def execSpareCell (requester : Requester) (seq : BitVec 8) (path : BitVec 13) (spareFails : List Nat) (s : State) :
    Host.Outcome State Fault Refusal :=
  onDevP s fun pr d => repairAsk d pr requester 1 seq.toNat path.toNat (decide (pageKind path.toNat = .cell)) spareFails
    fun d => askSparing d pr

/-- SPARE_COMB (R441). -/
def execSpareComb (requester : Requester) (seq : BitVec 8) (path : BitVec 13) (spareFails : List Nat) (s : State) :
    Host.Outcome State Fault Refusal :=
  onDevP s fun pr d => repairAsk d pr requester 2 seq.toNat path.toNat (decide (pageKind path.toNat = .comb)) spareFails
    fun d => askSparing d pr

/-- CXL_DETACH (R445). -/
def execCxlDetach (requester : Requester) (seq : BitVec 8) (path : BitVec 13) (s : State) : Host.Outcome State Fault Refusal :=
  onDevP s fun pr d => repairAsk d pr requester 3 seq.toNat path.toNat (decide (pageKind path.toNat = .block 7)) []
    fun d => cxlDetach d (path.toNat % 32)

/-- CXL_ATTACH (R445): the target is a port without a link. The device's `link` is its lanes and rate, `c` and `f` are the raw size and
the 99.9th-percentile read latency of its two capacities. -/
def execCxlAttach (requester : Requester) (seq : BitVec 8) (path : BitVec 13) (trained : Bool) (link c f : Nat × Nat) (cxl2 : Bool)
    (s : State) : Host.Outcome State Fault Refusal :=
  onDevP s fun pr d => repairAsk d pr requester 4 seq.toNat path.toNat
    (decide (pageKind path.toNat = .block 7) && !rdB d path.toNat Reg.CXL_STATUS 0) []
    fun d => cxlAttach d (path.toNat % 32) trained ⟨path.toNat % 32, c.1, f.1, c.2, f.2, cxl2, link.1, link.2⟩

/-- RETIRE_STACK (R282). -/
def execRetireStack (requester : Requester) (seq : BitVec 8) (path : BitVec 13) (s : State) : Host.Outcome State Fault Refusal :=
  onDevP s fun pr d => repairAsk d pr requester 5 seq.toNat path.toNat
    (decide (pageKind path.toNat = .block 6) && (smGet d.tier.retire (path.toNat % 32)).isNone) [] fun d => askRetire d (path.toNat % 32)

/-- CLEAR_SOFT: needs TEST for the device (R426). -/
def execClearSoft (requester : Requester) (seq : BitVec 8) (path : BitVec 13) (s : State) : Host.Outcome State Fault Refusal :=
  onDevP s fun pr d =>
    if granted pr requester .test pDev then repairAsk d pr requester 6 seq.toNat path.toNat
      (d.bup.journal.soft.contains path.toNat) [] fun d => askClear d path.toNat
    else gated pr d requester pBup Reg.BUP_REPAIR_CMD fun d => repairStatus d seq.toNat 4

/-- JOURNAL_COMPACTION (R449). -/
def execJournalCompaction (s : State) : Host.Outcome State Fault Refusal := onDev s compact

end Sys2Proof.Machine
end

