-- ==== Sys2Proof/Machine/Registers.lean ====
section
/-! DEFINITION. Writes of unit pages (00 R9, R10; 02 R57 to R62), management requests over Hexvan (16 R407, R412), I3C (21 R514,
R515) and writes by firmware. -/

namespace Sys2Proof.Machine

/-! ## Propolis requests through a SEC page (19 R491, Table 19-11) -/

/-- A window entry as SET_WINDOW writes it (Table 13-2). -/
def readWindow (l : List Byte) : WindowEntry :=
  let b := leAt l 0x10 1
  ⟨leAt l 0 8, leAt l 8 8, Fin.ofNat 16 b, bitAt b 4, bitAt b 5, bitAt b 6, bitAt b 7, leAt l 0x12 2, leAt l 0x14 2,
    BitVec.ofNat 16 (leAt l 0x16 2), leAt l 0x18 4, !zeroBytes l 0x11 1 || !zeroBytes l 0x1C 4⟩

/-- A trigger entry (R347). -/
def readTrigger (l : List Byte) : TriggerEntry :=
  ⟨Fin.ofNat 16 (leAt l 0 1), Fin.ofNat 256 (leAt l 2 2), leAt l 4 2, leAt l 6 2, leAt l 8 2, leAt l 10 2, BitVec.ofNat 16 (leAt l 12 2),
    decide (16 ≤ leAt l 0 1) || !zeroBytes l 1 1 || decide (256 ≤ leAt l 2 2)⟩

/-- A grant (Table 19-8). -/
def readGrant (l : List Byte) : GrantEntry :=
  let b := leAt l 8 1
  ⟨BitVec.ofNat 16 (leAt l 0 2), BitVec.ofNat 16 (leAt l 2 2), leAt l 4 2, leAt l 6 2, bitAt b 0, bitAt b 1, bitAt b 2, bitAt b 3,
    decide (16 ≤ b) || !zeroBytes l 9 7⟩

/-- A host data window (Table 19-8). -/
def readHost (l : List Byte) : HostWindow :=
  let a := leAt l 16 1
  let b := leAt l 17 1
  ⟨leAt l 0 8, leAt l 8 8, bitAt a 0, bitAt a 1, bitAt b 0, bitAt b 1, decide (4 ≤ a) || decide (4 ≤ b) || !zeroBytes l 18 14⟩

/-- A request as it stands in SEC_PROP_REQ: how many bytes its entry has, the range of its index, whether its fields are acceptable,
and the change it asks for. -/
def readRequest (d : Dev) (pr : Propolis) (op index : Nat) (e : List Byte) : Option (Nat × Nat × Bool × PropChange) :=
  match op with
  | 1 => let w := readWindow e; some (32, 256, windowOk d pr index w, .window index w.owner.val (some w))
  | 2 => some (0, 256, true, .window index (windowPart pr index) none)
  | 3 => let t := readTrigger e; some (16, 256, triggerOk t, .trigger index t.targetPart.val (some t))
  | 4 => some (0, 256, true, .trigger index (triggerPart pr index) none)
  | 5 => let g := readGrant e; some (16, 64, grantOk g && adminStays pr (.grant index (some g)), .grant index (some g))
  | 6 => some (0, 64, adminStays pr (.grant index none), .grant index none)
  | 7 => let h := readHost e; some (32, 64, hostOk h, .host index (some h))
  | 8 => some (0, 64, true, .host index none)
  | 9 =>
    let x := ctxOf d index
    some (1, 256, decide (leAt e 0 1 < 2), .both index (if x.state = .free then 16 else x.part) (bitAt (leAt e 0 1) 0))
  | 10 => some (48, 8, true, .key index (BitVec.ofNat 384 (leAt e 0 48)))
  | 11 => some (32, 64, true, .revoke index (BitVec.ofNat 256 (beAt e 0 32)))
  | 12 =>
    some (12, 1, decide (leAt e 0 4 < 4) && linkPolicyOk (leAt e 4 4) && decide (leAt e 8 4 ≤ runningSvn d),
      .policy (leAt e 0 4) (leAt e 4 4) (leAt e 8 4))
  | _ => none

/-- A write to SEC_PROP_GO: the request in SEC_PROP_REQ is judged, in the order PERMISSION, BAD_OP, INDEX, BAD_FIELD. -/
def propGo (pr : Propolis) (d : Dev) (i : Nat) (r : Requester) (seq : Nat) : Propolis × Dev :=
  let l := regBytes d (pSec i) Reg.SEC_PROP_REQ 16
  let e := l.drop 4
  match readRequest d pr (leAt l 0 1) (leAt l 2 2) e with
  | none => (pr, propAnswer d seq (if mayAsk pr r then 3 else 2))
  | some (n, size, ok, c) => propDo pr d r seq (leAt l 2 2) size (ok && zeroBytes l 1 1 && zeroBytes e n (60 - n)) c

/-! ## Registers that hold what is written (Table 00-3) -/

/-- The W1C registers of a page kind: offset and the bits that a write of 1 clears. -/
def w1cRegs : PageKind → List (Nat × Nat)
  | .partition => [(Reg.CTL_FRAME_STATUS, 0x3F), (Reg.CTL_RMT_EVENTS, 0xFFFFFFFF), (Reg.CTL_SCHED_EVENTS, 0xFFFFFFFF)]
  | .device => [(Reg.BOL_EVENTS, 0xFFFFFFFF), (Reg.CTL_HLT_EVENTS, 0xFFFFFFFF)]
  | .cell => [(Reg.CEL_EVENTS, 0xFFFFFFFF), (Reg.CEL_FE_EVENTS, 0xFFFFFFFF), (Reg.CAL_EVENTS, 0xFFFFFFFF),
    (Reg.CEL_SP_EVENTS, 0xFFFFFFFF)]
  | .comb => [(Reg.CMB_EVENTS, 0xFFFFFFFF)]
  | .block 0 => [(Reg.CTL_CX_EVENTS, 0xFFFFFFFF)]
  | .block 1 => [(Reg.WGL_EVENTS, 0xFFFFFFFF)]
  | .block 2 => [(Reg.SWM_EVENTS, 0xFFFFFFFF), (Reg.SWM_COL_EVENTS, 0xFFFFFFFF)]
  | .block 3 => [(Reg.FOR_EVENTS, 0xFFFFFFFF)]
  | .block 4 => [(Reg.VAT_EVENTS, 0xFFFFFFFF)]
  | .block 5 => [(Reg.BRD_EVENTS, 0xFFFFFFFF)]
  | .block 6 => [(Reg.MEM_EVENTS, 0xFFFFFFFF)]
  | .block 7 => [(Reg.CXL_EVENTS, 0xFFFFFFFF)]
  | .block 8 => [(Reg.BOL_PORT_EVENTS, 0xFFFFFFFF)]
  | .block 9 => [(Reg.HXV_EVENTS, 0xFFFFFFFF)]
  | .block 10 => [(Reg.ETH_EVENTS, 0xFFFFFFFF)]
  | .block 11 => [(Reg.TIM_EVENTS, 0xFFFFFFFF), (Reg.TIM_LS_EVENTS, 0xFFFFFFFF)]
  | .block 12 => [(Reg.SEC_EVENTS, 0xFFFFFFFF)]
  | .block 13 => [(Reg.PWR_EVENTS, 0xFFFFFFFF)]
  | .block 14 => [(Reg.BUP_EVENTS, 0xFFFFFFFF)]
  | _ => []

/-- A RW register with no effect beside holding its value: offset, written bits, and the range of a value that is not refused. -/
structure RwReg where
  off  : Nat
  mask : Nat
  lo   : Nat
  hi   : Nat
  deriving DecidableEq, Repr

/-- All 32 bits of a register. -/
def rw32 (off : Nat) : RwReg := ⟨off, 0xFFFFFFFF, 0, 0xFFFFFFFF⟩

/-- A register that takes every value of its written bits. -/
def rwMask (off mask : Nat) : RwReg := ⟨off, mask, 0, mask⟩

/-- The RW registers of a page kind that only hold their values. -/
def rwRegs : PageKind → List RwReg
  | .partition => [⟨Reg.CTL_RMT_QUERY_CFG, 0xF, 1, 15⟩, ⟨Reg.CTL_SCHED_CFG, 0xFFFF, 1, 65535⟩, rw32 Reg.CTL_TRACE_BASE,
    rw32 Reg.CTL_TRACE_BYTES]
  | .device => [rw32 Reg.BOL_HALL_PREFIX, rw32 (Reg.BOL_HALL_PREFIX + 4), rw32 (Reg.BOL_HALL_PREFIX + 8),
    rwMask Reg.CTL_HLT_COUNT_MASK 0xFF]
  | .block 0 => [rwMask Reg.CTL_COMP_SEL 0xF, rwMask Reg.CTL_CTX_SEL 0xFF]
  | .block 2 => [rwMask Reg.SWM_COL_SEL 0xFFF]
  | .block 4 => [rwMask Reg.VAT_POOL_SEL 0x1FF, rwMask Reg.VAT_QUOTA_SEL 0x3FF]
  | .block 5 => [rwMask Reg.BRD_WIN_INDEX 0x1FFF]
  | .block 6 => [⟨Reg.MEM_PATROL, 0xFF, 1, 64⟩]
  | .block 7 => [⟨Reg.CXL_CACHE, 0x3F, 0, 32⟩, ⟨Reg.CXL_PATROL, 0xFF, 1, 255⟩]
  | .block 8 => [rw32 Reg.BOL_INJECT_SEED]
  | .block 9 => [rw32 Reg.HXV_INJECT_SEED, rwMask Reg.HXV_INJECT_CLASS 0xFFF]
  | .block 11 => [rwMask Reg.TIM_PORT_SEL 0x1F]
  | .block 12 => [rwMask Reg.SEC_LOG_SEL 0xFFF, rwMask Reg.SEC_ATT_WIN_OFFSET 0x1FF00]
    ++ (List.range 16).map (fun i => rw32 (Reg.SEC_PROP_REQ + 4 * i)) ++ (List.range 8).map (fun i => rw32 (Reg.SEC_ATT_NONCE + 4 * i))
  | .block 13 => [⟨Reg.PWR_PKG_LIMIT, 0xFFF, 500, 2000⟩, ⟨Reg.PWR_DOM_SEL, 0x7F, 0, 79⟩, rwMask Reg.PWR_DUTY_SEL 0xF,
    rwMask Reg.PWR_TEMP_SEL 0x3F]
  | .block 14 => [rwMask Reg.BUP_BOOT_CFG 1, ⟨Reg.BUP_MAP_SEL, 0x1FF, 0, 287⟩]
  | _ => []

/-- The bits of a number that a mask lets through. -/
def maskN (v m : Nat) : Nat := (BitVec.ofNat 64 v &&& BitVec.ofNat 64 m).toNat

/-- A W1C write clears the bits written as 1 (R10). -/
def clearW1c (d : Dev) (u off mask v : Nat) : Dev :=
  wr d u off (rd d u off &&& ~~~(BitVec.ofNat 64 v &&& BitVec.ofNat 64 mask))

/-- A RW write: reserved bits are not written, a value outside its range is refused and the register keeps its value. -/
def writePlain (d : Dev) (u : Nat) (q : RwReg) (v : Nat) : Dev :=
  let n := maskN v q.mask
  if q.lo ≤ n ∧ n ≤ q.hi then wrN d u q.off n else d

/-! ## Registers with an effect -/

/-- Free truth value `k` of a draw. -/
def freeBit (d : Dev) (k : Nat) : Bool := Config.freeValue d.freeSeq k % 2 == 1

/-- A write to BUP_REPAIR_CMD as a register write: what tests and training find is free (R443). An OP that Table 17-9 does not list is
answered with BAD_TARGET. -/
def writeRepair (pr : Propolis) (r : Requester) (v : Nat) (d : Dev) : Dev :=
  let seq := vf v 15 8
  let u := vf v 28 16
  let ask := fun (op : Nat) (target : Bool) (fails : List Nat) (act : Dev → Dev) => repairAsk d pr r op seq u target fails act
  let fails := (List.range 324).filter (freeBit d)
  match vf v 3 0 with
  | 1 => drawFree (ask 1 (decide (pageKind u = .cell)) fails fun d => askSparing d pr)
  | 2 => drawFree (ask 2 (decide (pageKind u = .comb)) fails fun d => askSparing d pr)
  | 3 => ask 3 (decide (pageKind u = .block 7)) [] fun d => cxlDetach d (u % 32)
  | 4 => drawFree (ask 4 (decide (pageKind u = .block 7) && !rdB d u Reg.CXL_STATUS 0) [] fun x =>
      let n := Config.freeValue d.freeSeq
      cxlAttach x (u % 32) (freeBit d 0) ⟨u % 32, n 1, n 2, n 3, n 4, freeBit d 5, n 6, n 7⟩)
  | 5 => ask 5 (decide (pageKind u = .block 6) && (smGet d.tier.retire (u % 32)).isNone) [] fun d => askRetire d (u % 32)
  | 6 => if granted pr r .test pDev then ask 6 (d.bup.journal.soft.contains u) [] fun d => askClear d u else repairStatus d seq 4
  | _ => repairStatus d seq (if mayRepair pr r u then 5 else 4)

/-- A write to TIM_LS_CTL as a register write: what the partner answers is free (R463). -/
def writeLsCtl (pr : Propolis) (r : Requester) (v : Nat) (d : Dev) : Dev :=
  if bitAt v 0 then
    drawFree (lsArm d pr r v (freeBit d 0) (freeBit d 1) (freeBit d 2) (if freeBit d 3 then 224 else 256))
  else lsDisarm d v

/-- A write to TIM_LS_LOG: 64 to 4,096, while lock-step is OFF (R471). -/
def writeLsLog (d : Dev) (v : Nat) : Dev :=
  let n := v % 8192
  if lsState d = 0 ∧ 64 ≤ n ∧ n ≤ 4096 then wrN d pTim Reg.TIM_LS_LOG n else d

/-- A write to PWR_DOM_CTL: ON or OFF; both together are refused. -/
def writeDomCtl (d : Dev) (v : Nat) : Dev :=
  if bitAt v 0 && bitAt v 1 then d
  else if bitAt v 0 then domControl d true (vf v 15 8)
  else if bitAt v 1 then domControl d false (vf v 15 8)
  else d

/-- Is any Bollum port past TRAINING (R304)? -/
def pastTraining (d : Dev) : Bool := (List.range 32).any fun i => d.fuses.bol i && decide (2 ≤ bolState d i)

/-- A write to a fabric register of the device page (R304, Table 12-8). -/
def writeFabric (d : Dev) (off v : Nat) : Dev :=
  if off = Reg.BOL_PLACE then if pastTraining d then d else wrN d pDev off (v / 8192 * 8192)
  else if off = Reg.BOL_POD_SHAPE then
    if pastTraining d || decide (v % 32 < 1) || decide (16 < v % 32) then d else wrN d pDev off (v % 32)
  else if v % 16 = 0 ∨ v / 65536 = 0 then d
  else wrN d pDev Reg.BOL_FABRIC_CFG (v % 16 + v / 65536 * 65536)

/-- The security monitor writes a policy register; both pages show it (R493). -/
def writePolicy (d : Dev) (off v : Nat) : Dev :=
  if off = Reg.SEC_POLICY then wrN (wrN d (pSec 0) off (v % 4)) (pSec 1) off (v % 4)
  else if v % 4 = 3 ∨ v / 4 % 4 = 3 then d
  else wrN (wrN d (pSec 0) off (v % 16)) (pSec 1) off (v % 16)

/-- A write of the scheduler's name for the next frame (R388, R389). -/
def writeSched (d : Dev) (p off v : Nat) : Dev :=
  if off = Reg.CTL_SCHED_NEXT then modPart (wrN d (pPart p) off (v % 512)) p fun t => { t with written := true }
  else wrN d (pPart p) off v

/-- A write to CXL_MODE. A tier that becomes READ_WRITE does so at the next tick (log entry 67, DEDUCED). For one that becomes READ_ONLY
the tier manager's steps begin: loads of images that write into it are refused, the partitions that have such images are quiesced, and
the value takes effect at the first tick at which they are and the tier's slots have drained (R264) (log entry 118, DESIGN CHOICE). -/
def writeCxlMode (d : Dev) (i v : Nat) : Dev :=
  let d := wrN d (pCxl i) Reg.CXL_MODE (v % 4)
  let asked := [2, 3].filter fun t => bitAt v (t - 2) && !tierRO d t i
  let d := { d with tier := { d.tier with roPend := (d.tier.roPend.filter fun e => e.1 != i) ++ [(i, v % 4)] } }
  ((List.range 16).filter fun p => (images d p).any fun e => asked.any fun t => writesTier e.2 t i).foldl (fun d p =>
    unitCommand d (fun _ => true) (pPart p) 2 0 0) d

/-- A command that a requester needs TEST for. -/
def testWrite (pr : Propolis) (d : Dev) (r : Requester) (u off : Nat) (g : Dev → Dev) : Dev :=
  if granted pr r .test u then g d else refuseAccess d r u off 2 true

/-- May a requester command a member unit (R54, R64)? -/
def mayCommand (pr : Propolis) (r : Requester) (u : Nat) : Bool := reqKind r != 1 || granted pr r .write u

/-- A write to a header register. -/
def writeHeader (pr : Propolis) (d : Dev) (r : Requester) (u off v : Nat) : Dev :=
  if off = Reg.UNIT_CMD then unitCommand d (mayCommand pr r) u (vf v 3 0) (vf v 15 8) (vf v 19 16)
  else if off = Reg.UNIT_EVENTS then clearW1c d u off 0x3F v
  else if off = Reg.UNIT_EVENT_MASK then wrN d u off (maskN v 0x1003F)
  else d

/-- A write to a register with an effect; none for a register without one. -/
def writeSpecial (pr : Propolis) (d : Dev) (r : Requester) (u off v : Nat) : Option Dev :=
  let i := u % 32
  match pageKind u with
  | .partition =>
    let p := u % 1024
    if off = Reg.CTL_FRAME_NEXT then some (writeFrameNext d p v)
    else if off = Reg.CTL_KILL_REQ then some (writeKill d p v)
    else if off = Reg.CTL_SCHED_NEXT ∨ off = Reg.CTL_SCHED_SLICE then some (writeSched d p off v)
    else if off = Reg.CTL_TRACE_CTL then some (writeTrace pr p r v d)
    else none
  | .device =>
    if off = Reg.BOL_PLACE ∨ off = Reg.BOL_POD_SHAPE ∨ off = Reg.BOL_FABRIC_CFG then some (writeFabric d off v)
    else if off = Reg.CTL_INJ_CTL then some (writeInj pr r v d)
    else none
  | .block 7 => if off = Reg.CXL_MODE then some (writeCxlMode d i v) else none
  | .block 8 =>
    if off = Reg.BOL_SPARE_ROLE then some (spareControl d i v)
    else if off = Reg.BOL_LANE_CTL then some (laneControl d i v)
    else if off = Reg.BOL_INJECT then some (testWrite pr d r u off (writeBolInject i v))
    else none
  | .block 9 => if off = Reg.HXV_INJECT then some (testWrite pr d r u off (writeHxvInject i v)) else none
  | .block 11 =>
    if off = Reg.TIM_LS_CTL then some (writeLsCtl pr r v d)
    else if off = Reg.TIM_LS_LOG then some (writeLsLog d v)
    else none
  | .block 12 =>
    if off = Reg.SEC_POLICY ∨ off = Reg.SEC_LINK_POLICY then some (writePolicy d off v)
    else if off = Reg.SEC_ATT_CTL then some (attRequest d pr i r v)
    else none
  | .block 13 =>
    if off = Reg.PWR_CLOCK_NEXT then some (writeClockNext d v)
    else if off = Reg.PWR_DOM_CTL then some (writeDomCtl d v)
    else if off = Reg.PWR_DUTY then some (writeDuty d v)
    else none
  | .block 14 => if off = Reg.BUP_REPAIR_CMD then some (writeRepair pr r v d) else none
  | _ => none

/-- The 64-bit registers that can be written, and the write of one. -/
def writeWide (d : Dev) (u off v : Nat) : Option Dev :=
  match pageKind u with
  | .partition => if off = Reg.CTL_FRAME_SWITCH then some (writeFrameSwitch d (u % 1024) v) else none
  | .device => if off = Reg.CTL_INJ_ADDR then some (wrN d u off v) else none
  | .block 13 => if off = Reg.PWR_CLOCK_SWITCH then some (wrN d u off v) else none
  | _ => none

/-- A 32-bit register past the header is written. -/
def writeOwn (pr : Propolis) (d : Dev) (r : Requester) (u off v : Nat) : Dev :=
  match writeSpecial pr d r u off v with
  | some d' => d'
  | none =>
    match (w1cRegs (pageKind u)).lookup off with
    | some m =>
      let d := clearW1c d u off m v
      if u = pDev ∧ off = Reg.CTL_HLT_EVENTS then hltSync d else d
    | none => match (rwRegs (pageKind u)).find? fun q => q.off == off with
      | some q => writePlain d u q v
      | none => d

/-- A write of 4 bytes (R61); of a 64-bit register it replaces that half (log entry 91, DEDUCED). -/
def write4 (pr : Propolis) (d : Dev) (r : Requester) (u off v : Nat) : Propolis × Dev :=
  if off < 0x100 then (pr, writeHeader pr d r u off v)
  else if isWide u off then
    (pr, (writeWide d u off (rdN d u off / 2 ^ 32 * 2 ^ 32 + v)).getD d)
  else if off % 8 = 4 ∧ isWide u (off - 4) then
    (pr, (writeWide d u (off - 4) (rdN d u (off - 4) % 2 ^ 32 + 2 ^ 32 * v)).getD d)
  else if (match pageKind u with | .block 12 => off == Reg.SEC_PROP_GO | _ => false) then propGo pr d (u % 32) r (v % 256)
  else (pr, writeOwn pr d r u off v)

/-- A write of 4 or 8 bytes: a 64-bit register at once, two 32-bit registers one after the other, the lower one first (R61). -/
def writeReg (pr : Propolis) (d : Dev) (r : Requester) (u off v : Nat) (wide : Bool) : Propolis × Dev :=
  if !wide then write4 pr d r u off (v % 2 ^ 32)
  else if isWide u off then (pr, (writeWide d u off (v % 2 ^ 64)).getD d)
  else
    let q := write4 pr d r u off (v % 2 ^ 32)
    write4 q.1 q.2 r u (off + 4) (v / 2 ^ 32 % 2 ^ 32)

/-! ## Accesses to management space (R60 to R64) -/

/-- The answer to an access: the tables after it, the device after it, the code of Table 02-13 (0 when accepted), what was read. -/
structure AccessAns where
  prop : Propolis
  dev  : Dev
  code : Nat
  data : Nat
  deriving DecidableEq, Repr

/-- An access of a requester with a code judged before: carried out, or refused and recorded. -/
def doAccess (pr : Propolis) (d : Dev) (r : Requester) (addr code : Nat) (wide write : Bool) (v : Nat) : AccessAns :=
  let u := addr / 4096
  let off := addr % 4096
  if code ≠ 0 then ⟨pr, refuseAccess d r u off code write, code, 0⟩
  else if write then
    let q := writeReg pr d r u off v wide
    ⟨q.1, q.2, 0, 0⟩
  else ⟨pr, d, 0, readReg d u off wide⟩

/-- The code of a write with its value: a component that may not write this value is refused as one that may not write the
register (R392). -/
def valueCode (code : Nat) (r : Requester) (u off v : Nat) (wide write : Bool) : Nat :=
  let ok := fwMayValue r.toNat u off (v % 2 ^ 32) && (!wide || fwMayValue r.toNat u (off + 4) (v / 2 ^ 32 % 2 ^ 32))
  if write && reqKind r == 0 && !ok && (code == 0 || code == 4 || code == 5) then 2 else code

/-- An access of 4 or 8 bytes. -/
def access (pr : Propolis) (d : Dev) (r : Requester) (addr : Nat) (wide write : Bool) (v : Nat) : AccessAns :=
  let u := addr / 4096
  let off := addr % 4096
  doAccess pr d r addr (valueCode (accessCode d pr r u off wide write) r u off v wide write) wide write v

/-! ## Hexvan and I3C -/

/-- The Hexvan requester of a port (R63). -/
def hxvReq (i : Nat) : Requester := BitVec.ofNat 16 (4096 + i % 2)

/-- A management request: width and direction in AUX; a width other than 4 or 8 is refused as such. -/
def mgmtAccess (pr : Propolis) (d : Dev) (i : Nat) (p : HxvIn) : AccessAns :=
  let n := p.aux % 16
  let write := bitAt p.aux 4
  if n = 4 ∨ n = 8 then access pr d (hxvReq i) p.addr (n == 8) write (leNat p.payload)
  else doAccess pr d (hxvReq i) p.addr 3 false write 0

/-- The reply to a management request: its code, and the bytes of a read that was accepted. -/
def mgmtReply (d : Dev) (i : Nat) (p : HxvIn) (a : AccessAns) : Dev :=
  let bs := if bitAt p.aux 4 || a.code != 0 then [] else leBytes (p.aux % 16) a.data
  hxvSend d i (hxvPkt 7 false p.reqId p.addr a.code 0 p.aux bs)

/-- MGMT_REQ (log entry 93, DEDUCED). -/
def mgmtIn (pr : Propolis) (d : Dev) (i : Nat) (raw : List Byte) : Propolis × Dev :=
  let t := hxvTake d i 6 raw
  match t.2 with
  | none => (pr, t.1)
  | some p =>
    let a := mgmtAccess pr t.1 i p
    (a.prop, mgmtReply a.dev i p a)

/-- The I3C requester (R63). -/
def i3cReq : Requester := 0x2000

/-- Code of an I3C access: 2 for whatever I3C does not reach, then as any other access (R514). -/
def i3cCode (d : Dev) (pr : Propolis) (u off : Nat) (wide write : Bool) : Nat :=
  if !(if write then !wide && i3cMayWrite u off else i3cMayRead u off (accBytes wide)) then 2
  else accessCode d pr i3cReq u off wide write

/-- An I3C transfer; the target answers from the release of RESET_N (log entry 92, DEDUCED). -/
def i3cIn (pr : Propolis) (d : Dev) (addr : Nat) (wide write : Bool) (v : Nat) : Propolis × Dev :=
  if !d.pins.resetReleased then (pr, d)
  else
    let a := doAccess pr d i3cReq addr (i3cCode d pr (addr / 4096) (addr % 4096) wide write) wide write v
    let data := if write then a.dev.pins.i3cData else if a.code = 0 then a.data else 0xFFFFFFFF
    (a.prop, { a.dev with pins := { a.dev.pins with i3cData := data } })

/-- An in-band interrupt that is due is raised with WORST (R515). -/
def i3cRaise (d : Dev) : Dev :=
  if d.pins.ibi then
    { d with pins := { d.pins with ibi := false, ibiSent := (rdF d pDev Reg.CTL_HLT_SUMMARY 2 0 :: d.pins.ibiSent).take 16 } }
  else d

/-! ## The meanings -/

/-- MGMT_REQ (R407, R412). -/
def execMgmtReq (port : Fin 2) (raw : List Byte) (s : State) : Host.Outcome State Fault Refusal :=
  let q := mgmtIn s.prop s.dev port.val raw
  .next { s with prop := q.1, dev := q.2 }

/-- I3C_ACCESS (R514). -/
def execI3cAccess (addr : Nat) (wide : Bool) (write : Bool) (value : W32) (s : State) : Host.Outcome State Fault Refusal :=
  let q := i3cIn s.prop s.dev addr wide write value.toNat
  .next { s with prop := q.1, dev := q.2 }

/-- I3C_IBI (R515). -/
def execI3cIbi (s : State) : Host.Outcome State Fault Refusal := onDev s i3cRaise

/-- REGISTER_WRITE (R59, R61): a requester's write of 4 or 8 bytes. -/
def execRegisterWrite (requester : Requester) (addr : Nat) (wide : Bool) (value : W64) (s : State) : Host.Outcome State Fault Refusal :=
  let a := access s.prop s.dev requester addr wide true value.toNat
  .next { s with prop := a.prop, dev := a.dev }

end Sys2Proof.Machine
end

