-- ==== Sys2Proof/Machine/Time.lean ====
section
/-! DEFINITION. Hall time (18 R451 to R456): pulses and messages of the tray controller, beacons, and the time states. -/

namespace Sys2Proof.Machine

/-- Changes the time block. -/
def modTim (d : Dev) (g : TimSt → TimSt) : Dev := { d with tim := g d.tim }

/-- STATE of TIM_STATUS (Table 18-1). -/
def timeState (d : Dev) : Nat := rdF d pTim Reg.TIM_STATUS 2 0

/-- Does hall time run in this phase: step 7 and after? -/
def timePhase (d : Dev) : Bool := phase d == 6 || phase d == 7

/-- A signed value as a 32-bit register shows it. -/
def signed32 (i : Int) : Nat := (i % 2 ^ 32).toNat

/-- A change of time state: STATE_CHANGE, and the event of the state entered (R456). FAULT fails the TIM block and is a class 6
event. -/
def enterTime (d : Dev) (n : Nat) : Dev :=
  if timeState d = n ∨ timeState d = 4 then d
  else
    let d := hltSync (hdrEvent (wrF d pTim Reg.TIM_STATUS 2 0 n) pTim .stateChange)
    let d := if 2 ≤ n then event d pTim Reg.TIM_EVENTS (n - 2) (Reg.TIM_EVT_HOLDOVER + 4 * (n - 2)) else d
    if n = 4 then classEvent (wrF d pTim Reg.UNIT_STATE 2 0 UState.failed.code) 6 pTim 0 else becomeReady d

/-- The servo's correction in force is within 10,000 parts per 10^9; the spec does not give its law. -/
def servo (d : Dev) : Dev :=
  drawFree (wrN d pTim Reg.TIM_RATE_ADJ (signed32 (Int.ofNat (Config.freeValue d.freeSeq 0 % 20001) - 10000)))

/-- The offset from the reference in use moves the time state (Table 18-1). -/
def judgeOffset (d : Dev) (off : Int) (calm : Nat) : Dev :=
  let d := servo (wrN d pTim Reg.TIM_OFFSET (signed32 off))
  if 1000 < off.natAbs then enterTime d 4 else if 20 < off.natAbs then enterTime d 3 else if calm = 0 then d else enterTime d calm

/-! ## Beacons (R454, R455) -/

/-- The sorted values of a list. -/
def sortInt (l : List Int) : List Int := sortBy (fun a b => decide (a < b)) l

/-- The median; of an even count the mean of the middle two, rounded as a free bit says (log entry 20, DESIGN CHOICE). -/
def median (l : List Int) (bit : Nat) : Int :=
  let s := sortInt l
  let n := s.length
  if n % 2 = 1 then s.getD (n / 2) 0 else (s.getD (n / 2 - 1) 0 + s.getD (n / 2) 0 + Int.ofNat (bit % 2)) / 2

/-- The ports in service whose partners report LOCKED. -/
def lockedPorts (d : Dev) : List Nat :=
  (List.range 32).filter fun i => smGetD false d.tim.locked i && (let s := bolState d i; s == 3 || s == 4 || s == 7)

/-- The median beacon offset over those ports, if there is one: partner's counter minus own. -/
def beaconOffset (d : Dev) : Option Int :=
  let l := (lockedPorts d).filter fun i => !(bolOf d i).history.isEmpty
  if l.isEmpty then none else some (median (l.map fun i => (bolOf d i).offset) (Config.freeValue d.freeSeq 1))

/-- Does the servo follow tray time: fewer than 3 pulses in a row voided or missing? -/
def trayValid (d : Dev) : Bool := decide (d.tim.void < 3)

/-- Sets SOURCE. -/
def setSource (d : Dev) (n : Nat) : Dev := wrF d pTim Reg.TIM_STATUS 4 3 n

/-- Without tray time the beacons steer: they set the counter at bring-up, and keep HOLDOVER; without them there is no
reference (R455, R456). -/
def followBeacons (d : Dev) : Dev :=
  match beaconOffset d with
  | none => enterTime (setSource d 0) 3
  | some o =>
    let d := setSource (drawFree d) 2
    if !d.tim.set then judgeOffset (modTim { d with hall := (Int.ofNat d.hall + o).toNat } fun t => { t with set := true }) 0 2
    else judgeOffset d (-o) 2

/-- BEACON_EXCHANGE: delay and offset of a port; one whose delay has changed by more than 5 ns is discarded. -/
def beacon (d : Dev) (i : Nat) (t1 t2 t3 t4 asym : Int) (lock : Bool) : Dev :=
  let s := bolState d i
  if !(s == 3 || s == 4 || s == 7) then d
  else
    let delay := ((t4 - t1) - (t3 - t2)) / 2
    let off := (t2 - t1) - delay - asym
    let p := bolOf d i
    let ok := p.history.isEmpty || decide ((delay - p.delay).natAbs ≤ 5)
    let h := if ok then (off :: p.history).take 8 else p.history
    let med := if ok then median h (Config.freeValue d.freeSeq 0) else p.offset
    let d := drawFree (modBol d i fun q => { q with history := h, offset := med, delay := delay, good := ok })
    let d := modTim d fun t => { t with locked := smPutD false t.locked i lock }
    if timePhase d && !trayValid d && (beaconOffset d).isSome then followBeacons d else d

/-! ## Tray time (R452, R453) -/

/-- TIME_PULSE: the counter at an edge waits for its message. -/
def pulse (d : Dev) (counter : Nat) : Dev := if timePhase d then modTim d fun t => { t with edge := some counter } else d

/-- A pulse is voided or missing; after 3 in a row the servo leaves tray time. An edge whose message came late or was wrong sets
PULSE_VOID. -/
def pulseLost (d : Dev) (edge : Bool) : Dev :=
  if !timePhase d then d
  else
    let d := if edge then event d pTim Reg.TIM_EVENTS 4 Reg.TIM_EVT_PULSE_VOID else d
    let d := modTim d fun t => { t with edge := none, good := 0, void := t.void + 1 }
    if trayValid d then d
    else if d.tim.set || (beaconOffset d).isSome then followBeacons d
    else d

/-- TIME_MESSAGE: the hall time of the last edge. The first one sets the counter (R451); a time that is no whole millisecond voids
the pulse. -/
def timeMessage (d : Dev) (t : Nat) : Dev :=
  if !timePhase d then d
  else match d.tim.edge with
    | none => d
    | some c =>
      if t % 1000000 ≠ 0 then pulseLost d true
      else
        let first := !d.tim.set
        let off : Int := if first then 0 else Int.ofNat c - Int.ofNat t
        let good := if off.natAbs ≤ 10 then d.tim.good + 1 else 0
        let d := if first then { d with hall := t } else d
        let d := modTim d fun x => { x with set := true, edge := none, void := 0, good := good }
        let d := setSource d 1
        let apart := timeState d == 1 && (match beaconOffset d with
          | some o => decide (40 < o.natAbs)
          | none => false)
        let d := if apart then event d pTim Reg.TIM_EVENTS 3 Reg.TIM_EVT_TIME_DISAGREE else d
        judgeOffset d off (if 16 ≤ good then 1 else 0)

/-- NO_REFERENCE_TIMEOUT: 10 s without tray time and without beacons (R456). -/
def noReference (d : Dev) : Dev :=
  if timePhase d && (!trayValid d || !d.tim.set) && (beaconOffset d).isNone then enterTime (setSource d 0) 4 else d

/-! ## The meanings -/

/-- TIME_PULSE (R452). -/
def execTimePulse (counter : Nat) (s : State) : Host.Outcome State Fault Refusal := onDev s fun d => pulse d counter

/-- TIME_MESSAGE (R451 to R453, R455, R456). -/
def execTimeMessage (hallTime : Nat) (s : State) : Host.Outcome State Fault Refusal := onDev s fun d => timeMessage d hallTime

/-- PULSE_VOID (R452, R456): `late` tells an edge whose message is late from an edge that is missing. -/
def execPulseVoid (late : Bool) (s : State) : Host.Outcome State Fault Refusal := onDev s fun d => pulseLost d late

/-- NO_REFERENCE_TIMEOUT (R456). -/
def execNoReferenceTimeout (s : State) : Host.Outcome State Fault Refusal := onDev s noReference

/-- BEACON_EXCHANGE (R454 to R456). -/
def execBeaconExchange (port : Fin 32) (t1 t2 t3 t4 asym : Int) (partnerLocked : Bool) (s : State) : Host.Outcome State Fault Refusal :=
  onDev s fun d => beacon d port.val t1 t2 t3 t4 asym partnerLocked

end Sys2Proof.Machine
end

