-- ==== Sys2Proof/Machine/Dispatch.lean ====
section
/-! DEFINITION. The dispatch: one arm per command, each one call of that command's meaning. -/

namespace Sys2Proof.Machine

/-- The effect of a command on everything but the queue (log entry 17, DEDUCED). -/
def exec (i : Instr) (s : State) : Host.Outcome State Fault Refusal :=
  match i with
  | .completionCut p => Sys2Proof.Machine.execCompletionCut p s
  | .tick p => Sys2Proof.Machine.execTick p s
  | .gridPoint => Sys2Proof.Machine.execGridPoint s
  | .markerReceive p src frame commit => Sys2Proof.Machine.execMarkerReceive p src frame commit s
  | .markerLate p src frame => Sys2Proof.Machine.execMarkerLate p src frame s
  | .killRequest p value => Sys2Proof.Machine.execKillRequest p value s
  | .cellNop a h => Sys2Proof.Machine.execCellNop a h s
  | .endRec a h => Sys2Proof.Machine.execEndRec a h s
  | .waitRec a h => Sys2Proof.Machine.execWaitRec a h s
  | .fence a h => Sys2Proof.Machine.execFence a h s
  | .load a h x => Sys2Proof.Machine.execLoad a h x s
  | .store a h x => Sys2Proof.Machine.execStore a h x s
  | .fill a h x => Sys2Proof.Machine.execFill a h x s
  | .pass a h x => Sys2Proof.Machine.execPass a h x s
  | .passSplit a h x => Sys2Proof.Machine.execPassSplit a h x s
  | .broadcastPassStart k cycle => Sys2Proof.Machine.execBroadcastPassStart k cycle s
  | .drain a h x => Sys2Proof.Machine.execDrain a h x s
  | .vectorCopy a h x => Sys2Proof.Machine.execVectorCopy a h x s
  | .vectorAdd a h x => Sys2Proof.Machine.execVectorAdd a h x s
  | .vectorSub a h x => Sys2Proof.Machine.execVectorSub a h x s
  | .vectorMul a h x => Sys2Proof.Machine.execVectorMul a h x s
  | .vectorFma a h x => Sys2Proof.Machine.execVectorFma a h x s
  | .vectorMax a h x => Sys2Proof.Machine.execVectorMax a h x s
  | .vectorMin a h x => Sys2Proof.Machine.execVectorMin a h x s
  | .vectorScale a h x => Sys2Proof.Machine.execVectorScale a h x s
  | .vectorExp a h x => Sys2Proof.Machine.execVectorExp a h x s
  | .vectorRecip a h x => Sys2Proof.Machine.execVectorRecip a h x s
  | .vectorRsqrt a h x => Sys2Proof.Machine.execVectorRsqrt a h x s
  | .vectorSum a h x => Sys2Proof.Machine.execVectorSum a h x s
  | .vectorAmax a h x => Sys2Proof.Machine.execVectorAmax a h x s
  | .send a h x => Sys2Proof.Machine.execSend a h x s
  | .rload a h x => Sys2Proof.Machine.execRload a h x s
  | .rstore a h x => Sys2Proof.Machine.execRstore a h x s
  | .ratomicAdd a h x => Sys2Proof.Machine.execRatomicAdd a h x s
  | .ratomicMin a h x => Sys2Proof.Machine.execRatomicMin a h x s
  | .ratomicMax a h x => Sys2Proof.Machine.execRatomicMax a h x s
  | .ratomicSwap a h x => Sys2Proof.Machine.execRatomicSwap a h x s
  | .ratomicCas a h x => Sys2Proof.Machine.execRatomicCas a h x s
  | .ratomicAnd a h x => Sys2Proof.Machine.execRatomicAnd a h x s
  | .ratomicOr a h x => Sys2Proof.Machine.execRatomicOr a h x s
  | .rtrig a h x => Sys2Proof.Machine.execRtrig a h x s
  | .alloc a h x => Sys2Proof.Machine.execAlloc a h x s
  | .waitingRequestServed vat cycle => Sys2Proof.Machine.execWaitingRequestServed vat cycle s
  | .recordComplete c id cycle => Sys2Proof.Machine.execRecordComplete c id cycle s
  | .sendArrival c id cycle target => Sys2Proof.Machine.execSendArrival c id cycle target s
  | .remoteReply c op frame data cycle => Sys2Proof.Machine.execRemoteReply c op frame data cycle s
  | .remoteRefuse c op frame code => Sys2Proof.Machine.execRemoteRefuse c op frame code s
  | .rloadRequest r sectors => Sys2Proof.Machine.execRloadRequest r sectors s
  | .rstoreRequest r pairCount data => Sys2Proof.Machine.execRstoreRequest r pairCount data s
  | .ratomicRequest r pairCount op wide operand compare => Sys2Proof.Machine.execRatomicRequest r pairCount op wide operand compare s
  | .rtrigArrival r cell trigId arg cycle => Sys2Proof.Machine.execRtrigArrival r cell trigId arg cycle s
  | .heldRequestRelease p => Sys2Proof.Machine.execHeldRequestRelease p s
  | .packetRoute id busy => Sys2Proof.Machine.execPacketRoute id busy s
  | .escapeForward id port => Sys2Proof.Machine.execEscapeForward id port s
  | .packetArrival port raw => Sys2Proof.Machine.execPacketArrival port raw s
  | .fenceRelease id => Sys2Proof.Machine.execFenceRelease id s
  | .fenceTimeout id => Sys2Proof.Machine.execFenceTimeout id s
  | .saturationCheck p => Sys2Proof.Machine.execSaturationCheck p s
  | .linkRetry port why refusals time => Sys2Proof.Machine.execLinkRetry port why refusals time s
  | .linkRetrain port lanes => Sys2Proof.Machine.execLinkRetrain port lanes s
  | .bollumLinkUp port partner rev1 => Sys2Proof.Machine.execBollumLinkUp port partner rev1 s
  | .portRetryTimer port => Sys2Proof.Machine.execPortRetryTimer port s
  | .ethDatagramReceive port checksumOk addressed raw => Sys2Proof.Machine.execEthDatagramReceive port checksumOk addressed raw s
  | .beaconExchange port t1 t2 t3 t4 asym partnerLocked => Sys2Proof.Machine.execBeaconExchange port t1 t2 t3 t4 asym partnerLocked s
  | .nodeQuery p node why => Sys2Proof.Machine.execNodeQuery p node why s
  | .queryTimeout node controllerReady => Sys2Proof.Machine.execQueryTimeout node controllerReady s
  | .teardownRequest p node => Sys2Proof.Machine.execTeardownRequest p node s
  | .scoreFeed inst cycle c x => Sys2Proof.Machine.execScoreFeed inst cycle c x s
  | .bitmapFeed inst cycle c x => Sys2Proof.Machine.execBitmapFeed inst cycle c x s
  | .routeReturn inst cycle c x => Sys2Proof.Machine.execRouteReturn inst cycle c x s
  | .dispatch inst cycle c x => Sys2Proof.Machine.execDispatch inst cycle c x s
  | .returnRows inst cycle c x => Sys2Proof.Machine.execReturnRows inst cycle c x s
  | .combine inst cycle c x => Sys2Proof.Machine.execCombine inst cycle c x s
  | .land inst cycle c x => Sys2Proof.Machine.execLand inst cycle c x s
  | .liveTable inst cycle c x => Sys2Proof.Machine.execLiveTable inst cycle c x s
  | .colSend inst cycle x => Sys2Proof.Machine.execColSend inst cycle x s
  | .colFold inst cycle x => Sys2Proof.Machine.execColFold inst cycle x s
  | .swarmEntryComplete inst id cycle => Sys2Proof.Machine.execSwarmEntryComplete inst id cycle s
  | .landPacketArrival inst k => Sys2Proof.Machine.execLandPacketArrival inst k s
  | .landComplete inst id cycle => Sys2Proof.Machine.execLandComplete inst id cycle s
  | .voteArrival p v => Sys2Proof.Machine.execVoteArrival p v s
  | .groupOutcome p => Sys2Proof.Machine.execGroupOutcome p s
  | .trailerArrival inst src pod groupId frame commit count => Sys2Proof.Machine.execTrailerArrival inst src pod groupId frame commit count s
  | .resendRequest inst src pod groupId frame => Sys2Proof.Machine.execResendRequest inst src pod groupId frame s
  | .resendArrival inst src pod groupId frame ranges => Sys2Proof.Machine.execResendArrival inst src pod groupId frame ranges s
  | .collectiveSourceQuery p src pod frame => Sys2Proof.Machine.execCollectiveSourceQuery p src pod frame s
  | .wglBlockIngest inst srcNode raw cycle => Sys2Proof.Machine.execWglBlockIngest inst srcNode raw cycle s
  | .select inst j cycle => Sys2Proof.Machine.execSelect inst j cycle s
  | .second inst j cycle => Sys2Proof.Machine.execSecond inst j cycle s
  | .topk inst j cycle => Sys2Proof.Machine.execTopk inst j cycle s
  | .neuron inst j cycle => Sys2Proof.Machine.execNeuron inst j cycle s
  | .tally inst j cycle => Sys2Proof.Machine.execTally inst j cycle s
  | .wglJobComplete inst cycle => Sys2Proof.Machine.execWglJobComplete inst cycle s
  | .reamBuild p cls x => Sys2Proof.Machine.execReamBuild p cls x s
  | .reamBuildComplete p cls cycle => Sys2Proof.Machine.execReamBuildComplete p cls cycle s
  | .fetch inst p cycle e => Sys2Proof.Machine.execFetch inst p cycle e s
  | .foragerWrite inst p cycle e => Sys2Proof.Machine.execForagerWrite inst p cycle e s
  | .gather inst p cycle e => Sys2Proof.Machine.execGather inst p cycle e s
  | .kvRead inst p cycle e => Sys2Proof.Machine.execKvRead inst p cycle e s
  | .kvWrite inst p cycle e => Sys2Proof.Machine.execKvWrite inst p cycle e s
  | .flush inst p cycle e => Sys2Proof.Machine.execFlush inst p cycle e s
  | .foragerEntryComplete inst p id cycle reason => Sys2Proof.Machine.execForagerEntryComplete inst p id cycle reason s
  | .refetchComplete inst id x => Sys2Proof.Machine.execRefetchComplete inst id x s
  | .refetchFail inst id => Sys2Proof.Machine.execRefetchFail inst id s
  | .cacheDrain port chunk => Sys2Proof.Machine.execCacheDrain port chunk s
  | .patrolPass cxl unit x => Sys2Proof.Machine.execPatrolPass cxl unit x s
  | .rowRepairSwitch stack row => Sys2Proof.Machine.execRowRepairSwitch stack row s
  | .retirementRedirect stack => Sys2Proof.Machine.execRetirementRedirect stack s
  | .cxlFlitRetry port lateCycles p => Sys2Proof.Machine.execCxlFlitRetry port lateCycles p s
  | .loadImage c tag handle offset => Sys2Proof.Machine.execLoadImage c tag handle offset s
  | .start c tag slice prio => Sys2Proof.Machine.execStart c tag slice prio s
  | .stop c tag immediate => Sys2Proof.Machine.execStop c tag immediate s
  | .setPrio c tag prio => Sys2Proof.Machine.execSetPrio c tag prio s
  | .publish c tag object handle => Sys2Proof.Machine.execPublish c tag object handle s
  | .acquire c tag tier cls comb => Sys2Proof.Machine.execAcquire c tag tier cls comb s
  | .release c tag handle => Sys2Proof.Machine.execRelease c tag handle s
  | .setDescriptor c tag object handle offset => Sys2Proof.Machine.execSetDescriptor c tag object handle offset s
  | .admitSeq c tag seqId kvHandle kvLimit position promptEnd stopAt modelSlot prio evictEn => Sys2Proof.Machine.execAdmit c tag seqId kvHandle kvLimit position promptEnd stopAt modelSlot prio evictEn s
  | .update c tag seqId entry mask kvHandle kvLimit stopAt prio => Sys2Proof.Machine.execUpdate c tag seqId entry mask kvHandle kvLimit stopAt prio s
  | .hold c tag seqId entry => Sys2Proof.Machine.execHold c tag seqId entry s
  | .resume c tag seqId entry => Sys2Proof.Machine.execResume c tag seqId entry s
  | .remove c tag seqId entry => Sys2Proof.Machine.execRemove c tag seqId entry s
  | .cmdNop c tag => Sys2Proof.Machine.execCmdNop c tag s
  | .openContext port tag c p => Sys2Proof.Machine.execOpenContext port tag c p s
  | .closeContext port tag c => Sys2Proof.Machine.execCloseContext port tag c s
  | .setPartition port tag p combs slices ports => Sys2Proof.Machine.execSetPartition port tag p combs slices ports s
  | .registerSlot port tag slot handle offset => Sys2Proof.Machine.execRegisterSlot port tag slot handle offset s
  | .releaseSlot port tag slot => Sys2Proof.Machine.execReleaseSlot port tag slot s
  | .updateComponent port tag component handle offset verified importOk numeric timing version => Sys2Proof.Machine.execUpdateComponent port tag component handle offset verified importOk numeric timing version s
  | .switchover port tag => Sys2Proof.Machine.execSwitchover port tag s
  | .commandPacket port raw => Sys2Proof.Machine.execCommandPacket port raw s
  | .completionSend port => Sys2Proof.Machine.execCompletionSend port s
  | .hostWrite port raw => Sys2Proof.Machine.execHostWrite port raw s
  | .hostRead port raw => Sys2Proof.Machine.execHostRead port raw s
  | .mgmtReq port raw => Sys2Proof.Machine.execMgmtReq port raw s
  | .hostData port x => Sys2Proof.Machine.execHostData port x s
  | .imageData port raw => Sys2Proof.Machine.execImageData port raw s
  | .hexvanTraining port x => Sys2Proof.Machine.execHexvanTraining port x s
  | .hexvanLinkRetry port why refusals time => Sys2Proof.Machine.execHexvanLinkRetry port why refusals time s
  | .hexvanCreditReturn port cls n => Sys2Proof.Machine.execHexvanCreditReturn port cls n s
  | .unitNop path seq => Sys2Proof.Machine.execUnitNop path seq s
  | .unitReset path seq reason => Sys2Proof.Machine.execUnitReset path seq reason s
  | .quiesce path seq reason => Sys2Proof.Machine.execQuiesce path seq reason s
  | .unitResume path seq => Sys2Proof.Machine.execUnitResume path seq s
  | .selfTest path seq reason => Sys2Proof.Machine.execSelfTest path seq reason s
  | .clearEvents path seq => Sys2Proof.Machine.execClearEvents path seq s
  | .powerOff path seq reason => Sys2Proof.Machine.execPowerOff path seq reason s
  | .powerOn path seq => Sys2Proof.Machine.execPowerOn path seq s
  | .unitCommandComplete path failed => Sys2Proof.Machine.execUnitCommandComplete path failed s
  | .memberEventPropagate path => Sys2Proof.Machine.execMemberEventPropagate path s
  | .powerOnResetRelease => Sys2Proof.Machine.execPowerOnResetRelease s
  | .deviceReset x => Sys2Proof.Machine.execDeviceReset x s
  | .railPg group late x => Sys2Proof.Machine.execRailPg group late x s
  | .bringupStepTimeout step fatal => Sys2Proof.Machine.execBringupStepTimeout step fatal s
  | .powerLoss => Sys2Proof.Machine.execPowerLoss s
  | .thermalSample readings => Sys2Proof.Machine.execThermalSample readings s
  | .throttleRelease sensorGroup => Sys2Proof.Machine.execThrottleRelease sensorGroup s
  | .powerSample watts => Sys2Proof.Machine.execPowerSample watts s
  | .broadcastDesc d fromNode => Sys2Proof.Machine.execBroadcastDesc d fromNode s
  | .broadcastData bcastId chunk data fromNode => Sys2Proof.Machine.execBroadcastData bcastId chunk data fromNode s
  | .broadcastRequest bcastId child ranges => Sys2Proof.Machine.execBroadcastRequest bcastId child ranges s
  | .bcastHold bcastId highest => Sys2Proof.Machine.execBcastHold bcastId highest s
  | .broadcastAttach bcastId child ranges => Sys2Proof.Machine.execBroadcastAttach bcastId child ranges s
  | .broadcastDone bcastId fromNode => Sys2Proof.Machine.execBroadcastDone bcastId fromNode s
  | .chunkTimer => Sys2Proof.Machine.execChunkTimer s
  | .holdTimeout => Sys2Proof.Machine.execHoldTimeout s
  | .pullRetryTimer => Sys2Proof.Machine.execPullRetryTimer s
  | .chunkRetentionTimeout => Sys2Proof.Machine.execChunkRetentionTimeout s
  | .spareCell requester seq path spareFails => Sys2Proof.Machine.execSpareCell requester seq path spareFails s
  | .spareComb requester seq path spareFails => Sys2Proof.Machine.execSpareComb requester seq path spareFails s
  | .cxlDetach requester seq path => Sys2Proof.Machine.execCxlDetach requester seq path s
  | .cxlAttach requester seq path trained link c f cxl2 => Sys2Proof.Machine.execCxlAttach requester seq path trained link c f cxl2 s
  | .retireStack requester seq path => Sys2Proof.Machine.execRetireStack requester seq path s
  | .clearSoft requester seq path => Sys2Proof.Machine.execClearSoft requester seq path s
  | .journalCompaction => Sys2Proof.Machine.execJournalCompaction s
  | .laneOut port value => Sys2Proof.Machine.execLaneOut port value s
  | .spareRole port value => Sys2Proof.Machine.execSpareRole port value s
  | .timePulse counter => Sys2Proof.Machine.execTimePulse counter s
  | .timeMessage hallTime => Sys2Proof.Machine.execTimeMessage hallTime s
  | .noReferenceTimeout => Sys2Proof.Machine.execNoReferenceTimeout s
  | .lockstepArm requester value partnerOk partnerSparing partnerDown partnerCells => Sys2Proof.Machine.execLockstepArm requester value partnerOk partnerSparing partnerDown partnerCells s
  | .lockstepDisarm requester value => Sys2Proof.Machine.execLockstepDisarm requester value s
  | .digestMessage c k digest frame log level => Sys2Proof.Machine.execDigestMessage c k digest frame log level s
  | .digestTimeout => Sys2Proof.Machine.execDigestTimeout s
  | .setWindow requester seq index e => Sys2Proof.Machine.execSetWindow requester seq index e s
  | .clearWindow requester seq index => Sys2Proof.Machine.execClearWindow requester seq index s
  | .setTrigger requester seq index e => Sys2Proof.Machine.execSetTrigger requester seq index e s
  | .clearTrigger requester seq index => Sys2Proof.Machine.execClearTrigger requester seq index s
  | .setGrant requester seq index e => Sys2Proof.Machine.execSetGrant requester seq index e s
  | .clearGrant requester seq index => Sys2Proof.Machine.execClearGrant requester seq index s
  | .setHostWindow requester seq index e => Sys2Proof.Machine.execSetHostWindow requester seq index e s
  | .clearHostWindow requester seq index => Sys2Proof.Machine.execClearHostWindow requester seq index s
  | .setContextPorts requester seq index both => Sys2Proof.Machine.execSetContextPorts requester seq index both s
  | .setOwnerKey requester seq index key => Sys2Proof.Machine.execSetOwnerKey requester seq index key s
  | .revoke requester seq index deviceId => Sys2Proof.Machine.execRevoke requester seq index deviceId s
  | .setPolicy requester seq index policy linkPolicy svnMin => Sys2Proof.Machine.execSetPolicy requester seq index policy linkPolicy svnMin s
  | .logFold inst => Sys2Proof.Machine.execLogFold inst s
  | .attestationRequest inst requester scope => Sys2Proof.Machine.execAttestationRequest inst requester scope s
  | .attestationReportReady inst => Sys2Proof.Machine.execAttestationReportReady inst s
  | .authHello port x => Sys2Proof.Machine.execAuthHello port x s
  | .authKem port ciphertext => Sys2Proof.Machine.execAuthKem port ciphertext s
  | .authFinish port signature => Sys2Proof.Machine.execAuthFinish port signature s
  | .authTimeout port => Sys2Proof.Machine.execAuthTimeout port s
  | .keyChange port completed => Sys2Proof.Machine.execKeyChange port completed s
  | .componentFault inst component cause time => Sys2Proof.Machine.execComponentFault inst component cause time s
  | .watchdogExpiry inst component time => Sys2Proof.Machine.execWatchdogExpiry inst component time s
  | .heartbeat => Sys2Proof.Machine.execHeartbeat s
  | .heartbeatLoss => Sys2Proof.Machine.execHeartbeatLoss s
  | .clockSwitchArm requester value => Sys2Proof.Machine.execClockSwitchArm requester value s
  | .frameSwitchArm p requester value => Sys2Proof.Machine.execFrameSwitchArm p requester value s
  | .domainOn requester seq => Sys2Proof.Machine.execDomainOn requester seq s
  | .domainOff requester seq => Sys2Proof.Machine.execDomainOff requester seq s
  | .domainSwitchDone domain => Sys2Proof.Machine.execDomainSwitchDone domain s
  | .pwrDuty requester value => Sys2Proof.Machine.execPwrDuty requester value s
  | .injectCorr requester value => Sys2Proof.Machine.execInjectCorr requester value s
  | .injectUncorr requester value => Sys2Proof.Machine.execInjectUncorr requester value s
  | .injectDelay requester value => Sys2Proof.Machine.execInjectDelay requester value s
  | .bolInject port requester value => Sys2Proof.Machine.execBolInject port requester value s
  | .hxvInject port requester value => Sys2Proof.Machine.execHxvInject port requester value s
  | .traceArm p requester value => Sys2Proof.Machine.execTraceArm p requester value s
  | .i3cAccess addr wide write value => Sys2Proof.Machine.execI3cAccess addr wide write value s
  | .i3cIbi => Sys2Proof.Machine.execI3cIbi s
  | .registerWrite requester addr wide value => Sys2Proof.Machine.execRegisterWrite requester addr wide value s
  | .ethernetLinkChange port up => Sys2Proof.Machine.execEthernetLinkChange port up s
  | .pulseVoid late => Sys2Proof.Machine.execPulseVoid late s
  | .lockstepArmTimeout => Sys2Proof.Machine.execLockstepArmTimeout s
  | .nodeQueryArrival src p ask => Sys2Proof.Machine.execNodeQueryArrival src p ask s
  | .nodeQueryAnswer node p r => Sys2Proof.Machine.execNodeQueryAnswer node p r s

end Sys2Proof.Machine
end

