-- ==== Sys2Proof/Safety.lean ====
section
/-! DEFINITION. What counts as a good state, and the notions in which the statements speak: memory and the register file in canonical
form, a propolis table under which some management principal can still administer the device (R493), frames, and the
conditions under which a command runs. -/

namespace Sys2Proof.Machine

/-- Memory is canonical: addresses rise strictly, and no entry reads as an unlisted address does. -/
def Memory.wf (m : SMap Byte) : Bool := smWf (fun _ => 0) m

/-- The register file is canonical: keys rise strictly, and no entry equals its register's reset value. -/
def Regs.wf (m : SMap W64) : Bool := smWf (fun k => resetVal (k / 4096) (k % 4096)) m

/-- The propolis table in force, and the one in force once the accepted changes are made, each keep a grant with ADMIN (R493). -/
def Propolis.adminKept (pr : Propolis) : Bool := hasAdmin pr && hasAdmin (propAfter pr)

/-! ## Frames -/

/-- Every register but the listed ones (unit path, offset) holds what it held. -/
def regsBut (l : List (Nat × Nat)) (d e : Dev) : Prop := ∀ u o, o < 4096 → (u, o) ∉ l → rd e u o = rd d u o

/-- Every byte of data space outside `n` bytes from `lo` reads as before. -/
def memBut (lo n : Nat) (d e : Dev) : Prop := ∀ a, a < lo ∨ lo + n ≤ a → readByte e a = readByte d a

/-- Every cell but one is as it was. -/
def cellsBut (c : Nat) (d e : Dev) : Prop := ∀ k, k ≠ c → cellOf e k = cellOf d k

/-! ## The issue of a record (R102 to R104) -/

/-- The cycle in which the next record of a stream issues: no earlier than its scheduled cycle with the stream's lateness, the cycle after
the cell's last issue, and the cycles in which its stream and its tag let it (log entry 107, DEDUCED). -/
def issueCycle (d : Dev) (a : RecAt) (h : RecHdr) : Nat :=
  let x := cellOf d a.cell.val
  let y := strmOf x a.stream.val
  max (max (a.cycle + y.late) x.lastIssue) (max (max ((waitCycle x h).getD 0) y.after) (y.trigCyc.getD 0))

/-- No landing has held back the tag that a record waits for (R222). -/
def notHeld (d : Dev) (a : RecAt) (h : RecHdr) : Prop :=
  let c := a.cell.val
  let p := cellPart d c
  h.wait = true → tagHold (cellOf d c) a h = 0
    ∨ ∀ r, runImage d p = some r → landNotifying d r.2.2.1 r.2.2.2 ((partCells d p).idxOf c) h.waitTag.val = none

/-- A record can issue: the frame still issues records in its cell, it is the next of its stream in the record buffer and holds the header
and the command named, its tag has reached its count, its issue cycle is in the frame, no lower stream can issue then, the queue
of its resource has room, and every record in flight has started. No trace runs in its partition, no landing has held it back, and an
ALLOC meets no other request for a buffer. -/
def canIssue (d : Dev) (a : RecAt) (h : RecHdr) (b : RecBody) : Prop :=
  let c := a.cell.val
  let x := cellOf d c
  let p := cellPart d c
  let t := issueCycle d a h
  frontOpen d c = true ∧ nextOf x a.stream.val = some (h, b) ∧ (waitCycle x h).isSome = true ∧ t ≤ cutCycle d p
    ∧ (∀ q, q < a.stream.val → couldIssue x q t = false) ∧ (∀ f ∈ x.inflight, f.started = true)
    ∧ (b.res = some .net → x.remotes.length < 16) ∧ rdB d (pPart p) Reg.CTL_TRACE_STATUS 2 = false ∧ notHeld d a h
    ∧ (b.res = some .vatq → (∀ e ∈ d.cells, queued e.2 .vatq = 0) ∧ listsDue d (momentOf d p t) = [] ∧ d.vat.waiting = [])

/-- The record in flight that a record becomes when it issues. -/
def issuedFl (d : Dev) (a : RecAt) (h : RecHdr) (b : RecBody) : InFl := flOf d a h b (issueCycle d a h)

/-- The resource of a record is free for it in its issue cycle, so that it starts at once. -/
def startsNow (d : Dev) (a : RecAt) (h : RecHdr) (b : RecBody) : Prop :=
  startCycle (cellOf d a.cell.val) (issuedFl d a h b) = issueCycle d a h

/-- A record has issued and its stream is in a state: the stream has moved on by one record, the cell has counted it, and the other
streams and cells are as they were. -/
def Issued (d e : Dev) (a : RecAt) (h : RecHdr) (st : StrmState) : Prop :=
  let c := a.cell.val
  (strmOf (cellOf e c) a.stream.val).state = st
    ∧ (strmOf (cellOf e c) a.stream.val).recs = (strmOf (cellOf d c) a.stream.val).recs + 1
    ∧ (∀ q, q ≠ a.stream.val → strmOf (cellOf e c) q = strmOf (cellOf d c) q)
    ∧ (cellOf e c).lastIssue = issueCycle d a h + 1
    ∧ rdN e (pCell c) Reg.CEL_RECORDS_ISSUED = (rdN d (pCell c) Reg.CEL_RECORDS_ISSUED + 1) % 2 ^ 64
    ∧ cellsBut c d e

/-- A record joins those in flight; the others stay. -/
def Flies (d e : Dev) (a : RecAt) (h : RecHdr) (b : RecBody) (f : InFl) : Prop :=
  (cellOf e a.cell.val).inflight = (cellOf d a.cell.val).inflight ++ [f] ∧ f.body = b ∧ f.stream = a.stream
    ∧ f.sig = h.sig ∧ f.sigTag = h.sigTag ∧ f.recId = h.recordId

/-- A record that starts in its issue cycle: it holds its resource for `occ` cycles and completes at the end of the cycle `dur` − 1 cycles
after its start. -/
def FliesFor (d e : Dev) (a : RecAt) (h : RecHdr) (b : RecBody) (occ dur : Nat) (waiting : Bool) : Prop :=
  let t := issueCycle d a h
  ∃ f, Flies d e a h b f ∧ f.started = true ∧ f.start = t ∧ f.occEnd = t + occ ∧ f.due = t + dur - 1 ∧ f.late = 0 ∧ f.waiting = waiting

/-- What a record's SIG does to a tag of its cell at the end of a cycle (R103): it advances by 1, and stays at 65,535. -/
def Signalled (d e : Dev) (c : Nat) (sig : Bool) (tag cycle : Nat) : Prop :=
  let g := tagOf (cellOf d c) tag
  (tagOf (cellOf e c) tag).count = (if sig = true ∧ g.count < 65535 then g.count + 1 else g.count)
    ∧ (sig = true → g.count < 65535 → (tagOf (cellOf e c) tag).cycle = max g.cycle cycle)
    ∧ (sig = true → 65535 ≤ g.count → rdB e (pCell c) Reg.CEL_FE_EVENTS 1 = true)
    ∧ ∀ q, q ≠ tag → tagOf (cellOf e c) q = tagOf (cellOf d c) q

/-- The instruction of a vector operation. -/
def vectorInstr : Vop → RecAt → RecHdr → VecOps → Instr
  | .copy => .vectorCopy | .add => .vectorAdd | .sub => .vectorSub | .mul => .vectorMul | .fma => .vectorFma
  | .max => .vectorMax | .min => .vectorMin | .scale => .vectorScale | .exp => .vectorExp | .recip => .vectorRecip
  | .rsqrt => .vectorRsqrt | .sum => .vectorSum | .amax => .vectorAmax

/-- The instruction of a remote atomic operation. -/
def atomicInstr : AtomOp → RecAt → RecHdr → AtomOps → Instr
  | .add => .ratomicAdd | .min => .ratomicMin | .max => .ratomicMax | .swap => .ratomicSwap | .cas => .ratomicCas
  | .and => .ratomicAnd | .or => .ratomicOr

/-- The command whose record a header and a body are. -/
def recInstr (a : RecAt) (h : RecHdr) : RecBody → Instr
  | .nop => .cellNop a h | .end_ => .endRec a h | .wait => .waitRec a h | .fence => .fence a h
  | .load x => .load a h x | .store x => .store a h x | .fill x => .fill a h x
  | .pass x => .pass a h x | .split x => .passSplit a h x | .drain x => .drain a h x
  | .vector op x => vectorInstr op a h x | .send x => .send a h x
  | .rload x => .rload a h x | .rstore x => .rstore a h x | .ratomic op x => atomicInstr op a h x | .rtrig x => .rtrig a h x
  | .alloc x => .alloc a h x

/-- A remote operation has left its cell (R106, R110): a record on NET that waits for its reply, an outstanding operation with the cycle by which
Table 04-4 has it complete, and its packets, which wait at the cell for an output. No byte of data space has changed. -/
def RemoteLeaves (s t : State) (a : RecAt) (h : RecHdr) (b : RecBody) (type node off occ extra bytes : Nat) (payload : List Byte) : Prop :=
  let d := s.dev
  let c := a.cell.val
  let p := cellPart d c
  let st := issueCycle d a h
  let dur := remoteT d (hops d (myNode d) node) + extra
  FliesFor d t.dev a h b occ dur true
    ∧ (∃ r, (cellOf t.dev c).remotes = (cellOf d c).remotes ++ [r] ∧ r.kind + 1 = type ∧ r.node = node ∧ r.frame = frameNum d p ∧ r.got = 0
        ∧ r.bytes = bytes ∧ r.tab = st + dur - 1)
    ∧ (∃ l, t.dev.fab.local_ = d.fab.local_ ++ l
        ∧ (l.map fun q => (q.pkt.addr, q.pkt.payload)) = (if type = 2 then splitPayload payload else [(0, payload)]).map (fun e => (off + e.1, e.2))
        ∧ ∀ q ∈ l, q.inPort = none ∧ q.pkt.type = type ∧ q.pkt.frame = frameNum d p ∧ q.pkt.src = myPlace d + pCell c
            ∧ q.pkt.dest = mkPlace (myPod d) node (pPart (commitPart d p node)))
    ∧ t.dev.mem = d.mem

/-! ## Effects on registers -/

/-- Registers alone have changed, and of them only the listed ones. -/
def touches (l : List (Nat × Nat)) (s t : State) : Prop :=
  t = { s with dev := { s.dev with regs := t.dev.regs } } ∧ regsBut l s.dev t.dev

/-- An event of a unit has occurred: its bit is set and its count has advanced (R10). -/
def occurred (d e : Dev) (u ev bit cnt : Nat) : Prop :=
  rdB e u ev bit = true ∧ rdN e u cnt = (rdN d u cnt + 1) % 2 ^ 32

/-- A header event of a unit has occurred (R56). -/
def noticed (d e : Dev) (u : Nat) (h : HdrEv) : Prop := occurred d e u Reg.UNIT_EVENTS h.bit (Reg.UNIT_EVT_CMD_DONE + 4 * h.bit)

/-- The registers of a header event. -/
def headerRegs (u : Nat) (h : HdrEv) : List (Nat × Nat) := [(u, Reg.UNIT_EVENTS), (u, Reg.UNIT_EVT_CMD_DONE + 4 * h.bit)]

/-- A class event of a unit has occurred (R511, R513). -/
def raised (d e : Dev) (c u frame : Nat) : Prop :=
  occurred d e pDev Reg.CTL_HLT_EVENTS (c - 1) (Reg.CTL_EVT_CLASS c) ∧ rdN e pDev Reg.CTL_HLT_LAST = u + c * 8192 + frame % 65536 * 65536

/-- The registers of a class event. -/
def classRegs (c : Nat) : List (Nat × Nat) :=
  [(pDev, Reg.CTL_HLT_EVENTS), (pDev, Reg.CTL_EVT_CLASS c), (pDev, Reg.CTL_HLT_LAST), (pDev, Reg.CTL_HLT_SUMMARY)]

/-- Registers alone of the listed pages have changed. -/
def pagesBut (l : List Nat) (d e : Dev) : Prop := ∀ u o, o < 4096 → u ∉ l → rd e u o = rd d u o

/-- A count or total of a unit has advanced. -/
def advanced (d e : Dev) (u off n : Nat) : Prop := rdN e u off = (rdN d u off + n) % (if isWide u off then 2 ^ 64 else 2 ^ 32)

/-- A partition has been disturbed once (R18, R19): the cause's events and stall cycles advance, and the first of the frame is kept. -/
def disturbed (d e : Dev) (p cause cycles sub : Nat) : Prop :=
  advanced d e (pPart p) (Reg.CTL_DIST_EVENTS cause) 1 ∧ advanced d e (pPart p) (Reg.CTL_DIST_CYCLES cause) cycles
    ∧ (partOf e p).dist = some ((partOf d p).dist.getD ⟨cause, sub⟩)

/-- A write of `n` bytes at an address lands in data space: no error mark and no poisoned line is in the way, no write-back cache takes
it, and no unit that would absorb it is in reset. -/
def lands (d : Dev) (a n : Nat) : Prop :=
  d.marks = [] ∧ poisonedIn d a n = [] ∧ portOfAddr d a = none ∧ ((storeUnits d a).any fun u => stateIs d u .resetting) = false

/-! ## The start of a Forager entry (R269, R277) -/

/-- An entry starts in a cycle, on time, as entry `idx` of the running slice, with its buffers at `l`: no buffer list has a request due, its
tag is met, its instance has room and has not stopped, and every check of its buffers passes. -/
def fgrStarts (d : Dev) (i p cycle kind : Nat) (e : FgrEntry) (img : Image) (sl idx : Nat) (l : List (Nat × Nat)) : Prop :=
  (∃ c x, runImage d p = some (c, x, img, sl)) ∧ listsDue d (momentOf d p (cycle + 1)) = []
    ∧ (∃ hs, refsOf d p img sl ((fgrNeeds kind e).map FgrNeed.ref) = some hs
        ∧ fgrGo d i p img sl cycle kind e hs.2 = some ⟨idx, cycle, cycle, cycle, none⟩)
    ∧ fgrCheck d p img sl (fgrNeeds kind e) [] = .ok l

/-- What an entry of a kind other than FLUSH moves is well formed, fits its buffers and the write-back caches, and what it reads is sound;
no test delay waits for it. -/
def fgrMovesWell (d : Dev) (i p cycle kind : Nat) (e : FgrEntry) (img : Image) (l : List (Nat × Nat)) : Prop :=
  let q := fgrPlan d p img kind e (fgrBufs kind l)
  q.code = 0 ∧ fgrFits d kind l q = true ∧ cacheShort d q.writes = none ∧ d.tier.delayed = []
    ∧ engReadAt d i p (fgrClock d p img kind cycle e) false 0 q.reads = ⟨d, 0, false, [], none⟩

/-- An entry has started: it runs until the cycle of its rate and latencies. -/
def fgrRuns (d e : Dev) (i p kind idx start : Nat) (x : FgrEntry) (img : Image) : Prop :=
  let m := fgrMoves d p img kind x
  ∃ r, e.tier.runs = d.tier.runs ++ [r] ∧ r.inst = i ∧ r.part = p ∧ r.id = idx ∧ r.start = start ∧ r.late = 0 ∧ r.stalled = [] ∧ r.fin = false
    ∧ r.tab = start + fgrFix d kind (fgrEnds d p img kind x) + ceilDiv m (max 1 x.rate) - 1
    ∧ r.bytes = m ∧ r.notify = if x.notifyEn then some (x.notifySlot, x.notifyTag.val) else none

/-! ## Packets and remote requests -/

/-- A node of the pod that names a device (R305). -/
def reachable (d : Dev) (node : Nat) : Prop := node < 2048 ∧ nodeNames d node = true

/-- Packets have entered the fabric from this device, and nothing else of the fabric has changed but the count of counted packets. -/
def entered (d e : Dev) (l : List InPkt) : Prop :=
  e.fab = { d.fab with local_ := d.fab.local_ ++ l, nextId := e.fab.nextId, pairs := e.fab.pairs } ∧ ∀ q ∈ l, q.inPort = none

/-- A request has been answered: packets of a type go back to the source of the request, with its frame and identity. -/
def replied (d e : Dev) (r : RemReq) (p type : Nat) (l : List (Nat × List Byte)) : Prop :=
  ∃ qs, entered d e qs ∧ (qs.map fun q => (q.pkt.addr, q.pkt.payload)) = l
    ∧ ∀ q ∈ qs, q.pkt.type = type ∧ q.pkt.frame = r.frame ∧ q.pkt.reqId = r.reqId.toNat ∧ q.pkt.spart = p ∧ q.pkt.dpart = r.src.part.val
        ∧ q.pkt.dest = mkPlace (myPod d) r.src.node (pCell (r.reqId.toNat % 256))

/-- The partition that answers a request: for an RLOAD the owner of its window. -/
def answersFor (pr : Propolis) (r : RemReq) (type n : Nat) : Nat :=
  match windowOf pr r.addr n with
  | some w => if type = 1 then w.owner.val else r.destPart.val
  | none => r.destPart.val

/-- A request of a type for `n` bytes is in its frame, and its partition is not in reset (R338, R437). -/
def answeredNow (d : Dev) (pr : Propolis) (r : RemReq) (type n : Nat) : Prop :=
  frameAns d (framePart pr r type n) r.frame = .go ∧ stateIs d (pPart ((framePart pr r type n).getD r.destPart.val)) .resetting = false

/-- The registers of an event of a group of R512, with the header event that CTL_HLT_COUNT_MASK may add. -/
def groupRegs (u ev cnt : Nat) : List (Nat × Nat) := [(u, ev), (u, cnt)] ++ headerRegs u .errCorr ++ classRegs 1

/-- A packet that came for this device has been handed to its unit, and counted for its source and frame (R309, R321). -/
def handedOn (d e : Dev) (p : Pkt) : Prop :=
  e.fab = { d.fab with handed := d.fab.handed ++ [p], arrivals := e.fab.arrivals }
    ∧ (typeCounted p.type = true → arrived d p ≠ 0 → arrived e p = arrived d p + 1)

/-- A packet of the switch has left on a port (R315, R324): it waits there no more, and the port has counted it. -/
def leftOn (d e : Dev) (id i : Nat) (p : Pkt) : Prop :=
  e.fab.sentPkts = d.fab.sentPkts ++ [(i, p)] ∧ findPkt e.fab id = none ∧ (∀ k, k ≠ id → findPkt e.fab k = findPkt d.fab k)
    ∧ advanced d e (pBol i) Reg.BOL_TX_PACKETS 1 ∧ advanced d e (pBol i) Reg.BOL_TX_BYTES (32 + p.payload.length)
    ∧ e.fab = { d.fab with local_ := e.fab.local_, transit := e.fab.transit, escape := e.fab.escape, sentPkts := e.fab.sentPkts, ports := e.fab.ports }

/-- No port damages its traffic on purpose, holds packets back, or links to a revision 1 partner. -/
def plainPorts (d : Dev) : Prop :=
  ∀ i, i < 32 → rdF d (pBol i) Reg.BOL_INJECT 2 0 = 0 ∧ (bolOf d i).delayed = [] ∧ bolState d i ≠ 5

/-! ## The host link -/

/-- A packet on a Hexvan port is taken: the port is up and not in reset, the packet keeps R406 and Table 16-4, and its class is the expected one. -/
def taken (d : Dev) (i cls : Nat) (l : List Byte) (p : HxvIn) : Prop :=
  hxvUp d i = true ∧ stateIs d (pHxv i) .resetting = false ∧ hxvGood l = true ∧ readHxv l = p ∧ p.cls = cls

/-- A packet goes to the host: at once when the port is up and holds a credit of its class, else it waits. Stated when nothing else waits. -/
def toHost (d e : Dev) (i : Nat) (p : HxvPkt) : Prop :=
  (hxvOf d i).out = [] → if hxvUp d i = true ∧ 0 < hxvCredits d i p.cls then (hxvOf e i).wire = (hxvOf d i).wire ++ [p] ∧ (hxvOf e i).out = []
    else (hxvOf e i).wire = (hxvOf d i).wire ∧ (hxvOf e i).out = [p]

/-- The device after a packet of the host has been counted and numbered. -/
def afterTake (d : Dev) (i cls : Nat) (l : List Byte) : Dev := (hxvTake d i cls l).1

/-! ## Links -/

/-- An exchange at a port has failed (R328, R487): AUTH_FAIL in the port's page, PARTNER_REFUSED in both SEC pages, and SIG_FAIL for a
certificate; the port is DOWN after a first exchange, and trains again after one that ran beside its traffic. -/
def refusedPartner (d e : Dev) (k : Nat) (cert : Bool) : Prop :=
  let st := if (authOf d k).rekey && carries d k then 1 else 0
  (∀ i : Fin 2, occurred d e (pSec i.val) Reg.SEC_EVENTS 2 Reg.SEC_EVT_PARTNER_REFUSED
      ∧ (cert = true → occurred d e (pSec i.val) Reg.SEC_EVENTS 0 Reg.SEC_EVT_SIG_FAIL))
    ∧ (if k < 32 then occurred d e (pBol k) Reg.BOL_PORT_EVENTS 5 Reg.BOL_EVT_AUTH_FAIL ∧ bolState e k = st
      else occurred d e (pHxv (k - 32)) Reg.HXV_EVENTS 4 Reg.HXV_EVT_AUTH_FAIL ∧ hxvState e (k - 32) = st)
    ∧ (authOf e k).running = false
    ∧ e = { d with
      regs := e.regs, freeSeq := e.freeSeq, host := { d.host with ports := e.host.ports }, sec := { d.sec with auth := e.sec.auth }
      fab := { d.fab with transit := e.fab.transit, nextId := e.fab.nextId, ports := e.fab.ports } }

/-! ## Commands and completions (R384, R386) -/

/-- A device-wide command has been answered: its completion waits at the port that sent it, unless 4,096 already wait there. -/
def devAnswered (d e : Dev) (port op status : Nat) (tag : W32) (res : List Byte) : Prop :=
  e.host.arrived = d.host.arrived + 1 ∧ e.host.applied = d.host.arrived + 1 ∧ e.host.seq = d.host.seq + 1
    ∧ ((hxvOf d port).queue.length < 4096 →
      hxvOf e port = { hxvOf d port with queue := (hxvOf d port).queue ++ [⟨op, status, 256, tag, 0, false, d.host.seq + 1, result16 res, d.hall⟩] }
        ∧ ∀ j, j ≠ port → hxvOf e j = hxvOf d j)

/-- The device once a command record of a context has arrived and been counted (R384). -/
def received (d : Dev) (c : Nat) : Dev :=
  bump (modCtx d c fun x => { x with arrived := x.arrived + 1 }) (pCtl ((activeCpx d).getD 0)) Reg.CTL_COMMANDS 1

/-- A command of a context has been answered (R386, R397, R410): the context is `x` but for its counts, and one completion more waits at its
port, unless 4,096 already wait there. -/
def ctxAnswered (d e : Dev) (c op status : Nat) (tag : W32) (res : List Byte) (x : Ctx) : Prop :=
  let k := ctxOf d c
  let i := cplPort d c
  ctxOf e c = { x with arrived := k.arrived + 1, applied := k.arrived + 1, seq := k.seq + 1 }
    ∧ (∀ q, q ≠ c → ctxOf e q = ctxOf d q)
    ∧ ((hxvOf d i).queue.length < 4096 →
      hxvOf e i = { hxvOf d i with queue := (hxvOf d i).queue
        ++ [⟨op, status, c, tag, if k.state = .free then 0 else frameNum d k.part, false, k.seq + 1, result16 res, d.hall⟩] }
        ∧ ∀ j, j ≠ i → hxvOf e j = hxvOf d j)

/-- A command record of a context waits in its inbox for the completion cut (R382, R384). -/
def inboxed (d : Dev) (c op flags : Nat) (tag : W32) (arg : List Byte) : Dev := modCtx d c fun x =>
  { x with arrived := x.arrived + 1, inbox := x.inbox ++ [⟨x.port, x.arrived + 1, op, flags, c, tag, sliceBytes arg 0 56⟩] }

/-- A device-wide command record waits in the device inbox for the grid point (R382, R384). -/
def gridInboxed (d : Dev) (port op : Nat) (tag : W32) (arg : List Byte) : Dev :=
  { d with host := { d.host with
    arrived := d.host.arrived + 1, inbox := d.host.inbox ++ [⟨port, d.host.arrived + 1, op, 0, 256, tag, sliceBytes arg 0 56⟩] } }

/-- The registers of a context's command: the count of commands, and those of its port's completions. -/
def cmdRegs (d : Dev) (c : Nat) : List (Nat × Nat) :=
  (pCtl ((activeCpx d).getD 0), Reg.CTL_COMMANDS)
    :: [Reg.HXV_CPL_QUEUE, Reg.HXV_EVENTS, Reg.HXV_EVT_CPL_OVERFLOW, Reg.HXV_CPL_LOST].map fun o => (pHxv (cplPort d c), o)

/-- The device once a device-wide command record has arrived and been counted (R384). -/
def deviceReceived (d : Dev) : Dev :=
  bump { d with host := { d.host with arrived := d.host.arrived + 1 } } (pCtl ((activeCpx d).getD 0)) Reg.CTL_COMMANDS 1

/-! ## Jobs of a Waggle engine -/

/-- An entry is among the `c` best of a list: it is in it, and fewer than `c` others rank before it (R180). -/
def amongBest (c : Nat) (l : List WglEntry) (x : WglEntry) : Prop := x ∈ l ∧ (l.filter fun y => ranksBefore y x).length < c

/-- A job starts in a cycle, on time: it is the next of its engine, which runs nothing and has not stopped; its frame runs, no buffer list has
a request due, its buffer is allocated, and its blocks are there by the cycle in which the rest of R172 lets it start. -/
def wglStarts (d : Dev) (i kind : Nat) (j : WglJob) (cycle p sl ix h : Nat) (img : Image) : Prop :=
  let e := wglOf d i
  let mine := e.blocks.filter fun b => b.job == ix
  let other := max j.startCycle e.free
  (∃ c, engineImage d (pWgl i) = some (p, c, img, sl)) ∧ listsDue d (momentOf d p (cycle + 1)) = []
    ∧ nextJob e (wglJobs img sl i) = some (ix, kind, j) ∧ e.stopped = false ∧ e.run = none ∧ (partOf d p).killNow = none ∧ (partOf d p).cutTaken = false
    ∧ (∃ rdy, refOf d p img sl j.outRef = some (h, rdy) ∧ cycle = max other (if rdy = 0 then 0 else rdy + 1))
    ∧ j.inBlocks ≤ mine.length ∧ ∀ b ∈ mine, b.done < other

/-! ## Entries of a Swarm engine -/

/-- What R200 asks before an entry starts, in cycle `cycle`, on time: no buffer list has a request due, its buffers `refs` are allocated, its
tag has reached its count, a serial entry finds no other running, its reads have not stalled, the engine has not stopped, and its frame
runs. -/
def swmReady (d : Dev) (i p cycle : Nat) (img : Image) (sl idx : Nat) (what : SlotKind) (refs : List Nat) : Prop :=
  let e := swmOf d i
  listsDue d (momentOf d p (cycle + 1)) = [] ∧ cycle ≤ cutCycle d p
    ∧ (∃ hs fr, refsOf d p img sl refs = some hs ∧ (if what.serial then serialFree e else some 0) = some fr
        ∧ cycle = max what.ctl.start (max hs.2 fr))
    ∧ (∀ slot tag n, what.ctl.ready = some (slot, tag, n) → tagReady d p slot tag n cycle = true)
    ∧ (∀ q ∈ e.stalls, q.1 ≠ idx) ∧ e.stopped = false ∧ (partOf d p).killNow = none ∧ (partOf d p).cutTaken = false

/-- An entry of the running slice starts on time as entry `idx`, its buffers at `l` (R200, R225). -/
def swmStarts (d : Dev) (i p cycle : Nat) (c : SwmCommon) (ops : SwmOps) (img : Image) (x sl idx : Nat) (l : List Nat) : Prop :=
  engineImage d (pSwm i) = some (p, x, img, sl) ∧ freshEntry d i img sl (.swm c ops) = some idx
    ∧ swmReady d i p cycle img sl idx (.swm c ops) ((swmNeeds img c ops).map BufNeed.ref)
    ∧ checkNeeds d p img sl (swmNeeds img c ops) [] = .ok l

/-- The reads of an entry meet no error mark, no lost line and no unpublished object. -/
def readsSound (d : Dev) (p start : Nat) (l : List (Nat × Nat)) : Prop := engRead d 0 p start l = ⟨d, 0, false, [], none⟩

/-- A run has joined those of a Swarm engine, and nothing else of the Swarm engines has changed. -/
def swmRuns (d e : Dev) (i : Nat) (r : SwmRun) : Prop :=
  swmOf e i = { swmOf d i with runs := (swmOf d i).runs ++ [r] } ∧ ∀ k, k ≠ i → swmOf e k = swmOf d k

/-- The units of an entry have been sent (R201): a unit's part q goes in a packet of the scheduled class with TAG and block index row × P_ROW + q;
unit n goes on port n mod b; inside the device the packets are handed on at once. -/
def unitsSent (d e : Dev) (i p : Nat) (c : SwmCommon) (unit parts : Nat) (us : List SwmUnit) : Prop :=
  let want := us.zipIdx.flatMap fun u => (splitPayload u.1.data).zipIdx.map fun q => (c.tag + 65536 * (u.1.row * parts + q.2), u.2, q.1.2)
  let own := c.peer.node = myNode d
  ∃ ks : List Pkt, (ks.map fun k => (k.addr, k.lane, k.payload)) = want.map (fun w => (w.1, w.2.1 % bundleSize d c.peer.node, w.2.2))
    ∧ (∀ k ∈ ks, k.type = 0 ∧ k.cls = 0 ∧ k.fence = false ∧ k.dest = mkPlace (myPod d) c.peer.node unit ∧ k.src = myPlace d + pSwm i
        ∧ k.dpart = c.peer.part.val ∧ k.spart = p ∧ k.frame = frameNum d p)
    ∧ (own → e.fab = { d.fab with handed := d.fab.handed ++ ks })
    ∧ (¬ own → ∃ l, entered d e l ∧ (l.map fun q => { q.pkt with pair := 0 }) = ks)
    ∧ advanced d e (pSwm i) Reg.SWM_UNITS_SENT us.length
    ∧ advanced d e (pSwm i) Reg.SWM_BYTES_SENT ((us.map fun u => u.data.length + if own then 0 else 32 * (splitPayload u.data).length).foldl (· + ·) 0)
    ∧ regsBut [(pSwm i, Reg.SWM_UNITS_SENT), (pSwm i, Reg.SWM_BYTES_SENT)] d e

/-- A Swarm entry has completed in a cycle, and its NOTIFY tag has advanced (R200). -/
def swmDoneRun (d e : Dev) (i p : Nat) (r : SwmRun) (due : Nat) : Prop :=
  (swmOf e i).runs = (swmOf d i).runs.map (fun q => if q.id = r.id then { q with fin := true, due := due } else q)
    ∧ (∀ k, k ≠ i → swmOf e k = swmOf d k)
    ∧ (∀ slot tag, r.what.ctl.notify = some (slot, tag) → ∀ k, slotCell d p slot = some k → Signalled d e k true tag due)
    ∧ (r.what.ctl.notify = none → e.cells = d.cells)

/-- A packet has been dropped by a Swarm engine with a code (R214). -/
def packetDropped (d e : Dev) (i code tag : Nat) : Prop :=
  rdN e (pSwm i) Reg.SWM_LAST_DROP = code + 65536 * (tag % 65536) ∧ advanced d e (pSwm i) Reg.SWM_PACKETS_DROPPED 1
    ∧ occurred d e (pSwm i) Reg.SWM_EVENTS 0 Reg.SWM_EVT_LAND_DROP

/-- A kill request with a reason has been filed for a partition (R37): for this frame until its completion cut, then for the next. -/
def killFiled (d e : Dev) (p reason : Nat) : Prop :=
  if (partOf d p).cutTaken then (partOf e p).killNext = some ((partOf d p).killNext.getD reason)
  else (partOf e p).killNow = some ((partOf d p).killNow.getD reason)

end Sys2Proof.Machine
end

