-- ==== Sys2Proof/WellFormed.lean ====
section
/-! DEFINITION. When the operands of a command fit the fields that the spec gives them: widths, ranges and alignments. A queue may hold
other commands; the meanings take every operand, and a command that is not well-formed is one that no block of the device sends. -/

namespace Sys2Proof

/-- Does a number fit a field of some bits? -/
def fits (bits v : Nat) : Bool := decide (v < 2 ^ bits)

/-- Does a number lie in a range? -/
def within (lo hi v : Nat) : Bool := decide (lo ≤ v) && decide (v ≤ hi)

/-- Is a number a multiple of `k`? -/
def aligned (k v : Nat) : Bool := v % k == 0

/-! ## Cell records (Tables 04-1 to 04-10) -/

/-- Word 0 of a record. -/
def RecHdr.wf (h : RecHdr) : Bool := fits 16 h.waitCount && fits 16 h.recordId

/-- LOAD and STORE. -/
def XferOps.wf (x : XferOps) : Bool := fits 22 x.cellBase && within 1 131072 x.length && fits 28 x.offset

/-- FILL. -/
def FillOps.wf (x : FillOps) : Bool := fits 22 x.cellBase && within 1 131072 x.length

/-- PASS. -/
def PassOps.wf (x : PassOps) : Bool :=
  within 1 32767 x.u && fits 22 x.aBase && fits 22 x.bBase && fits 28 x.bOffset && fits 22 x.liveAddr && fits 22 x.aScaleBase
    && fits 22 x.bScaleBase && decide (x.sparseMode.val < 3) && fits 22 x.metaBase

/-- PASS_SPLIT. -/
def SplitOps.wf (x : SplitOps) : Bool := within 1 32767 x.u && fits 22 x.tableBase

/-- DRAIN. -/
def DrainOps.wf (x : DrainOps) : Bool := fits 22 x.destBase && fits 28 x.destOffset

/-- VECTOR. -/
def VecOps.wf (x : VecOps) : Bool := within 1 1048575 x.n && fits 22 x.src0 && fits 22 x.src1 && fits 22 x.src2 && fits 22 x.dst

/-- SEND. -/
def SendOps.wf (x : SendOps) : Bool := fits 22 x.src && within 1 2048 x.length && fits 8 x.target && fits 22 x.targetBase

/-- RLOAD and RSTORE. -/
def RemOps.wf (x : RemOps) : Bool :=
  fits 22 x.localBase && within 1 2048 x.length && fits 48 x.remoteOffset && aligned 32 x.remoteOffset && fits 11 x.node

/-- RATOMIC. -/
def AtomOps.wf (x : AtomOps) : Bool :=
  fits 22 x.result && fits 48 x.remoteOffset && aligned (if x.wide then 8 else 4) x.remoteOffset && fits 11 x.node

/-- RTRIG. -/
def TrigOps.wf (x : TrigOps) : Bool := fits 16 x.trigId && fits 11 x.node && fits 48 x.remoteOffset && aligned 32 x.remoteOffset && x.arg.length == 32

/-- ALLOC. -/
def AllocOps.wf (x : AllocOps) : Bool := within 0 4 x.cls && fits 24 x.object

/-! ## Remote operations and engines -/

/-- A node and partition. -/
def Peer.wf (p : Peer) : Bool := fits 11 p.node

/-- A request at its target (Table 12-2). -/
def RemReq.wf (r : RemReq) : Bool := r.src.wf && fits 16 r.frame && fits 48 r.addr

/-- Data of a packet: whole 32-byte sectors, at most 512 bytes. -/
def sectors (l : List Byte) : Bool := within 32 512 l.length && aligned 32 l.length

/-- The common fields of a Swarm entry (Table 08-3). -/
def SwmCommon.wf (c : SwmCommon) : Bool :=
  fits 32 c.slice && fits 32 c.startCycle && fits 32 c.window && fits 16 c.bufA && fits 16 c.bufB && fits 32 c.offsetA
    && aligned 32 c.offsetA && fits 32 c.offsetB && aligned 32 c.offsetB && fits 8 c.readySlot && fits 16 c.readyCount
    && fits 8 c.notifySlot && fits 16 c.tag && c.peer.wf

/-- A collective entry (Table 14-5). -/
def ColOps.wf (x : ColOps) : Bool :=
  fits 32 x.slice && fits 32 x.startCycle && fits 32 x.window && fits 16 x.bufA && fits 16 x.bufB && aligned 32 x.offsetA
    && aligned 32 x.offsetB && fits 8 x.readySlot && fits 16 x.readyCount && fits 8 x.notifySlot && fits 8 x.localId
    && within 1 12 x.phase.val && within 5 7 x.inFmt.val && within 5 7 x.outFmt.val && within 32 67108864 x.count && fits 8 x.stageComb
    && aligned 32 x.stageOffset

/-- A Waggle job (Table 07-2). -/
def WglJob.wf (j : WglJob) : Bool :=
  fits 32 j.slice && fits 32 j.startCycle && fits 16 j.jobId && fits 16 j.eFirst && fits 16 j.eCount && decide (j.eFirst + j.eCount ≤ 8192)
    && fits 16 j.capacity && fits 32 j.n && within 1 2048 j.sources && fits 16 j.self && decide (1 ≤ j.inBlocks) && fits 16 j.outRef
    && aligned 32 j.outOffset && fits 8 j.notifySlot && fits 8 j.homes && fits 16 j.outJobId

/-- A Forager entry (Table 10-4). -/
def FgrEntry.wf (e : FgrEntry) : Bool :=
  fits 32 e.slice && fits 32 e.startCycle && fits 32 e.rate && fits 16 e.srcRef && fits 16 e.dstRef && fits 16 e.auxRef && fits 8 e.base
    && aligned 32 e.srcOffset && aligned 32 e.dstOffset && fits 64 e.length && aligned 32 e.auxOffset && fits 8 e.readySlot
    && fits 16 e.readyCount && fits 8 e.notifySlot && fits 16 e.count && fits 32 e.rowBytes

/-- A landing packet (R201, R213). -/
def LandPkt.wf (k : LandPkt) : Bool :=
  k.src.wf && fits 8 k.pod && fits 16 k.frame && fits 16 k.tag && fits 16 k.pairCount && within 1 512 k.payload.length

/-- A vote (Table 08-5). -/
def Vote.wf (v : Vote) : Bool := fits 16 v.group && fits 16 v.frame && fits 32 v.slice

/-! ## Links, time, bring-up -/

/-- A Bollum packet as bytes: its header and at most 512 bytes. -/
def bolRaw (l : List Byte) : Bool := within 32 544 l.length

/-- A Hexvan packet as bytes: its header and at most 4,096 bytes. -/
def hxvRaw (l : List Byte) : Bool := within 32 4128 l.length

/-- A write of CTL_INJ_CTL with a mode. -/
def injMode (v : W32) (m : Nat) : Bool := v.toNat % 8 == m

/-- A query's subject. -/
def QueryAsk.wf : QueryAsk → Bool
  | .alive => true
  | .marker dest frame => dest.wf && fits 16 frame
  | .packetsSent dest _ frame => fits 11 dest && fits 16 frame

/-- A query's answer. -/
def QueryReport.wf : QueryReport → Bool
  | .alive | .controllerReady => true
  | .packetsSent _ frame count => fits 16 frame && fits 16 count

/-! ## Commands -/

/-- Do the operands of a command fit? (log entry 16, DESIGN CHOICE) -/
def Instr.wf : Instr → Bool
  | .completionCut _ | .tick _ | .gridPoint | .killRequest _ _ | .broadcastPassStart _ _ | .waitingRequestServed _ _
  | .recordComplete _ _ _ | .heldRequestRelease _ | .packetRoute _ _ | .escapeForward _ _ | .fenceRelease _ | .fenceTimeout _
  | .saturationCheck _ | .linkRetry _ _ _ _ | .linkRetrain _ _ | .bollumLinkUp _ _ _ | .portRetryTimer _
  | .beaconExchange _ _ _ _ _ _ _ | .swarmEntryComplete _ _ _ | .landComplete _ _ _ | .groupOutcome _ | .wglJobComplete _ _
  | .reamBuild _ _ _ | .reamBuildComplete _ _ _ | .foragerEntryComplete _ _ _ _ _ | .refetchFail _ _ | .rowRepairSwitch _ _
  | .retirementRedirect _ | .cxlFlitRetry _ _ _ | .stop _ _ _ | .setPrio _ _ _ | .cmdNop _ _ | .closeContext _ _ _
  | .switchover _ _ | .completionSend _ | .hexvanTraining _ _ | .hexvanLinkRetry _ _ _ _ | .hexvanCreditReturn _ _ _
  | .unitNop _ _ | .unitReset _ _ _ | .quiesce _ _ _ | .unitResume _ _ | .selfTest _ _ _ | .clearEvents _ _ | .powerOff _ _ _
  | .powerOn _ _ | .unitCommandComplete _ _ | .memberEventPropagate _ | .powerOnResetRelease | .deviceReset _ | .railPg _ _ _
  | .bringupStepTimeout _ _ | .powerLoss | .throttleRelease _ | .broadcastDesc _ _ | .broadcastRequest _ _ _ | .bcastHold _ _
  | .broadcastAttach _ _ _ | .broadcastDone _ _ | .chunkTimer | .holdTimeout | .pullRetryTimer | .chunkRetentionTimeout
  | .spareCell _ _ _ _ | .spareComb _ _ _ _ | .cxlDetach _ _ _ | .cxlAttach _ _ _ _ _ _ _ _ | .retireStack _ _ _ | .clearSoft _ _ _
  | .journalCompaction | .laneOut _ _ | .spareRole _ _ | .timePulse _ | .timeMessage _ | .noReferenceTimeout | .lockstepArm _ _ _ _ _ _
  | .lockstepDisarm _ _ | .digestTimeout | .logFold _ | .attestationRequest _ _ _ | .attestationReportReady _ | .authHello _ _
  | .authKem _ _ | .authFinish _ _ | .authTimeout _ | .keyChange _ _ | .heartbeat | .heartbeatLoss | .clockSwitchArm _ _
  | .frameSwitchArm _ _ _ | .domainOn _ _ | .domainOff _ _ | .domainSwitchDone _ | .pwrDuty _ _ | .bolInject _ _ _ | .hxvInject _ _ _
  | .traceArm _ _ _ | .i3cIbi | .ethernetLinkChange _ _ | .pulseVoid _ | .lockstepArmTimeout => true
  | .markerReceive _ src frame _ | .markerLate _ src frame => src.wf && fits 16 frame
  | .cellNop _ h | .endRec _ h | .waitRec _ h | .fence _ h => h.wf
  | .load _ h x | .store _ h x => h.wf && x.wf
  | .fill _ h x => h.wf && x.wf
  | .pass _ h x => h.wf && x.wf
  | .passSplit _ h x => h.wf && x.wf
  | .drain _ h x => h.wf && x.wf
  | .vectorCopy _ h x | .vectorAdd _ h x | .vectorSub _ h x | .vectorMul _ h x | .vectorFma _ h x | .vectorMax _ h x
  | .vectorMin _ h x | .vectorScale _ h x | .vectorExp _ h x | .vectorRecip _ h x | .vectorRsqrt _ h x | .vectorSum _ h x
  | .vectorAmax _ h x => h.wf && x.wf
  | .send _ h x => h.wf && x.wf
  | .rload _ h x | .rstore _ h x => h.wf && x.wf
  | .ratomicAdd _ h x | .ratomicMin _ h x | .ratomicMax _ h x | .ratomicSwap _ h x | .ratomicCas _ h x | .ratomicAnd _ h x
  | .ratomicOr _ h x => h.wf && x.wf
  | .rtrig _ h x => h.wf && x.wf
  | .alloc _ h x => h.wf && x.wf
  | .sendArrival _ id _ _ => fits 16 id
  | .remoteReply _ _ frame data _ => fits 16 frame && decide (data.length ≤ 512)
  | .remoteRefuse _ _ frame _ => fits 16 frame
  | .rloadRequest r n => r.wf && within 1 16 n
  | .rstoreRequest r _ data => r.wf && sectors data
  | .ratomicRequest r _ _ wide _ _ => r.wf && aligned (if wide then 8 else 4) r.addr
  | .rtrigArrival r _ trigId arg _ => r.wf && fits 16 trigId && arg.length == 32
  | .packetArrival _ raw => bolRaw raw
  | .ethDatagramReceive _ _ _ raw => bolRaw raw
  | .nodeQuery _ node _ | .queryTimeout node _ | .teardownRequest _ node => fits 11 node
  | .scoreFeed _ _ c _ | .bitmapFeed _ _ c _ | .routeReturn _ _ c _ | .dispatch _ _ c _ | .returnRows _ _ c _ | .combine _ _ c _
  | .land _ _ c _ | .liveTable _ _ c _ => c.wf
  | .colSend _ _ x | .colFold _ _ x => x.wf
  | .landPacketArrival _ k => k.wf
  | .voteArrival _ v => v.wf
  | .trailerArrival _ src pod groupId frame _ _ | .resendRequest _ src pod groupId frame
  | .resendArrival _ src pod groupId frame _ => src.wf && fits 8 pod && fits 12 groupId && fits 16 frame
  | .collectiveSourceQuery _ src pod frame => src.wf && fits 8 pod && fits 16 frame
  | .wglBlockIngest _ srcNode raw _ => fits 11 srcNode && decide (32 ≤ raw.length)
  | .select _ j _ | .second _ j _ | .topk _ j _ | .neuron _ j _ | .tally _ j _ => j.wf
  | .fetch _ _ _ e | .foragerWrite _ _ _ e | .gather _ _ _ e | .kvRead _ _ _ e | .kvWrite _ _ _ e | .flush _ _ _ e => e.wf
  | .refetchComplete _ _ x => x.data.length == 65536
  | .cacheDrain _ chunk => aligned 65536 chunk
  | .patrolPass cxl unit _ => !cxl || decide (unit.val < 4)
  | .loadImage _ _ _ offset => fits 32 offset
  | .start _ _ slice _ => fits 32 slice
  | .publish _ _ object _ => fits 24 object
  | .acquire _ _ _ cls comb => fits 8 cls && fits 8 comb
  | .release _ _ _ => true
  | .setDescriptor _ _ object _ offset => fits 24 object && fits 32 offset
  | .admitSeq _ _ _ _ kvLimit position promptEnd stopAt modelSlot prio _ =>
    fits 32 kvLimit && fits 32 position && fits 32 promptEnd && fits 32 stopAt && fits 8 modelSlot && fits 8 prio
  | .update _ _ _ entry _ _ kvLimit stopAt prio => fits 16 entry && fits 32 kvLimit && fits 32 stopAt && fits 8 prio
  | .hold _ _ _ entry | .resume _ _ _ entry | .remove _ _ _ entry => fits 16 entry
  | .openContext _ _ c p => fits 16 c && fits 8 p
  | .setPartition _ _ p _ _ _ => fits 8 p
  | .registerSlot _ _ slot _ offset => fits 8 slot && fits 32 offset
  | .releaseSlot _ _ slot => fits 8 slot
  | .updateComponent _ _ component _ offset _ _ _ _ _ => fits 8 component && fits 32 offset
  | .commandPacket _ raw | .hostWrite _ raw | .hostRead _ raw | .mgmtReq _ raw | .imageData _ raw => hxvRaw raw
  | .hostData _ x => hxvRaw x.data
  | .thermalSample readings => readings.length == 64
  | .powerSample watts => fits 12 watts
  | .broadcastData _ _ data _ => decide (data.length ≤ 65536)
  | .digestMessage _ _ _ frame _ level => fits 16 frame && decide (1 ≤ level.val)
  | .setWindow _ _ index _ | .clearWindow _ _ index | .setTrigger _ _ index _ | .clearTrigger _ _ index | .setGrant _ _ index _
  | .clearGrant _ _ index | .setHostWindow _ _ index _ | .clearHostWindow _ _ index | .setContextPorts _ _ index _
  | .setOwnerKey _ _ index _ | .revoke _ _ index _ | .setPolicy _ _ index _ _ _ => fits 16 index
  | .componentFault _ component cause _ => decide (component.val < 5) && decide (cause.val ≠ 0)
  | .watchdogExpiry _ component _ => decide (component.val < 5)
  | .injectCorr _ v => injMode v 1
  | .injectUncorr _ v => injMode v 2
  | .injectDelay _ v => injMode v 3
  | .i3cAccess addr wide write _ => fits 32 addr && !(wide && write)
  | .registerWrite _ addr _ _ => fits 25 addr
  | .nodeQueryArrival src _ ask => src.wf && ask.wf
  | .nodeQueryAnswer node _ r => fits 11 node && r.wf

end Sys2Proof
end

