-- ==== Sys2Proof/Certificates/Slice0/Obligations.lean ====
section
/-! DEFINITION. The statements for the provers: what the commands do, by the numbered rules of the spec. Every command of `Instr` has a
statement that says where it has its own effect. -/

open Sys2Proof
open Sys2Proof.Machine

/-! ## Cell records -/

/-- R94, R95, R107: every well-formed record is the 64 bytes of its words, and those bytes spell it again, header, command and operands.
Model choices it uses: none. -/
def Obligations.RecordsSpellTheirCommands : Prop :=
  ∀ (a : RecAt) (h : RecHdr) (b : RecBody), (recInstr a h b).wf = true →
    decodeRec (encodeRec h b) = some (h, b) ∧ (encodeRec h b).length = 64

/-- R102, R103, R105: a NOP, a WAIT whose tag has reached its count, and an END issue and complete at once, and advance their tag; an END's stream
is DONE. A FENCE completes at once when no earlier record of its stream is open; else it waits for those that are. They change nothing but their
cell and its registers, and class counts that a saturated tag may advance.
Model choices it uses: log entries 15 (DESIGN CHOICE), 97 (DEDUCED), 107 (DEDUCED). -/
def Obligations.RecordsWithoutResource : Prop :=
  ∀ (s : State) (a : RecAt) (h : RecHdr),
    let c := a.cell.val
    let issue := issueCycle s.dev a h
    let open_ := ((cellOf s.dev c).inflight.filter fun f => decide (f.stream = a.stream)).map InFl.id
    let quiet := fun (t : State) => t = { s with dev := { s.dev with regs := t.dev.regs, cells := t.dev.cells, pins := t.dev.pins } }
      ∧ (cellOf t.dev c).inflight = (cellOf s.dev c).inflight
    (canIssue s.dev a h .nop → ∃ t, exec (.cellNop a h) s = .next t ∧ Issued s.dev t.dev a h .running
        ∧ Signalled s.dev t.dev c h.sig h.sigTag.val issue ∧ quiet t)
    ∧ (canIssue s.dev a h .wait → ∃ t, exec (.waitRec a h) s = .next t ∧ Issued s.dev t.dev a h .running
        ∧ Signalled s.dev t.dev c h.sig h.sigTag.val issue ∧ quiet t)
    ∧ (canIssue s.dev a h .end_ → ∃ t, exec (.endRec a h) s = .next t ∧ Issued s.dev t.dev a h .done
        ∧ Signalled s.dev t.dev c h.sig h.sigTag.val issue ∧ quiet t)
    ∧ (canIssue s.dev a h .fence → ∃ t, exec (.fence a h) s = .next t ∧ Issued s.dev t.dev a h .running
        ∧ Signalled s.dev t.dev c (h.sig && open_.isEmpty) h.sigTag.val issue ∧ quiet t
        ∧ (open_ ≠ [] → (strmOf (cellOf t.dev c) a.stream.val).fencedBy = open_
            ∧ (strmOf (cellOf t.dev c) a.stream.val).live = false))

/-- R105, R107: a LOAD copies LENGTH sectors of a comb-store buffer into the cell's store, a STORE copies them the other way, and a FILL writes its
64-bit pattern; each changes no other byte, and is in flight on XFER until the cycle of Table 04-4. The records pass the checks of R115, XFER is free,
and no word that they read carries an error mark.
Model choices it uses: log entries 4 (DESIGN CHOICE), 21 (DEDUCED), 23 (DEDUCED), 107 (DEDUCED). -/
def Obligations.TransfersMoveBytes : Prop :=
  ∀ (s : State) (a : RecAt) (h : RecHdr),
    let c := a.cell.val
    let ready := fun (b : RecBody) => canIssue s.dev a h b ∧ recErr s.dev c b = none ∧ startsNow s.dev a h b
    (∀ x : XferOps, let comb := slotAddr s.dev c x.slot.val x.offset
      ready (.load x) → marksIn s.dev comb (32 * x.length) = [] → unpublished s.dev (cellPart s.dev c) comb (32 * x.length) = none →
      ∃ t, exec (.load a h x) s = .next t ∧ Issued s.dev t.dev a h .running
        ∧ FliesFor s.dev t.dev a h (.load x) (ceilDiv x.length 2) (16 + ceilDiv x.length 2) false
        ∧ readBytes t.dev (cellAddr c x.cellBase) (32 * x.length) = readBytes s.dev comb (32 * x.length)
        ∧ memBut (cellAddr c x.cellBase) (32 * x.length) s.dev t.dev)
    ∧ (∀ x : XferOps, let comb := slotAddr s.dev c x.slot.val x.offset
      ready (.store x) → marksIn s.dev (cellAddr c x.cellBase) (32 * x.length) = [] →
      ∃ t, exec (.store a h x) s = .next t ∧ Issued s.dev t.dev a h .running
        ∧ FliesFor s.dev t.dev a h (.store x) (ceilDiv x.length 2) (16 + ceilDiv x.length 2) false
        ∧ readBytes t.dev comb (32 * x.length) = readBytes s.dev (cellAddr c x.cellBase) (32 * x.length)
        ∧ memBut comb (32 * x.length) s.dev t.dev)
    ∧ (∀ x : FillOps, ready (.fill x) →
      ∃ t, exec (.fill a h x) s = .next t ∧ Issued s.dev t.dev a h .running
        ∧ FliesFor s.dev t.dev a h (.fill x) (ceilDiv x.length 2) (4 + ceilDiv x.length 2) false
        ∧ (∀ i, i < 4 * x.length → readBytes t.dev (cellAddr c x.cellBase + 8 * i) 8 = leBytes 8 x.pattern.toNat)
        ∧ memBut (cellAddr c x.cellBase) (32 * x.length) s.dev t.dev)

/-- R108, R109, R136: a vector operation writes, element by element, the operation's result on the elements of its sources; SUM and AMAX write one
element, the reduction of the source. It changes no other byte, and is in flight on VEC for V cycles and 20 more, when VEC is free, no power cap
withholds cycles and no source word carries an error mark.
Model choices it uses: log entries 12 (DEDUCED), 23 (DEDUCED), 107 (DEDUCED). -/
def Obligations.VectorWritesResults : Prop :=
  ∀ (op : Vop) (s : State) (a : RecAt) (h : RecHdr) (x : VecOps), canIssue s.dev a h (.vector op x) →
    let c := a.cell.val
    let f := vecFmt x.bf16
    let e := if x.bf16 then 2 else 4
    let elem := fun b i => decodeNum f (readLe s.dev (cellAddr c (b + e * i)) e)
    let v := vecCycles op e x.n
    let srcs := [(x.src0, x.n * e), (x.src1, x.n * e), (x.src2, x.n * e)].take op.sources
    localErr (srcs ++ [(x.dst, if op.reduces then e else x.n * e)]) = none → startsNow s.dev a h (.vector op x) →
    (∀ r ∈ srcs, marksIn s.dev (cellAddr c r.1) r.2 = []) → 16 ≤ dutyEff s.dev (cellPart s.dev c) →
    ∃ t, exec (vectorInstr op a h x) s = .next t ∧ Issued s.dev t.dev a h .running
      ∧ (op.reduces = false → ∀ i, i < x.n → readBytes t.dev (cellAddr c (x.dst + e * i)) e
          = leBytes e (vecElem op f (elem x.src0 i) (if 2 ≤ op.sources then elem x.src1 i else .zero)
              (if 3 ≤ op.sources then elem x.src2 i else .zero) x.scalar))
      ∧ (op.reduces = true → readBytes t.dev (cellAddr c x.dst) e
          = leBytes e (vecReduce op f ((List.range x.n).map (elem x.src0))))
      ∧ memBut (cellAddr c x.dst) (if op.reduces then e else x.n * e) s.dev t.dev
      ∧ FliesFor s.dev t.dev a h (.vector op x) v (20 + v) false

/-- R72 to R78, R82, R85, R86, R141: a PASS adds its steps to every accumulator of its bank, from 0 when CLEAR is set, over the dense operands or over the
effective operands of a sparse pass; a PASS_SPLIT does so quarter by quarter. No other bank and no byte of data space changes. The record is at work
from its start for I(k) cycles from its t0, its lags, and L cycles more. Stated for passes that wait for no broadcast and start at once, when no word of
data space carries an error mark and no power cap withholds cycles.
Model choices it uses: log entries 23 (DEDUCED), 97 (DEDUCED), 104 (DEDUCED), 107 (DEDUCED). -/
def Obligations.PassAddsToItsBank : Prop :=
  ∀ (s : State) (a : RecAt) (h : RecHdr), s.dev.marks = [] → 16 ≤ dutyEff s.dev (cellPart s.dev a.cell.val) →
    let c := a.cell.val
    let y := cellOf s.dev c
    let st := issueCycle s.dev a h
    let ready := fun (b : RecBody) => canIssue s.dev a h b ∧ recErr s.dev c b = none ∧ startsNow s.dev a h b
    let accOf := fun (d : Dev) (b : Fin 2) (i j : Nat) => smGetD 0 (bankOf d c b.val) (i * 128 + j)
    let others := fun (t : State) (b : Fin 2) => t.dev.mem = s.dev.mem ∧ ∀ k, k ≠ c * 2 + b.val → smGetD [] t.dev.acc k = smGetD [] s.dev.acc k
    let flown := fun (t : State) (b : RecBody) (n l : Nat) => ∃ f, Flies s.dev t.dev a h b f ∧ f.started = true ∧ f.start = st
      ∧ f.occEnd = passT0 y st + n + maxLag (openChain y st) ∧ f.due + 1 = passT0 y st + n + maxLag (openChain y st) + l ∧ f.waiting = false
    (∀ x : PassOps, ready (.pass x) → sparseErr s.dev c x = none → x.bcast = false →
      let live := if x.liveEn then min 128 (readLe s.dev (cellAddr c x.liveAddr) 4) else 128
      let k := 32 * x.u
      let sa := cellAddr c x.aScaleBase
      let sb := cellAddr c x.bScaleBase
      let tile := if x.sparseMode.val = 0
        then denseTile s.dev 0 128 live k x.aFmt.val x.bFmt.val (cellAddr c x.aBase) (cellAddr c x.bBase) x.group.val sa sb
        else sparseTile s.dev c live k x.aFmt.val x.bFmt.val x.aBase x.bBase x.group.val sa sb x.metaBase
          (sparseP s.dev c x.sparseMode.val x.sparseParam x.metaBase)
      ∃ t, exec (.pass a h x) s = .next t ∧ Issued s.dev t.dev a h .running ∧ others t x.bank
        ∧ (∀ i j, i < 128 → j < 128 → accOf t.dev x.bank i j
            = (tileElem tile (fmtIsInt x.aFmt.val) (if x.clear then 0 else accOf s.dev x.bank i j) i j).acc)
        ∧ flown t (.pass x) (passCycles false (max (fmtWidth x.aFmt.val) (fmtWidth x.bFmt.val)) k) 256)
    ∧ (∀ x : SplitOps, ready (.split x) →
      let k := 32 * x.u
      let tile := fun q =>
        let e := quarter s.dev c x q
        denseTile s.dev (32 * q) 32 (if e.liveEn then min 32 (readLe s.dev (cellAddr c e.live) 4) else 32) k x.aFmt.val x.bFmt.val
          (cellAddr c e.a) (cellAddr c e.b) x.group.val (cellAddr c e.sa) (cellAddr c e.sb)
      ∃ t, exec (.passSplit a h x) s = .next t ∧ Issued s.dev t.dev a h .running ∧ others t x.bank
        ∧ (∀ q i j, q < 4 → i < 32 → j < 128 → accOf t.dev x.bank (32 * q + i) j
            = (tileElem (tile q) (fmtIsInt x.aFmt.val) (if x.clear then 0 else accOf s.dev x.bank (32 * q + i) j) i j).acc)
        ∧ flown t (.split x) (passCycles true (max (fmtWidth x.aFmt.val) (fmtWidth x.bFmt.val)) k) 160)

/-- R74, R78, R130 to R135: a DRAIN writes its bank to the cell store or to a comb-store buffer: raw, the 16,384 accumulators in order, 4 bytes each;
else the Calender's elements in the output format, with the scales of output groups behind them. It changes no other byte and no accumulator. One that
finds its bank final and the previous drain complete starts at once and completes D cycles later. No word of data space carries an error mark.
Model choices it uses: log entries 97 (DEDUCED), 107 (DEDUCED). -/
def Obligations.DrainWritesItsBank : Prop :=
  ∀ (s : State) (a : RecAt) (h : RecHdr) (x : DrainOps), canIssue s.dev a h (.drain x) → s.dev.marks = [] → drainErr s.dev a.cell.val x = none →
    startsNow s.dev a h (.drain x) →
    let c := a.cell.val
    let y := cellOf s.dev c
    let dest := if x.toComb then slotAddr s.dev c x.destSlot.val x.destOffset else cellAddr c x.destBase
    let cfg := calCfg s.dev c x.calCfg.val
    let out := drainBytes s.dev c x.bank.val (if x.bank.val = 0 then y.int0 else y.int1) x.raw x.outFmt.val cfg x.stoch x.tensorKey
      (rdN s.dev (pPart (cellPart s.dev c)) Reg.CTL_SLICE_IDX)
    ∃ t, exec (.drain a h x) s = .next t ∧ Issued s.dev t.dev a h .running
      ∧ readBytes t.dev dest out.1.length = out.1
      ∧ (x.raw = true → ∀ i, i < 16384 → readBytes t.dev (dest + 4 * i) 4 = leBytes 4 (smGetD 0 (bankOf s.dev c x.bank.val) i).toNat)
      ∧ memBut dest out.1.length s.dev t.dev ∧ t.dev.acc = s.dev.acc
      ∧ FliesFor s.dev t.dev a h (.drain x) (drainCycles x) (drainCycles x) false

/-- R89: a broadcast pass issues and waits; it starts in no cell before every subscriber of its comb has reached it. The comb then starts it in all of
them in one cycle, the first in which each has reached it and the port is free, and the port is busy from then on. Stated when nothing but
broadcasts waits in the comb's cells, no word of data space carries an error mark and no power cap withholds cycles.
Model choices it uses: log entries 97 (DEDUCED), 104 (DEDUCED), 107 (DEDUCED). -/
def Obligations.BroadcastStartsTogether : Prop :=
  (∀ (s : State) (a : RecAt) (h : RecHdr) (x : PassOps), canIssue s.dev a h (.pass x) → passErr s.dev a.cell.val x = none → x.bcast = true →
    ∃ t, exec (.pass a h x) s = .next t ∧ Issued s.dev t.dev a h .running ∧ t.dev.acc = s.dev.acc ∧ t.dev.mem = s.dev.mem
      ∧ ∃ f, Flies s.dev t.dev a h (.pass x) f ∧ f.started = false ∧ f.start = issueCycle s.dev a h)
  ∧ ∀ (s : State) (k : Fin 32) (cycle : Nat) (l : List Sub), s.dev.marks = [] → 16 ≤ dutyEff s.dev ((combOwner s.dev k.val).getD 0) →
    (∀ i, i < 8 → ∀ f ∈ (cellOf s.dev (8 * k.val + i)).inflight, f.started = false → f.body.isBcast = true) →
    bcastReady s.dev k.val = some l → (∀ e ∈ l, e.ops.sparseMode.val = 0) →
    let t0 := bcastT0 s.dev k.val l
    t0 ≤ cycle →
    ∃ t, exec (.broadcastPassStart k cycle) s = .next t ∧ t.dev.mem = s.dev.mem ∧ t0 ≤ (combOf t.dev k.val).busy
      ∧ ∀ e ∈ l, let y := cellOf s.dev e.cell
          ∃ g ∈ (cellOf t.dev e.cell).inflight, g.id = e.fl.id ∧ g.started = true ∧ g.start = t0
          ∧ g.occEnd = passT0 y t0 + passCycles false (max (fmtWidth e.ops.aFmt.val) (fmtWidth e.ops.bFmt.val)) (32 * e.ops.u) + maxLag (openChain y t0)

/-- R103, R105, R113, R437: a SEND reads its sectors and is in flight on NET; in the cycle that its distance gives, its data is written in the target
cell's store, the target's tag advances, and the SEND can complete. Data for a cell that is in reset, or that lies on a comb in reset, is
discarded and counted.
Model choices it uses: log entries 23 (DEDUCED), 107 (DEDUCED). -/
def Obligations.SendsLeaveAndLand : Prop :=
  (∀ (s : State) (a : RecAt) (h : RecHdr) (x : SendOps), canIssue s.dev a h (.send x) →
    let c := a.cell.val
    let cells := partCells s.dev (cellPart s.dev c)
    localErr [(x.src, 32 * x.length), (x.targetBase, 32 * x.length)] = none → (hx : x.target < cells.length) → startsNow s.dev a h (.send x) →
    marksIn s.dev (cellAddr c x.src) (32 * x.length) = [] →
    let tgt := cells[x.target]
    let base := if tgt / 8 = c / 8 then 32 else if dieOfComb s.dev.fuses (tgt / 8) = dieOfComb s.dev.fuses (c / 8) then 80 else 240
    ∃ t, exec (.send a h x) s = .next t ∧ Issued s.dev t.dev a h .running ∧ t.dev.mem = s.dev.mem
      ∧ FliesFor s.dev t.dev a h (.send x) (ceilDiv x.length 2) (base + ceilDiv x.length 2) true
      ∧ (cellOf t.dev c).inflight.getLast?.map InFl.data = some (readBytes s.dev (cellAddr c x.src) (32 * x.length)))
  ∧ ∀ (s : State) (c : Fin 256) (id cycle : Nat) (target : Fin 256) (f : InFl) (x : SendOps),
    let d := s.dev
    let tgt := sendTarget d c.val x
    let land_ := fun (t : State) => ∃ t', exec (.sendArrival c id cycle target) s = .next t' ∧ t = t'
    (∀ g ∈ (cellOf d c.val).inflight, g.started = true) → (∀ g ∈ (cellOf d tgt).inflight, g.started = true) →
    (cellOf d c.val).inflight.find? (fun g => g.id == id) = some f → f.body = .send x → f.waiting = true → f.data ≠ [] →
    cycle = f.due → cycle ≤ cutCycle d (cellPart d c.val) → (partOf d (cellPart d c.val)).cutTaken = false → target.val = tgt →
    (((cellUnits d tgt).any fun u => stateIs d u .resetting) = false →
      ∃ t, land_ t ∧ readBytes t.dev (cellAddr tgt x.targetBase) f.data.length = f.data
        ∧ memBut (cellAddr tgt x.targetBase) f.data.length d t.dev ∧ (∀ k, k ≠ c.val → k ≠ tgt → cellOf t.dev k = cellOf d k)
        ∧ Signalled d t.dev tgt true x.targetTag.val cycle
        ∧ (cellOf t.dev c.val).inflight
            = (cellOf d c.val).inflight.map fun g => if g.id = id then { g with waiting := false, data := [] } else g)
    ∧ (((cellUnits d tgt).any fun u => stateIs d u .resetting) = true →
      ∃ t, land_ t ∧ t = { s with dev := { d with regs := t.dev.regs, cells := t.dev.cells } } ∧ (cellOf t.dev c.val).inflight = (cellOf d c.val).inflight
        ∧ rdB t.dev pBup Reg.BUP_EVENTS 3 = true ∧ rdN t.dev pBup Reg.BUP_ABSORBED = (rdN d pBup Reg.BUP_ABSORBED + 1) % 2 ^ 64
        ∧ regsBut [(pBup, Reg.BUP_EVENTS), (pBup, Reg.BUP_EVT_ABSORBED), (pBup, Reg.BUP_ABSORBED)] d t.dev)

/-- R106, R110, R345, R347: RLOAD, RSTORE, RATOMIC and RTRIG leave for a node of the pod when NET is free; an RLOAD switches its stream out, the others
do not.
Model choices it uses: log entries 22 (DEDUCED), 107 (DEDUCED). -/
def Obligations.RemoteOperationsLeave : Prop :=
  ∀ (s : State) (a : RecAt) (h : RecHdr),
    let c := a.cell.val
    let ready := fun (b : RecBody) => canIssue s.dev a h b ∧ recErr s.dev c b = none ∧ startsNow s.dev a h b
    (∀ x : RemOps, x.node < 2048 → nodeNames s.dev x.node = true →
      (ready (.rload x) → ∃ t, exec (.rload a h x) s = .next t ∧ Issued s.dev t.dev a h .switchedOut
        ∧ RemoteLeaves s t a h (.rload x) 1 x.node x.remoteOffset 1 (ceilDiv x.length 2) (32 * x.length) (leBytes 2 x.length))
      ∧ (ready (.rstore x) → marksIn s.dev (cellAddr c x.localBase) (32 * x.length) = [] →
        ∃ t, exec (.rstore a h x) s = .next t ∧ Issued s.dev t.dev a h .running
          ∧ RemoteLeaves s t a h (.rstore x) 2 x.node x.remoteOffset (ceilDiv x.length 2) (ceilDiv x.length 2) (32 * x.length)
              (readBytes s.dev (cellAddr c x.localBase) (32 * x.length))))
    ∧ (∀ (op : AtomOp) (x : AtomOps), x.node < 2048 → nodeNames s.dev x.node = true → ready (.ratomic op x) →
      ∃ t, exec (atomicInstr op a h x) s = .next t ∧ Issued s.dev t.dev a h .running
        ∧ RemoteLeaves s t a h (.ratomic op x) 3 x.node x.remoteOffset 1 1 32
            ([BitVec.ofNat 8 (aopCode op), BitVec.ofNat 8 (b2n x.wide)] ++ leBytes 8 x.operand.toNat ++ leBytes 8 x.compare.toNat))
    ∧ ∀ x : TrigOps, x.node < 2048 → nodeNames s.dev x.node = true → ready (.rtrig x) →
      ∃ t, exec (.rtrig a h x) s = .next t ∧ Issued s.dev t.dev a h .running
        ∧ RemoteLeaves s t a h (.rtrig x) 4 x.node 0 1 1 32 (leBytes 2 x.trigId ++ leBytes 1 x.targetCell.val ++ sliceBytes x.arg 0 32)

/-- R117, R285, R290 to R293, R297: an ALLOC that a pool can serve takes the head of the smallest class that has a free buffer, charges its context,
and completes 48 cycles after its start; one that no pool can serve, or that would pass its quota, waits and holds VATQ. A waiting request that now
fits is served: its record starts in that cycle.
Model choices it uses: log entries 5 (DESIGN CHOICE), 21 (DEDUCED), 107 (DEDUCED), 109 (DEDUCED). -/
def Obligations.AllocationsServeOrWait : Prop :=
  (∀ (s : State) (a : RecAt) (h : RecHdr) (x : AllocOps), canIssue s.dev a h (.alloc x) → startsNow s.dev a h (.alloc x) →
    let c := a.cell.val
    let p := cellPart s.dev c
    let ctx := ((running s.dev p).map Prod.fst).getD 0
    let img := (ctxOf s.dev ctx).image
    let sub := if x.tier.val = 0 then c / 8 else if x.tier.val = 2 then (img.map Image.portC).getD 0
      else if x.tier.val = 3 then (img.map Image.portF).getD 0 else 0
    let fits := fun (pool : Nat) => quotaUsed s.dev ctx x.tier.val + poolBytes pool ≤ quotaLimit s.dev ctx x.tier.val
    (∀ pool pos, pickPool s.dev x.tier.val x.cls sub = some (pool, pos) → fits pool →
      let idx := poolIdx pool sub pos
      let gen := (bufOf s.dev.vat pool idx).gen
      ∃ t, exec (.alloc a h x) s = .next t ∧ Issued s.dev t.dev a h .running ∧ t.dev.mem = s.dev.mem
        ∧ bufOf t.dev.vat pool idx = ⟨.frame, gen, p, ctx, false, false⟩
        ∧ quotaUsed t.dev ctx x.tier.val = quotaUsed s.dev ctx x.tier.val + poolBytes pool
        ∧ FliesFor s.dev t.dev a h (.alloc x) 1 48 false
        ∧ (cellOf t.dev c).inflight.getLast?.map InFl.alloc = some (some (x.slot.val, mkHandle pool idx gen, x.object)))
    ∧ ((∀ pool pos, pickPool s.dev x.tier.val x.cls sub = some (pool, pos) → ¬ fits pool) →
      ∃ t, exec (.alloc a h x) s = .next t ∧ Issued s.dev t.dev a h .running ∧ t.dev.mem = s.dev.mem
        ∧ ∃ f met, Flies s.dev t.dev a h (.alloc x) f ∧ f.started = false ∧ f.asked = true
            ∧ t.dev.vat = { s.dev.vat with waiting :=
                [⟨.cell c x.slot.val f.id, p, ctx, x.tier.val, x.cls, sub, x.object, false, issueCycle s.dev a h, met⟩] }))
  ∧ ∀ (s : State) (i : Fin 2) (cycle : Nat) (r : VatReq) (c slot id : Nat) (f : InFl), s.dev.vat.waiting = [r] → tierInst r.tier = i.val →
    r.by_ = .cell c slot id → listsDue s.dev (momentOf s.dev r.part cycle) = [] →
    (∀ e ∈ s.dev.cells, ∀ g ∈ e.2.inflight, g.started = false → g.asked = true) →
    (cellOf s.dev c).inflight.find? (fun g => g.id == id) = some f → f.body.res = some .vatq →
    ∀ pool pos, pickPool s.dev r.tier r.cls r.sub = some (pool, pos) →
    quotaUsed s.dev r.ctx r.tier + poolBytes pool ≤ quotaLimit s.dev r.ctx r.tier →
    let idx := poolIdx pool r.sub pos
    let gen := (bufOf s.dev.vat pool idx).gen
    ∃ t, exec (.waitingRequestServed i cycle) s = .next t ∧ t.dev.vat.waiting = [] ∧ t.dev.mem = s.dev.mem
      ∧ bufOf t.dev.vat pool idx = ⟨.frame, gen, r.part, r.ctx, r.mode2, false⟩
      ∧ (cellOf t.dev c).inflight = (cellOf s.dev c).inflight.map (fun g => if g.id = id then
          { g with started := true, start := cycle, occEnd := cycle + 1, due := cycle + 47, late := 0, why := 0, waiting := false
                   alloc := some (slot, mkHandle pool idx gen, r.object), asked := false } else g)

/-- R18, R103, R105, R110, R113: a record completes in its own completion cycle, and in no other: it leaves the records in flight, its tag advances, a
stream that its RLOAD switched out runs again, the slot that its ALLOC names is bound, and a FENCE that waited for it alone completes.
Model choices it uses: log entries 15 (DESIGN CHOICE), 22 (DEDUCED), 97 (DEDUCED). -/
def Obligations.RecordsComplete : Prop :=
  ∀ (s : State) (c : Fin 256) (id cycle : Nat) (f : InFl),
    let x := cellOf s.dev c.val
    let p := cellPart s.dev c.val
    let y := strmOf x f.stream.val
    (∀ g ∈ x.inflight, g.started = true) → x.inflight.find? (fun g => g.id == id) = some f →
    (cycle ≠ f.due → ∃ t, exec (.recordComplete c id cycle) s = .next t ∧ t = { s with dev := { s.dev with cells := t.dev.cells } }
      ∧ (cellOf t.dev c.val).inflight = x.inflight ∧ (cellOf t.dev c.val).tags = x.tags ∧ (cellOf t.dev c.val).slots = x.slots)
    ∧ (f.waiting = false → cycle = f.due → cycle ≤ cutCycle s.dev p → (partOf s.dev p).cutTaken = false →
      (y.fencedBy.contains id = false ∨ (y.fencedBy = [id] ∧ f.sig = false)) →
      ∃ t, exec (.recordComplete c id cycle) s = .next t ∧ t.dev.mem = s.dev.mem ∧ t.dev.acc = s.dev.acc ∧ cellsBut c.val s.dev t.dev
        ∧ (cellOf t.dev c.val).inflight = x.inflight.filter (fun g => g.id != id)
        ∧ (cellOf t.dev c.val).remotes = x.remotes.filter (fun r => r.id != id)
        ∧ (y.fencedBy.contains id = false → Signalled s.dev t.dev c.val f.sig f.sigTag.val cycle)
        ∧ (y.fencedBy = [id] → (strmOf (cellOf t.dev c.val) f.stream.val).fencedBy = []
            ∧ ∀ tag, y.fenceSig = some tag → Signalled s.dev t.dev c.val true tag cycle)
        ∧ (∀ r, remOf x id = some r → r.kind = 0 → y.state = .switchedOut → (strmOf (cellOf t.dev c.val) f.stream.val).state = .running)
        ∧ (∀ slot h obj, f.alloc = some (slot, h, obj) → smGetD 0 (cellOf t.dev c.val).slots slot = h))

/-- R110, R111, R114, R115: the reply of an RLOAD writes its bytes into the cell store, and with the last byte its record is due; a reply of another
frame is discarded and counted, and writes nothing; a refusal ends its operation and stops its stream with REMOTE_REFUSED.
Model choices it uses: log entries 15 (DESIGN CHOICE), 82 (DEDUCED). -/
def Obligations.RemoteRepliesReachTheirCell : Prop :=
  ∀ (s : State) (c : Fin 256) (op : Fin 16) (frame : Nat),
    ((cellUnits s.dev c.val).any fun u => stateIs s.dev u .resetting) = false → (∀ f ∈ (cellOf s.dev c.val).inflight, f.started = true) →
    (∀ (r : Rem) (data : List Byte) (cycle : Nat), frame = frameNum s.dev (cellPart s.dev c.val) →
      (cellOf s.dev c.val).remotes.find? (fun q => q.opId == op.val && q.frame == frame) = some r → r.kind = 0 → r.got + data.length = r.bytes →
      ∃ t, exec (.remoteReply c op frame data cycle) s = .next t
        ∧ readBytes t.dev (cellAddr c.val (r.localBase + r.got)) data.length = data
        ∧ memBut (cellAddr c.val (r.localBase + r.got)) data.length s.dev t.dev
        ∧ ∀ f ∈ (cellOf s.dev c.val).inflight, f.id = r.id →
            ∃ g ∈ (cellOf t.dev c.val).inflight, g.id = r.id ∧ g.due = max r.tab cycle ∧ g.waiting = false)
    ∧ (∀ (data : List Byte) (cycle : Nat), frame ≠ frameNum s.dev (cellPart s.dev c.val) →
      ∃ t, exec (.remoteReply c op frame data cycle) s = .next t
        ∧ t = { s with dev := { s.dev with regs := t.dev.regs, cells := t.dev.cells } }
        ∧ (cellOf t.dev c.val).inflight = (cellOf s.dev c.val).inflight ∧ (cellOf t.dev c.val).remotes = (cellOf s.dev c.val).remotes
        ∧ rdB t.dev (pCell c.val) Reg.CEL_FE_EVENTS 4 = true
        ∧ rdN t.dev (pCell c.val) Reg.CEL_EVT_STALE_REPLY = (rdN s.dev (pCell c.val) Reg.CEL_EVT_STALE_REPLY + 1) % 2 ^ 32
        ∧ regsBut [(pCell c.val, Reg.CEL_FE_EVENTS), (pCell c.val, Reg.CEL_EVT_STALE_REPLY)] s.dev t.dev)
    ∧ (∀ (r : Rem) (f : InFl) (code : Fin 16), frame = frameNum s.dev (cellPart s.dev c.val) →
      (cellOf s.dev c.val).remotes.find? (fun q => q.opId == op.val && q.frame == frame) = some r →
      (cellOf s.dev c.val).inflight.find? (fun g => g.id == r.id) = some f → f.recId < 65536 →
      ∃ t, exec (.remoteRefuse c op frame code) s = .next t ∧ t.dev.mem = s.dev.mem ∧ cellsBut c.val s.dev t.dev
        ∧ (strmOf (cellOf t.dev c.val) f.stream.val).state = .stopped
        ∧ (cellOf t.dev c.val).remotes = (cellOf s.dev c.val).remotes.filter (fun q => q.id != r.id)
        ∧ rdB t.dev (pCell c.val) Reg.CEL_FE_EVENTS 0 = true
        ∧ (rdB s.dev (pCell c.val) Reg.CEL_CMD_ERR 7 = false → rdF t.dev (pCell c.val) Reg.CEL_CMD_ERR 3 0 = 6
            ∧ rdF t.dev (pCell c.val) Reg.CEL_CMD_ERR_ID 31 16 = code.val))

/-- R102, R104, R115: a record that fails a check when it issues takes its issue cycle and has no other effect: its stream stops, and the first
failure of the frame is kept with its code; a handle that failed its check is recorded by its Vat instance. A record that passes its checks while its
resource is busy issues and waits in the resource's queue, with no other effect yet; one whose tag has not reached its count does not issue, and its
stream waits for the tag.
Model choices it uses: log entries 15 (DESIGN CHOICE), 107 (DEDUCED). -/
def Obligations.FailedRecordsStopTheirStream : Prop :=
  ∀ (s : State) (a : RecAt) (h : RecHdr) (b : RecBody),
    let c := a.cell.val
    let x := cellOf s.dev c
    (∀ e : RecErr, canIssue s.dev a h b → recErr s.dev c b = some e →
      ∃ t, exec (recInstr a h b) s = .next t ∧ t = { s with dev := { s.dev with regs := t.dev.regs, cells := t.dev.cells, pins := t.dev.pins } }
        ∧ (strmOf (cellOf t.dev c) a.stream.val).state = .stopped ∧ cellsBut c s.dev t.dev ∧ (cellOf t.dev c).lastIssue = issueCycle s.dev a h + 1
        ∧ (cellOf t.dev c).inflight = x.inflight ∧ (cellOf t.dev c).tags = x.tags
        ∧ rdB t.dev (pCell c) Reg.CEL_FE_EVENTS 0 = true
        ∧ (rdB s.dev (pCell c) Reg.CEL_CMD_ERR 7 = false → rdF t.dev (pCell c) Reg.CEL_CMD_ERR 3 0 = e.code)
        ∧ (e.code = 4 → rdB t.dev (pVat (poolInst (hPool e.handle))) Reg.VAT_EVENTS 3 = true))
    ∧ (∀ r, b.res = some r → canIssue s.dev a h b → recErr s.dev c b = none → issueCycle s.dev a h < startCycle x (issuedFl s.dev a h b) →
      ∃ t, exec (recInstr a h b) s = .next t ∧ t = { s with dev := { s.dev with regs := t.dev.regs, cells := t.dev.cells } }
        ∧ Issued s.dev t.dev a h (match b with
          | .rload _ => .switchedOut
          | _ => .running)
        ∧ ∃ f, Flies s.dev t.dev a h b f ∧ f.started = false ∧ f.start = issueCycle s.dev a h)
    ∧ (frontOpen s.dev c = true → nextOf x a.stream.val = some (h, b) → waitCycle x h = none →
      ∃ t, exec (recInstr a h b) s = .next t ∧ t = { s with dev := { s.dev with cells := t.dev.cells } } ∧ cellsBut c s.dev t.dev
        ∧ (strmOf (cellOf t.dev c) a.stream.val).state = .waitTag ∧ (cellOf t.dev c).inflight = x.inflight ∧ (cellOf t.dev c).tags = x.tags
        ∧ (strmOf (cellOf t.dev c) a.stream.val).recs = (strmOf x a.stream.val).recs)

/-! ## Registers -/

/-- R9, R10, R59: a 4-byte write that is accepted takes effect at once: a plain RW register holds the written bits of the value, or keeps its value
when that is out of range; a W1C register loses the bits written as 1. No other register changes, but for the health summary that CTL_HLT_EVENTS
feeds.
Model choices it uses: log entries 37 (DEDUCED), 67 (DEDUCED), 91 (DEDUCED). -/
def Obligations.RegisterWritesTakeEffect : Prop :=
  ∀ (s : State) (r : Requester) (u : Nat) (v : W64),
    (∀ q ∈ rwRegs (pageKind u), accessCode s.dev s.prop r u q.off false true = 0 →
      let n := maskN (v.toNat % 2 ^ 32) q.mask
      ∃ t, exec (.registerWrite r (u * 4096 + q.off) false v) s = .next t ∧ touches [(u, q.off)] s t
        ∧ rdN t.dev u q.off = if q.lo ≤ n ∧ n ≤ q.hi then n else rdN s.dev u q.off)
    ∧ ∀ e ∈ (Reg.UNIT_EVENTS, 0x3F) :: w1cRegs (pageKind u), accessCode s.dev s.prop r u e.1 false true = 0 →
      ∃ t, exec (.registerWrite r (u * 4096 + e.1) false v) s = .next t
        ∧ (∀ i, i < 64 → rdB t.dev u e.1 i = (rdB s.dev u e.1 i && !(bitAt v.toNat i && bitAt e.2 i)))
        ∧ (if u = pDev ∧ e.1 = Reg.CTL_HLT_EVENTS then
            t = { s with dev := { s.dev with regs := t.dev.regs, pins := { s.dev.pins with ibi := t.dev.pins.ibi } } }
              ∧ regsBut [(u, e.1), (pDev, Reg.CTL_HLT_SUMMARY)] s.dev t.dev
          else touches [(u, e.1)] s t)

/-- R62, R64, R392: a refused write has no effect but its record: in UNIT_ACCESS_ERR of the page, or of the device page when no unit is there, with
ACCESS_ERR; a firmware component is refused what its row of Table 15-8b does not hold. R514, R515: over I3C the tray controller reads the device page and
the registers of Table 21-4, writes CTL_HLT_EVENTS and PWR_PKG_LIMIT, and is refused with code 2 elsewhere, where a read returns 0xFFFFFFFF; an
interrupt that is due is raised with WORST.
Model choices it uses: log entries 91 (DEDUCED), 92 (DEDUCED), 93 (DEDUCED), 133 (DESIGN CHOICE). -/
def Obligations.RefusedAccessesAreRecorded : Prop :=
  (∀ (s : State) (r : Requester) (u off : Nat) (wide : Bool) (v : W64), off < 4096 →
    let code := valueCode (accessCode s.dev s.prop r u off wide true) r u off v.toNat wide true
    let w := if present s.dev.fuses u then u else pDev
    code ≠ 0 →
    ∃ t, exec (.registerWrite r (u * 4096 + off) wide v) s = .next t
      ∧ touches ((w, Reg.UNIT_ACCESS_ERR) :: headerRegs w .accessErr) s t
      ∧ rdN t.dev w Reg.UNIT_ACCESS_ERR = off + 4096 * code + 32768 + 65536 * r.toNat ∧ noticed s.dev t.dev w .accessErr)
  ∧ (∀ (s : State) (component : Fin 5) (u off : Nat) (v : W64), off < 4096 → off % 4 = 0 → present s.dev.fuses u = true →
    fwMayWrite component.val u off = false →
    let r : Requester := BitVec.ofNat 16 component.val
    valueCode (accessCode s.dev s.prop r u off false true) r u off v.toNat false true = 2)
  ∧ ∀ (s : State) (u off : Nat) (wide : Bool) (v : W32), off < 4096 → s.dev.pins.resetReleased = true →
    (i3cMayRead u off (accBytes wide) = true → accessCode s.dev s.prop i3cReq u off wide false = 0 →
      exec (.i3cAccess (u * 4096 + off) wide false v) s
        = .next { s with dev := { s.dev with pins := { s.dev.pins with i3cData := readReg s.dev u off wide } } })
    ∧ (i3cMayRead u off (accBytes wide) = false →
      let w := if present s.dev.fuses u then u else pDev
      ∃ t, exec (.i3cAccess (u * 4096 + off) wide false v) s = .next t ∧ t.dev.pins.i3cData = 0xFFFFFFFF
        ∧ t = { s with dev := { s.dev with regs := t.dev.regs, pins := { s.dev.pins with i3cData := 0xFFFFFFFF } } }
        ∧ rdN t.dev w Reg.UNIT_ACCESS_ERR = off + 4096 * 2 + 65536 * 0x2000
        ∧ regsBut ((w, Reg.UNIT_ACCESS_ERR) :: headerRegs w .accessErr) s.dev t.dev)
    ∧ (accessCode s.dev s.prop i3cReq pPwr Reg.PWR_PKG_LIMIT false true = 0 → 500 ≤ v.toNat % 4096 → v.toNat % 4096 ≤ 2000 →
      ∃ t, exec (.i3cAccess (pPwr * 4096 + Reg.PWR_PKG_LIMIT) false true v) s = .next t ∧ touches [(pPwr, Reg.PWR_PKG_LIMIT)] s t
        ∧ rdN t.dev pPwr Reg.PWR_PKG_LIMIT = v.toNat % 4096)
    ∧ ∃ t, exec .i3cIbi s = .next t ∧ t = { s with dev := { s.dev with pins := t.dev.pins } } ∧ t.dev.pins.ibi = false
        ∧ t.dev.pins.ibiSent = if s.dev.pins.ibi then (rdF s.dev pDev Reg.CTL_HLT_SUMMARY 2 0 :: s.dev.pins.ibiSent).take 16 else s.dev.pins.ibiSent

/-! ## Time -/

/-- R451 to R456, Table 18-1: a pulse waits for its message; the message gives the offset from tray time, and the offset moves the time state, while the
counter never jumps once it is set. A voided pulse counts; without any reference the state becomes FAULT, and the TIM block FAILED. A beacon gives
delay and offset of its port.
Model choices it uses: log entries 15 (DESIGN CHOICE), 19 (DEDUCED), 20 (DESIGN CHOICE), 95 (DESIGN CHOICE). -/
def Obligations.TimeFollowsItsReference : Prop :=
  ∀ s : State, timePhase s.dev = true →
    let tm := s.dev.tim
    (∀ c : Nat, exec (.timePulse c) s = .next { s with dev := { s.dev with tim := { tm with edge := some c } } })
    ∧ (∀ c t : Nat, tm.edge = some c → t % 1000000 = 0 →
      let off : Int := if tm.set then Int.ofNat c - Int.ofNat t else 0
      let good := if off.natAbs ≤ 10 then tm.good + 1 else 0
      ∃ u, exec (.timeMessage t) s = .next u ∧ u.dev.hall = (if tm.set then s.dev.hall else t)
        ∧ u.dev.tim = { tm with set := true, edge := none, void := 0, good := good }
        ∧ rdN u.dev pTim Reg.TIM_OFFSET = signed32 off ∧ rdF u.dev pTim Reg.TIM_STATUS 4 3 = 1
        ∧ (∃ r : Int, r.natAbs ≤ 10000 ∧ rdN u.dev pTim Reg.TIM_RATE_ADJ = signed32 r)
        ∧ (timeState s.dev ≠ 4 → timeState u.dev = if 1000 < off.natAbs then 4 else if 20 < off.natAbs then 3 else if 16 ≤ good then 1 else timeState s.dev)
        ∧ u = { s with dev := { s.dev with
          regs := u.dev.regs, hall := u.dev.hall, tim := u.dev.tim, pins := u.dev.pins, bup := u.dev.bup, freeSeq := u.dev.freeSeq } }
        ∧ pagesBut [pDev, pTim, pBup] s.dev u.dev)
    ∧ (∀ late : Bool, tm.void + 1 < 3 →
      ∃ u, exec (.pulseVoid late) s = .next u
        ∧ u = { s with dev := { s.dev with regs := u.dev.regs, tim := { tm with edge := none, good := 0, void := tm.void + 1 } } }
        ∧ (if late then occurred s.dev u.dev pTim Reg.TIM_EVENTS 4 Reg.TIM_EVT_PULSE_VOID
            ∧ regsBut [(pTim, Reg.TIM_EVENTS), (pTim, Reg.TIM_EVT_PULSE_VOID)] s.dev u.dev
          else u.dev.regs = s.dev.regs))
    ∧ (beaconOffset s.dev = none → (3 ≤ tm.void ∨ tm.set = false) → timeState s.dev ≠ 4 →
      ∃ u, exec .noReferenceTimeout s = .next u ∧ timeState u.dev = 4 ∧ rdF u.dev pTim Reg.TIM_STATUS 4 3 = 0 ∧ stateIs u.dev pTim .failed = true
        ∧ occurred s.dev u.dev pTim Reg.TIM_EVENTS 2 Reg.TIM_EVT_TIME_FAULT ∧ raised s.dev u.dev 6 pTim 0
        ∧ u = { s with dev := { s.dev with regs := u.dev.regs, pins := u.dev.pins } }
        ∧ regsBut ([(pTim, Reg.TIM_STATUS), (pTim, Reg.UNIT_STATE), (pTim, Reg.TIM_EVENTS), (pTim, Reg.TIM_EVT_TIME_FAULT)]
            ++ headerRegs pTim .stateChange ++ classRegs 6) s.dev u.dev)
    ∧ ∀ (i : Fin 32) (t1 t2 t3 t4 asym : Int) (lock : Bool), (let b := bolState s.dev i.val; b = 3 ∨ b = 4 ∨ b = 7) → tm.void < 3 →
      let q := bolOf s.dev i.val
      let delay := ((t4 - t1) - (t3 - t2)) / 2
      let ok := q.history.isEmpty || decide ((delay - q.delay).natAbs ≤ 5)
      ∃ u, exec (.beaconExchange i t1 t2 t3 t4 asym lock) s = .next u
        ∧ (bolOf u.dev i.val).history = (if ok then (((t2 - t1) - delay - asym) :: q.history).take 8 else q.history)
        ∧ (bolOf u.dev i.val).delay = delay ∧ (bolOf u.dev i.val).good = ok ∧ (ok = false → (bolOf u.dev i.val).offset = q.offset)
        ∧ smGetD false u.dev.tim.locked i.val = lock ∧ (∀ j, j ≠ i.val → bolOf u.dev j = bolOf s.dev j)
        ∧ u = { s with dev := { s.dev with
          fab := { s.dev.fab with ports := u.dev.fab.ports }, tim := { tm with locked := u.dev.tim.locked }, freeSeq := s.dev.freeSeq + 1 } }

/-! ## Frame lengths, clock, domains, duty, power and heat -/

/-- R12, R35, R36: an accepted write to CTL_FRAME_NEXT sets the next length and arms it; 7 is refused, and so is, with SWITCH_REFUSED, an arming below
the images' length, below what R35 needs, or that puts an armed clock switch off a tick. The length of an armed switch is held to the same conditions. R499: an accepted write to PWR_CLOCK_NEXT arms
the clock switch and the frame-length switches that it needs; one whose time does not meet the conditions sets CLOCK_REFUSED and leaves it unarmed.
Model choices it uses: log entry 68 (DEDUCED). -/
def Obligations.FrameAndClockSwitchesArm : Prop :=
  (∀ (s : State) (p : Fin 16) (r : Requester) (v : W32), accessCode s.dev s.prop r (pPart p.val) Reg.CTL_FRAME_NEXT false true = 0 →
    let u := pPart p.val
    let n := v.toNat % 8
    let arm := bitAt v.toNat 8
    let bad := (arm = true ∨ rdB s.dev u Reg.CTL_FRAME_NEXT 8 = true) ∧ ((∃ e ∈ images s.dev p.val, n < e.2.frameExp) ∨ n < partNeed s.dev p.val (slowClock s.dev)
      ∨ offClock s.dev n (rdN s.dev u Reg.CTL_FRAME_SWITCH) = true)
    (n = 7 → exec (.frameSwitchArm p r v) s = .next s)
    ∧ (n ≠ 7 → bad → ∃ t, exec (.frameSwitchArm p r v) s = .next t
        ∧ occurred s.dev t.dev u Reg.CTL_FRAME_STATUS 5 Reg.CTL_EVT_SWITCH_REFUSED
        ∧ touches [(u, Reg.CTL_FRAME_STATUS), (u, Reg.CTL_EVT_SWITCH_REFUSED)] s t)
    ∧ (n ≠ 7 → ¬ bad → ∃ t, exec (.frameSwitchArm p r v) s = .next t ∧ touches [(u, Reg.CTL_FRAME_NEXT)] s t
        ∧ rdF t.dev u Reg.CTL_FRAME_NEXT 2 0 = n ∧ rdB t.dev u Reg.CTL_FRAME_NEXT 16 = bitAt v.toNat 16
        ∧ rdB t.dev u Reg.CTL_FRAME_NEXT 8 = (rdB s.dev u Reg.CTL_FRAME_NEXT 8 || arm)))
  ∧ ∀ (s : State) (r : Requester) (v : W32), accessCode s.dev s.prop r pPwr Reg.PWR_CLOCK_NEXT false true = 0 →
    let n := v.toNat % 4
    n ≠ 3 → bitAt v.toNat 8 = true →
    (clockTimeOk s.dev n (rdN s.dev pPwr Reg.PWR_CLOCK_SWITCH) = false →
      ∃ t, exec (.clockSwitchArm r v) s = .next t ∧ clockArmed t.dev = none
        ∧ occurred s.dev t.dev pPwr Reg.PWR_EVENTS 3 Reg.PWR_EVT_CLOCK_REFUSED
        ∧ touches [(pPwr, Reg.PWR_CLOCK_NEXT), (pPwr, Reg.PWR_EVENTS), (pPwr, Reg.PWR_EVT_CLOCK_REFUSED)] s t)
    ∧ (clockTimeOk s.dev n (rdN s.dev pPwr Reg.PWR_CLOCK_SWITCH) = true → s.dev.hall < 2 ^ 63 →
      (∀ p e ts, p < 16 → clockSwitchOf s.dev p n = some (e, ts) → e ≤ 6) →
      ∃ t, exec (.clockSwitchArm r v) s = .next t ∧ clockArmed t.dev = some (n, rdN s.dev pPwr Reg.PWR_CLOCK_SWITCH)
        ∧ (∀ p e ts, p < 16 → clockSwitchOf s.dev p n = some (e, ts) → frameArmed t.dev p = some (e, ts))
        ∧ t = { s with dev := { s.dev with regs := t.dev.regs } }
        ∧ ∀ u o, o < 4096 → (u, o) ≠ (pPwr, Reg.PWR_CLOCK_NEXT) → (∀ p, p < 16 → (clockSwitchOf s.dev p n).isSome = true → u ≠ pPart p) →
            rd t.dev u o = rd s.dev u o)

/-- R498: a request of PWR_DOM_CTL that cannot act is answered in PWR_DOM_STATUS; one that can starts the switch, and a domain that goes off under a
running frame waits for its tick and kills the frame. A switch that ends leaves the domain on or off, its units OFF when it is off, and reports OK.
Model choices it uses: log entry 90 (DEDUCED). -/
def Obligations.DomainsSwitch : Prop :=
  (∀ (s : State) (r : Requester) (seq : BitVec 8) (on : Bool), accessCode s.dev s.prop r pPwr Reg.PWR_DOM_CTL false true = 0 →
    let n := rdF s.dev pPwr Reg.PWR_DOM_SEL 6 0
    let i := if on then Instr.domainOn r seq else Instr.domainOff r seq
    (∀ res, domRefuse s.dev n on = some res →
      ∃ t, exec i s = .next t ∧ touches [(pPwr, Reg.PWR_DOM_STATUS)] s t
        ∧ rdN t.dev pPwr Reg.PWR_DOM_STATUS = 256 * seq.toNat + 65536 * res)
    ∧ (domRefuse s.dev n on = none → (on = true ∨ domFrame s.dev n = none) →
      exec i s = .next { s with dev := { s.dev with pwr := { s.dev.pwr with switches := s.dev.pwr.switches ++ [⟨n, on, none, seq.toNat⟩] } } })
    ∧ ∀ p, domRefuse s.dev n on = none → on = false → domFrame s.dev n = some p →
      ∃ t, exec i s = .next t ∧ t = { s with dev := { s.dev with parts := t.dev.parts, cells := t.dev.cells } }
        ∧ (∀ q, q ≠ p → partOf t.dev q = partOf s.dev q)
        ∧ (partOf t.dev p).deferred = (partOf s.dev p).deferred ++ [⟨8192 + n, 6, seq.toNat, !(partOf s.dev p).cutTaken⟩]
        ∧ (if (partOf s.dev p).cutTaken then (partOf t.dev p).killNext = some ((partOf s.dev p).killNext.getD 4)
          else (partOf t.dev p).killNow = some ((partOf s.dev p).killNow.getD 4)))
  ∧ ∀ (s : State) (n : Fin 80) (w : DomSwitch), s.dev.pwr.switches.find? (fun x => x.dom == n.val) = some w → w.unit = none →
    ∃ t, exec (.domainSwitchDone n) s = .next t ∧ domOn t.dev n.val = w.on
      ∧ t.dev.pwr = { s.dev.pwr with switches := s.dev.pwr.switches.filter fun x => x.dom != n.val }
      ∧ rdN t.dev pPwr Reg.PWR_DOM_STATUS = 256 * (w.seq % 256)
      ∧ (w.on = false → t = { s with dev := { s.dev with regs := t.dev.regs, pwr := t.dev.pwr } }
          ∧ (∀ u ∈ fedBy s.dev n.val, stateIs t.dev u .off = true)
          ∧ pagesBut (pPwr :: (domGroup n.val false).flatMap (fedBy s.dev)) s.dev t.dev)

/-- R500, R501, R503, R504: a duty waits for its partition's tick; a power sample moves the limiter; a thermal sample is kept, throttles the group of a
hot sensor, and powers the package down at a critical one; a throttle releases after 10 ms below its release temperature.
Model choices it uses: log entries 1 (DESIGN CHOICE), 15 (DESIGN CHOICE), 94 (DEDUCED). -/
def Obligations.PowerAndHeatAreBounded : Prop :=
  ∀ s : State,
    (∀ (r : Requester) (v : W32), accessCode s.dev s.prop r pPwr Reg.PWR_DUTY false true = 0 →
      let n := v.toNat % 32
      let p := rdF s.dev pPwr Reg.PWR_DUTY_SEL 3 0
      ∃ t, exec (.pwrDuty r v) s = .next t
        ∧ t = { s with dev := { s.dev with pwr := { s.dev.pwr with dutyPend := if 1 ≤ n ∧ n ≤ 16 then smPut s.dev.pwr.dutyPend p n
          else s.dev.pwr.dutyPend } } })
    ∧ (∀ watts : Nat,
      let w := min watts 4095
      let limit := rdF s.dev pPwr Reg.PWR_PKG_LIMIT 11 0
      let on := rdB s.dev pPwr Reg.PWR_STATUS 2
      let engage := 2400 < w ∨ (limit < w ∧ 99 ≤ s.dev.pwr.above)
      let release := 10 * w ≤ 9 * limit ∧ 9 ≤ s.dev.pwr.calm
      ∃ t, exec (.powerSample watts) s = .next t
        ∧ rdB t.dev pPwr Reg.PWR_STATUS 2 = (if on then decide (¬ release) else decide engage)
        ∧ rdF t.dev pPwr Reg.PWR_PKG_POWER 11 0 = w
        ∧ t.dev.pwr = { s.dev.pwr with
            samples := (w :: s.dev.pwr.samples).take 100
            above := if limit < w then s.dev.pwr.above + 1 else 0
            calm := if 10 * w ≤ 9 * limit then s.dev.pwr.calm + 1 else 0 }
        ∧ (on = false → engage → occurred s.dev t.dev pPwr Reg.PWR_EVENTS 0 Reg.PWR_EVT_FAST_THROTTLE)
        ∧ t = { s with dev := { s.dev with regs := t.dev.regs, pwr := t.dev.pwr } }
        ∧ regsBut [(pPwr, Reg.PWR_PKG_POWER), (pPwr, Reg.PWR_STATUS), (pPwr, Reg.PWR_EVENTS), (pPwr, Reg.PWR_EVT_FAST_THROTTLE)] s.dev t.dev)
    ∧ (∀ rs : List Int, rs.length = 64 →
      let there := fun (i : Nat) => sensorThere s.dev.fuses i = true
      ((∀ i x, rs[i]? = some x → there i → x < (thermal (sensorGroup i)).2.2) →
        ∃ t, exec (.thermalSample rs) s = .next t
          ∧ (∀ i x, rs[i]? = some x → there i → smGetD 0 t.dev.pwr.temps i = x)
          ∧ (∀ i x, rs[i]? = some x → there i → (thermal (sensorGroup i)).2.1 ≤ x → rdB t.dev pPwr Reg.PWR_STATUS (throttleBit (sensorGroup i)) = true)
          ∧ t = { s with dev := { s.dev with regs := t.dev.regs, pwr := { s.dev.pwr with temps := t.dev.pwr.temps, cool := t.dev.pwr.cool } } }
          ∧ regsBut [(pPwr, Reg.PWR_STATUS), (pPwr, Reg.PWR_EVENTS), (pPwr, Reg.PWR_EVT_THERM_WARN), (pPwr, Reg.PWR_EVT_THERM_THROTTLE),
              (pPwr, Reg.PWR_TEMP_PEAK)] s.dev t.dev)
      ∧ ((∃ i x, rs[i]? = some x ∧ there i ∧ (thermal (sensorGroup i)).2.2 ≤ x) →
        ∃ t, exec (.thermalSample rs) s = .next t ∧ t.dev.pins.thermtripN = true ∧ t.dev.powered = false ∧ t.prop = s.prop ∧ t.pending = s.pending))
    ∧ ∀ g : Fin 14, ∃ t, exec (.throttleRelease g) s = .next t ∧ touches [(pPwr, Reg.PWR_STATUS)] s t
      ∧ rdB t.dev pPwr Reg.PWR_STATUS (throttleBit g.val)
          = (rdB s.dev pPwr Reg.PWR_STATUS (throttleBit g.val) && decide (smGetD 0 s.dev.pwr.cool g.val < 100))

/-! ## Injection and trace -/

/-- R516: an accepted write to CTL_INJ_CTL arms one injection: an error mark or a delay of a tier; a refused one says why. R333, R417: a write to
BOL_INJECT or HXV_INJECT with test rights sets the port's injection, and without is refused with code 2. R517: an accepted arming or disarming of trace
waits for the partition's tick; a refused one leaves only ARM_RESULT.
Model choices it uses: log entries 88 (DEDUCED), 89 (DEDUCED). -/
def Obligations.InjectionsAndTracesArm : Prop :=
  (∀ (s : State) (r : Requester) (v : W32) (mode : Fin 3), accessCode s.dev s.prop r pDev Reg.CTL_INJ_CTL false true = 0 →
      let i := match mode with
        | 0 => Instr.injectCorr r v
        | 1 => Instr.injectUncorr r v
        | 2 => Instr.injectDelay r v
      let seq := v.toNat / 256 % 256
      let delay := v.toNat / 65536
      let a := rdN s.dev pDev Reg.CTL_INJ_ADDR
      let res := injResult s.dev s.prop r (mode.val + 1) delay a
      (res = 0 → ∃ t, exec i s = .next t
        ∧ t = { s with dev := { s.dev with regs := t.dev.regs, marks := t.dev.marks, tier := { s.dev.tier with delayed := t.dev.tier.delayed } } }
        ∧ regsBut [(pDev, Reg.CTL_INJ_CTL), (pDev, Reg.CTL_INJ_STATUS)] s.dev t.dev
        ∧ rdN t.dev pDev Reg.CTL_INJ_STATUS = seq + 2048 ∧ rdN t.dev pDev Reg.CTL_INJ_CTL = mode.val + 1 + 256 * seq + 65536 * delay
        ∧ (mode.val < 2 → t.dev.tier = s.dev.tier ∧ (∃ k, smGet t.dev.marks (markKey a) = some k ∧ k.injected = true ∧ (mode.val = 1 → k.uncorr = true)
              ∧ (mode.val = 0 → inStore a = false → k.wrong.any (fun w => w.1 == a % 64) = true))
            ∧ ∀ k, k ≠ markKey a → smGet t.dev.marks k = smGet s.dev.marks k)
        ∧ (mode.val = 2 → t.dev.marks = s.dev.marks ∧ smGet t.dev.tier.delayed (tierOfAddr s.dev a) = some delay))
      ∧ (res ≠ 0 → ∃ t, exec i s = .next t ∧ touches [(pDev, Reg.CTL_INJ_STATUS)] s t
        ∧ rdF t.dev pDev Reg.CTL_INJ_STATUS 7 0 = seq ∧ rdF t.dev pDev Reg.CTL_INJ_STATUS 10 8 = res))
  ∧ (∀ (s : State) (r : Requester) (v : W32),
      let refused := fun (u off : Nat) (i : Instr) => ∃ t, exec i s = .next t
        ∧ touches ((u, Reg.UNIT_ACCESS_ERR) :: headerRegs u .accessErr) s t
        ∧ rdN t.dev u Reg.UNIT_ACCESS_ERR = off + 4096 * 2 + 32768 + 65536 * r.toNat ∧ noticed s.dev t.dev u .accessErr
      (∀ p : Fin 32, accessCode s.dev s.prop r (pBol p.val) Reg.BOL_INJECT false true = 0 →
        (granted s.prop r .test (pBol p.val) = true → v.toNat % 8 ≤ 4 → injFieldsOk (v.toNat % 8) v.toNat = true →
          ∃ t, exec (.bolInject p r v) s = .next t ∧ t = { s with dev := { s.dev with regs := t.dev.regs, fab := t.dev.fab } }
            ∧ regsBut [(pBol p.val, Reg.BOL_INJECT)] s.dev t.dev
            ∧ rd t.dev (pBol p.val) Reg.BOL_INJECT = (BitVec.ofNat 64 v.toNat &&& 0x0FFF1F07#64)
            ∧ t.dev.fab = { s.dev.fab with ports := t.dev.fab.ports } ∧ bolOf t.dev p.val = { bolOf s.dev p.val with injIndex := 0 }
            ∧ ∀ j, j ≠ p.val → bolOf t.dev j = bolOf s.dev j)
        ∧ (granted s.prop r .test (pBol p.val) = false → refused (pBol p.val) Reg.BOL_INJECT (.bolInject p r v)))
      ∧ (∀ p : Fin 2, accessCode s.dev s.prop r (pHxv p.val) Reg.HXV_INJECT false true = 0 →
        (granted s.prop r .test (pHxv p.val) = true → injFieldsOk (v.toNat % 4) v.toNat = true →
          ∃ t, exec (.hxvInject p r v) s = .next t ∧ t = { s with dev := { s.dev with regs := t.dev.regs, host := t.dev.host } }
            ∧ regsBut [(pHxv p.val, Reg.HXV_INJECT)] s.dev t.dev
            ∧ rd t.dev (pHxv p.val) Reg.HXV_INJECT = (BitVec.ofNat 64 v.toNat &&& 0x00FF1F03#64)
            ∧ t.dev.host = { s.dev.host with ports := t.dev.host.ports } ∧ hxvOf t.dev p.val = { hxvOf s.dev p.val with injIndex := 0 }
            ∧ ∀ j, j ≠ p.val → hxvOf t.dev j = hxvOf s.dev j)
        ∧ (granted s.prop r .test (pHxv p.val) = false → refused (pHxv p.val) Reg.HXV_INJECT (.hxvInject p r v)))
      ∧ ∀ p : Fin 16, accessCode s.dev s.prop r (pPart p.val) Reg.CTL_TRACE_CTL false true = 0 →
        let u := pPart p.val
        let arm := bitAt v.toNat 0
        let res := if arm then traceResult s.dev s.prop p.val r v.toNat else 0
        ∃ t, exec (.traceArm p r v) s = .next t ∧ rdF t.dev u Reg.CTL_TRACE_STATUS 1 0 = res
          ∧ t = { s with dev := { s.dev with regs := t.dev.regs, parts := t.dev.parts } }
          ∧ (res = 0 → regsBut [(u, Reg.CTL_TRACE_STATUS), (u, Reg.CTL_TRACE_CTL)] s.dev t.dev
              ∧ rd t.dev u Reg.CTL_TRACE_CTL = (BitVec.ofNat 64 v.toNat &&& 0x1F01#64)
              ∧ partOf t.dev p.val = { partOf s.dev p.val with traceArm := some arm } ∧ ∀ q, q ≠ p.val → partOf t.dev q = partOf s.dev q)
          ∧ (res ≠ 0 → touches [(u, Reg.CTL_TRACE_STATUS)] s t))

/-! ## The tiers and the Foragers -/

/-- R245: a line's 64 data bytes stand before 8 check bytes, and the word they make is zero at each root of the generator.
R261: the chunk that is next in its port's drain order goes to the device: its valid sectors are written, no other byte, and its slot is free.
R246, R255: a flit that is retried is counted, and a read that it delays is a disturbance of cause 3 and completes so much later. R251: the end of a
row's copy sends its accesses to the spare row. R246, R248, R250: a patrol pass that finds nothing counts the on-die corrections; it reports a line
with up to four wrong bytes as corrected, and lists one with more; what the tier manager does follows it. R282: a stack that has been copied is retired at the tick, its poisoned lines go
to the ports' lists, and its domains go off.
Model choices it uses: log entries 13 (DESIGN CHOICE), 54 (DEDUCED), 80 (DEDUCED), 119 (DESIGN CHOICE), 126 (DEDUCED). -/
def Obligations.TiersKeepTheirBytes : Prop :=
  (∀ data : List Byte, data.length = 64 →
    (codeword data).take 64 = data ∧ (codeword data).length = 72 ∧ syndromes (codeword data) = List.replicate 8 0)
  ∧ ∀ s : State,
    (∀ (port : Fin 4) (chunk : Nat) (x : CacheSlot), slotOf s.dev.tier chunk = some x → x.port = port.val → x.eligible = true →
      (∀ q ∈ s.dev.tier.slots, q.port = port.val → q.eligible = true → drainBefore q x = false) → (∀ n ∈ x.valid, n < 2048) → s.dev.marks = [] →
      poisonedIn s.dev chunk 65536 = [] →
      ∃ t, exec (.cacheDrain port chunk) s = .next t ∧ slotOf t.dev.tier chunk = none
        ∧ (∀ n ∈ x.valid, readBytes t.dev (chunk + 32 * n) 32 = (List.range 32).map fun i => smGetD 0 x.data (32 * n + i))
        ∧ (∀ a, (∀ n ∈ x.valid, a < chunk + 32 * n ∨ chunk + 32 * n + 32 ≤ a) → readByte t.dev a = readByte s.dev a)
        ∧ t = { s with dev := { s.dev with regs := t.dev.regs, mem := t.dev.mem, tier := { s.dev.tier with slots := t.dev.tier.slots } } }
        ∧ regsBut [(pCxl port.val, Reg.CXL_DRAINED_BYTES)] s.dev t.dev
        ∧ advanced s.dev t.dev (pCxl port.val) Reg.CXL_DRAINED_BYTES (32 * x.valid.length))
    ∧ (∀ (port : Fin 4) (late : Nat) (p : Fin 16),
      ∃ t, exec (.cxlFlitRetry port late p) s = .next t ∧ occurred s.dev t.dev (pCxl port.val) Reg.CXL_EVENTS 2 Reg.CXL_EVT_LINK_RETRY
        ∧ (late ≠ 0 → disturbed s.dev t.dev p.val causeLink late (pCxl port.val)
            ∧ t.dev.tier.runs = match retriedRun s.dev port.val p.val with
              | none => s.dev.tier.runs
              | some r => s.dev.tier.runs.map fun q => if q.inst = r.inst ∧ q.part = r.part ∧ q.id = r.id then { q with link := q.link + late } else q)
        ∧ (late = 0 → t.dev.parts = s.dev.parts ∧ t.dev.tier = s.dev.tier)
        ∧ t = { s with dev := { s.dev with
          regs := t.dev.regs, parts := t.dev.parts, tier := { s.dev.tier with runs := t.dev.tier.runs } } }
        ∧ regsBut ([(pCxl port.val, Reg.CXL_EVENTS), (pCxl port.val, Reg.CXL_EVT_LINK_RETRY)]
            ++ if late = 0 then [] else [(pPart p.val, Reg.CTL_DIST_EVENTS causeLink), (pPart p.val, Reg.CTL_DIST_CYCLES causeLink)]) s.dev t.dev)
    ∧ (∀ (st : Fin 8) (row : Nat), ((rowsOf s.dev st.val).any fun r => r.row == row && r.copying) = true →
      ∃ t, exec (.rowRepairSwitch st row) s = .next t
        ∧ rowsOf t.dev st.val = (rowsOf s.dev st.val).map (fun r => if r.row = row then { r with copying := false } else r)
        ∧ occurred s.dev t.dev (pMem st.val) Reg.MEM_EVENTS 2 Reg.MEM_EVT_ROW_REPAIR ∧ raised s.dev t.dev 3 (pMem st.val) 0
        ∧ t = { s with dev := { s.dev with regs := t.dev.regs, pins := t.dev.pins, tier := { s.dev.tier with rows := t.dev.tier.rows } } }
        ∧ regsBut ([(pMem st.val, Reg.MEM_EVENTS), (pMem st.val, Reg.MEM_EVT_ROW_REPAIR)] ++ classRegs 3) s.dev t.dev)
    ∧ (s.dev.marks = [] → s.dev.tier.tmRecord = [] →
      (∀ (st : Fin 8) (dies : List Nat), present s.dev.fuses (pMem st.val) = true → retiredStack s.dev st.val = false →
        let u := pMem st.val
        ∃ t, exec (.patrolPass false st ⟨[], dies, []⟩) s = .next t
          ∧ advanced s.dev t.dev u Reg.MEM_INNER_CORR (dies.foldl (· + ·) 0) ∧ advanced s.dev t.dev u Reg.MEM_PATROL_PASSES 1
          ∧ ((∃ n ∈ dies, 4096 < n) → rdB t.dev u Reg.MEM_EVENTS 3 = true)
          ∧ t = { s with dev := { s.dev with regs := t.dev.regs, tier := { s.dev.tier with rowCorr := t.dev.tier.rowCorr } } }
          ∧ regsBut [(u, Reg.MEM_INNER_CORR), (u, Reg.MEM_PATROL_PASSES), (u, Reg.MEM_EVENTS), (u, Reg.MEM_EVT_INNER_HIGH)] s.dev t.dev)
      ∧ (∀ (port : Fin 4) (line : Nat) (errs : List (Fin 72 × Byte)), line % 64 = 0 → tierOfAddr s.dev line ≠ 0 →
        memUnit s.dev line = pCxl port.val → listedLine s.dev line = false →
        let u := pCxl port.val
        let ws := errs.map fun e => (e.1.val, e.2)
        (1 ≤ wrongBytes ws → wrongBytes ws ≤ 4 →
          ∃ t, exec (.patrolPass true ⟨port.val, by omega⟩ ⟨[(line, errs)], [], []⟩) s = .next t
            ∧ occurred s.dev t.dev u Reg.CXL_EVENTS 0 Reg.CXL_EVT_CORR ∧ advanced s.dev t.dev u Reg.CXL_CORR_LINES 1
            ∧ noticed s.dev t.dev u .errCorr ∧ raised s.dev t.dev 1 u 0
            ∧ t = { s with dev := { s.dev with regs := t.dev.regs, pins := t.dev.pins, marks := [(line, ⟨false, false, some s.dev.hall, ws⟩)] } }
            ∧ regsBut ([(u, Reg.CXL_EVENTS), (u, Reg.CXL_EVT_CORR), (u, Reg.CXL_CORR_LINES)] ++ headerRegs u .errCorr ++ classRegs 1) s.dev t.dev)
        ∧ (4 < wrongBytes ws → s.dev.vat.bufs = [] → (smGetD [] s.dev.tier.poison (8 + port.val)).length < 512 →
          ∃ t, exec (.patrolPass true ⟨port.val, by omega⟩ ⟨[(line, errs)], [], []⟩) s = .next t
            ∧ occurred s.dev t.dev u Reg.CXL_EVENTS 1 Reg.CXL_EVT_UNCORR ∧ advanced s.dev t.dev u Reg.CXL_UNCORR_LINES 1
            ∧ noticed s.dev t.dev u .errUncorr ∧ listedLine t.dev line = true
            ∧ t = { s with dev := { s.dev with
              regs := t.dev.regs, bup := t.dev.bup, freeSeq := t.dev.freeSeq, marks := [(line, ⟨false, false, none, ws⟩)]
              tier := { s.dev.tier with poison := t.dev.tier.poison } } })))
    ∧ (∀ (cxl : Bool) (unit : Fin 8) (x : PatrolFacts), ∃ d, exec (.patrolPass cxl unit { x with acts := [] }) s = .next { s with dev := d }
      ∧ exec (.patrolPass cxl unit x) s = .next { s with dev := x.acts.foldl tierAct d })
    ∧ ∀ (st : Fin 8) (ex : List (Nat × Nat)), smGet s.dev.tier.retire st.val = some (.copying ex) → s.dev.marks = [] →
      ∃ t, exec (.retirementRedirect st) s = .next t ∧ smGet t.dev.tier.retire st.val = some (.retired ex)
        ∧ rdF t.dev (pMem st.val) Reg.MEM_STATE 1 0 = 2 ∧ rdN t.dev (pMem st.val) Reg.MEM_MIGRATE = 100
        ∧ domOn t.dev (36 + st.val) = false ∧ domOn t.dev (44 + st.val) = false ∧ raised s.dev t.dev 3 (pMem st.val) 0 ∧ t.dev.mem = s.dev.mem
        ∧ (∀ l ∈ smGetD [] s.dev.tier.poison st.val, listedLine t.dev l = true ∨ l ∈ t.dev.tier.tmRecord)
        ∧ t = { s with dev := { s.dev with
          regs := t.dev.regs, pins := t.dev.pins, bup := t.dev.bup, freeSeq := t.dev.freeSeq,
          tier := { s.dev.tier with retire := t.dev.tier.retire, poison := t.dev.tier.poison, tmRecord := t.dev.tier.tmRecord } } }

/-- R166, R261, R269, R271: a FETCH or WRITE writes what its conversion gives, without one the bytes it reads, and a GATHER packs the rows of the
neurons that each segment's bitmap selects, the rest of the slot being zeros; a WRITE into a cached port leaves them in the cache. Each runs for the
time that its rate and latencies give, and no other byte changes.
Model choices it uses: log entries 4 (DESIGN CHOICE), 36 (DEDUCED), 72 (DEDUCED), 124 (DESIGN CHOICE), 125 (DESIGN CHOICE). -/
def Obligations.ForagersMoveData : Prop :=
  ∀ (s : State) (i : Fin 2) (p : Fin 16) (cycle : Nat) (e : FgrEntry) (img : Image) (sl idx : Nat) (l : List (Nat × Nat)),
    let d := s.dev
    let only := fun (t : State) => t = { s with dev := { d with
        mem := t.dev.mem, parts := t.dev.parts, combs := t.dev.combs, tier := { d.tier with runs := t.dev.tier.runs, absent := t.dev.tier.absent } } }
      ∧ (∀ q, q ≠ p.val → partOf t.dev q = partOf d q)
      ∧ ∀ k, combOf t.dev k = { combOf d k with wrFrom := (combOf t.dev k).wrFrom, wrTo := (combOf t.dev k).wrTo }
    (∀ kind : Fin 2, fgrStarts d i.val p.val cycle (kind.val + 1) e img sl idx l → fgrMovesWell d i.val p.val cycle (kind.val + 1) e img l →
      let b := fgrBufs (kind.val + 1) l
      let q := fgrPlan d p.val img (kind.val + 1) e b
      let o := b.dst + e.dstOffset
      let x := if kind.val = 0 then Instr.fetch i p cycle e else Instr.foragerWrite i p cycle e
      (e.convert.val = 0 → q.writes = [(o, engBytes d (b.src + e.srcOffset) e.length)])
      ∧ ((∀ w ∈ q.writes, lands d w.1 w.2.length) → q.writes.Pairwise (fun v w => v.1 + v.2.length ≤ w.1 ∨ w.1 + w.2.length ≤ v.1) →
        ∃ t, exec x s = .next t ∧ fgrRuns d t.dev i.val p.val (kind.val + 1) idx cycle e img ∧ only t
          ∧ (∀ w ∈ q.writes, readBytes t.dev w.1 w.2.length = w.2)
          ∧ (∀ a, (∀ w ∈ q.writes, a < w.1 ∨ w.1 + w.2.length ≤ a) → readByte t.dev a = readByte d a))
      ∧ (∀ port, e.convert.val = 0 → portOfAddr d o = some port → cacheSlots d port ≠ 0 → o + e.length ≤ 0x80000000000 →
        ∃ t, exec x s = .next t ∧ fgrRuns d t.dev i.val p.val (kind.val + 1) idx cycle e img
          ∧ tierBytes t.dev o e.length = engBytes d (b.src + e.srcOffset) e.length
          ∧ (∀ c, c ∉ chunksIn o e.length → slotOf t.dev.tier c = slotOf d.tier c)
          ∧ t = { s with dev := { d with
            parts := t.dev.parts, tier := { d.tier with runs := t.dev.tier.runs, slots := t.dev.tier.slots } } }))
    ∧ (fgrStarts d i.val p.val cycle 3 e img sl idx l → fgrMovesWell d i.val p.val cycle 3 e img l →
      let b := fgrBufs 3 l
      let n := e.count * e.rowBytes * (e.length / 128)
      let sel := fun (g : Nat) => setBits (engLe d (b.aux + e.auxOffset + 16 * g) 16) 128
      lands d (b.dst + e.dstOffset) n →
        ∃ t, exec (.gather i p cycle e) s = .next t ∧ fgrRuns d t.dev i.val p.val 3 idx cycle e img ∧ only t
          ∧ (∀ g j, g < e.length / 128 → j < e.count →
              readBytes t.dev (b.dst + e.dstOffset + (g * e.count + j) * e.rowBytes) e.rowBytes
                = match (sel g)[j]? with
                  | some k => engBytes d (b.src + e.srcOffset + (128 * g + k) * e.rowBytes) e.rowBytes
                  | none => List.replicate e.rowBytes 0)
          ∧ memBut (b.dst + e.dstOffset) n d t.dev)

/-- R272: KV_READ gives each sequence of its ream the last rows of its KV buffer, in order, and zeros where there are none; KV_WRITE writes the new
rows of the ream's live rows to their positions, and skips and counts those that have no place.
Model choices it uses: log entry 78 (DEDUCED). -/
def Obligations.ForagersServeKvCaches : Prop :=
  ∀ (s : State) (i : Fin 2) (p : Fin 16) (cycle : Nat) (e : FgrEntry) (img : Image) (sl idx : Nat) (l : List (Nat × Nat)),
    let d := s.dev
    let vat := [pVat 0, pVat 1].flatMap fun u => [(u, Reg.VAT_EVENTS), (u, Reg.VAT_EVT_CHECK_FAIL), (u, Reg.VAT_LAST_ERR)]
    let only := fun (t : State) (bits : List Nat) => t = { s with dev := { d with
        regs := t.dev.regs, mem := t.dev.mem, parts := t.dev.parts, combs := t.dev.combs
        tier := { d.tier with runs := t.dev.tier.runs } } }
      ∧ regsBut (vat ++ bits.flatMap fun k => [(pFor i.val, Reg.FOR_EVENTS), (pFor i.val, Reg.FOR_EVT_LATE + 4 * k)]) d t.dev
    (fgrStarts d i.val p.val cycle 4 e img sl idx l → fgrMovesWell d i.val p.val cycle 4 e img l →
      let b := fgrBufs 4 l
      let n := e.count * e.length * e.rowBytes
      let rr := reamRows d img (b.aux + e.auxOffset)
      let row := fun (k : Nat) => if k < rr.2.1 then rr.2.2.find? fun r => r.first && r.seqK == k else none
      lands d (b.dst + e.dstOffset) n →
        ∃ t, exec (.kvRead i p cycle e) s = .next t ∧ fgrRuns d t.dev i.val p.val 4 idx cycle e img ∧ memBut (b.dst + e.dstOffset) n d t.dev
          ∧ (∀ k q, k < e.count → q < e.length →
              (∀ r, row k = some r → ∀ m, m < r.pos - (r.pos - e.length) →
                (kvPlace d p.val r.kv (r.pos - e.length + m) e.rowBytes false).toOption.isSome = true) →
              readBytes t.dev (b.dst + e.dstOffset + (k * e.length + q) * e.rowBytes) e.rowBytes
                = match row k with
                  | some r => if q < r.pos - (r.pos - e.length)
                      then engBytes d ((kvPlace d p.val r.kv (r.pos - e.length + q) e.rowBytes false).toOption.getD 0) e.rowBytes
                      else List.replicate e.rowBytes 0
                  | none => List.replicate e.rowBytes 0)
          ∧ only t [3, 4])
    ∧ (fgrStarts d i.val p.val cycle 5 e img sl idx l → fgrMovesWell d i.val p.val cycle 5 e img l →
      let b := fgrBufs 5 l
      let rows := (reamRows d img (b.aux + e.auxOffset)).2.2.take e.count
      let place := fun (k : Nat) => (rows[k]?).bind fun r => (kvPlace d p.val r.kv r.pos e.rowBytes true).toOption
      (∀ k a, place k = some a → lands d a e.rowBytes) →
      (∀ j k a c, j ≠ k → place j = some a → place k = some c → a + e.rowBytes ≤ c ∨ c + e.rowBytes ≤ a) →
        ∃ t, exec (.kvWrite i p cycle e) s = .next t ∧ fgrRuns d t.dev i.val p.val 5 idx cycle e img
          ∧ (∀ k a, place k = some a → readBytes t.dev a e.rowBytes = engBytes d (b.src + e.srcOffset + k * e.rowBytes) e.rowBytes)
          ∧ (∀ a, (∀ k c, place k = some c → a < c ∨ c + e.rowBytes ≤ a) → readByte t.dev a = readByte d a)
          ∧ ((∃ k, k < rows.length ∧ place k = none) → rdB t.dev (pFor i.val) Reg.FOR_EVENTS 3 = true)
          ∧ only t [3])

/-- R263, R269, R275, R276, R278 to R280: a FLUSH moves its buffer's chunks to the front of the drain order and completes at once; an entry whose
cycle has come completes, is counted, and advances its NOTIFY tag, and the cycles by which it is late are counted by tier and reason, or, where
sharing a tier made them, for the cause of the first delay; a refetched chunk enters the repair area, and the entries that waited for it go on; a
refetch that fails turns to the host replica, or else halts its partition.
Model choices it uses: log entries 15 (DESIGN CHOICE), 30 (DEDUCED), 120 (DEDUCED), 128 (DESIGN CHOICE). -/
def Obligations.ForagerEntriesEnd : Prop :=
  ∀ (s : State) (i : Fin 2),
    let d := s.dev
    let told := fun (t : State) (p slot tag cycle : Nat) => ∀ c, slotCell d p slot = some c → Signalled d t.dev c true tag cycle
    (∀ (p : Fin 16) (cycle : Nat) (e : FgrEntry) (img : Image) (sl idx : Nat) (a h : Nat),
      fgrStarts d i.val p.val cycle 6 e img sl idx [(a, h)] →
      ∃ t, exec (.flush i p cycle e) s = .next t ∧ t.dev.tier.done = d.tier.done ++ [(i.val, p.val, idx)]
        ∧ t.dev.tier.slots = d.tier.slots.map (fun x => if x.handle = h then { x with first := true } else x)
        ∧ (∀ b, img.bufList[e.dstRef]? = some b → b.mode = 1 → t.dev.tier.flushes = d.tier.flushes ++ [⟨p.val, h, b.object⟩])
        ∧ advanced d t.dev (pFor i.val) Reg.FOR_ENTRIES 1 ∧ (e.notifyEn = true → told t p.val e.notifySlot e.notifyTag.val cycle)
        ∧ t = { s with dev := { d with regs := t.dev.regs, cells := t.dev.cells, pins := t.dev.pins, tier := { d.tier with
          slots := t.dev.tier.slots, flushes := t.dev.tier.flushes, done := t.dev.tier.done } } })
    ∧ (∀ (p : Fin 16) (id cycle : Nat) (reason : Fin 8) (r : FgrRun),
      d.tier.runs.find? (fun r => r.inst == i.val && r.part == p.val && r.id == id && !r.fin) = some r → r.stalled = [] →
      fgrDue d r ≤ cycle → inFrame d p.val cycle = true →
      let sh := min (fgrStretch d r) (cycle - r.tab)
      let n := cycle - (r.tab + sh + r.late + r.link)
      let first := firstDelay d r
      let why := fgrReason d r reason.val
      ∃ t, exec (.foragerEntryComplete i p id cycle reason) s = .next t
        ∧ t.dev.tier = { d.tier with
          runs := d.tier.runs.map (fun q => if q.inst = i.val ∧ q.part = p.val ∧ q.id = id then { q with fin := true } else q)
          done := d.tier.done ++ [(i.val, p.val, id)] }
        ∧ advanced d t.dev (pFor i.val) Reg.FOR_BYTES r.bytes ∧ advanced d t.dev (pFor i.val) Reg.FOR_ENTRIES 1
        ∧ (r.tab < cycle → occurred d t.dev (pFor i.val) Reg.FOR_EVENTS 0 Reg.FOR_EVT_LATE)
        ∧ (n ≠ 0 → sh = 0 → 1 ≤ r.tier → r.tier ≤ 3 → r.reason ≤ 6 → disturbed d t.dev r.part causeTier n (r.tier * 16 + why)
            ∧ advanced d t.dev (pFor r.inst) (Reg.FOR_TL_EVENTS r.tier why) 1 ∧ advanced d t.dev (pFor r.inst) (Reg.FOR_TL_CYCLES r.tier why) n)
        ∧ (n = 0 → sh ≠ 0 → 1 ≤ first.1 → first.1 ≤ 5 → disturbed d t.dev r.part first.1 sh first.2)
        ∧ (∀ slot tag, r.notify = some (slot, tag) → told t p.val slot tag cycle)
        ∧ t = { s with dev := { d with
          regs := t.dev.regs, cells := t.dev.cells, pins := t.dev.pins, parts := t.dev.parts, tier := t.dev.tier } }
        ∧ (cycle ≤ r.tab → t.dev.parts = d.parts
            ∧ (r.notify = none → regsBut [(pFor i.val, Reg.FOR_BYTES), (pFor i.val, Reg.FOR_ENTRIES)] d t.dev)))
    ∧ (∀ (id cycle : Nat) (data : List Byte) (r : Refetch), d.tier.refetches.find? (fun r => r.inst == i.val && r.chunk == id * 65536) = some r →
      (if r.host = true then r.start else r.due) ≤ cycle →
      let full := decide (64 ≤ repairsUsed d i.val)
      ∃ t, exec (.refetchComplete i id ⟨cycle, data⟩) s = .next t
        ∧ t.dev.tier.runs = d.tier.runs.map (fun q => if q.stalled.contains (id * 65536) then
            { q with stalled := q.stalled.filter (· != id * 65536), ready := max q.ready cycle, reason := if full then 3 else q.reason } else q)
        ∧ t.dev.tier.repairs = (d.tier.repairs.filter fun q => q.chunk != id * 65536)
            ++ [⟨i.val, r.part, r.object, smGetD 0 (partOf d r.part).objects r.object, id * 65536, putBytes [] 0 (data.take 65536), full⟩]
        ∧ t.dev.tier.refetches = (d.tier.refetches.filter fun q => !(q.inst == i.val && q.chunk == id * 65536))
        ∧ advanced d t.dev (pFor i.val) Reg.FOR_REFETCH_CHUNKS 1
        ∧ (full = true → rdB t.dev (pFor i.val) Reg.FOR_EVENTS 6 = true)
        ∧ ((∀ q ∈ d.tier.runs, q.stalled.contains (id * 65536) = true → q.stalled.all (· == id * 65536) = false) →
          t = { s with dev := { d with regs := t.dev.regs, tier := { d.tier with
            refetches := t.dev.tier.refetches, repairs := t.dev.tier.repairs, runs := t.dev.tier.runs } } }
          ∧ regsBut [(pFor i.val, Reg.FOR_REFETCH_CHUNKS), (pFor i.val, Reg.FOR_EVENTS), (pFor i.val, Reg.FOR_EVT_LATE + 24)] d t.dev))
    ∧ ∀ (id : Nat) (r : Refetch), d.tier.refetches.find? (fun r => r.inst == i.val && r.chunk == id * 65536) = some r → r.part < 16 →
      let x := descOf d r.part r.object
      (r.host = false → x.hostRep = true →
        ∃ t, exec (.refetchFail i id) s = .next t ∧ t.dev.mem = d.mem ∧ t.dev.parts = d.parts
          ∧ t.dev.tier.refetches = d.tier.refetches.map (fun q => if q.inst = i.val ∧ q.chunk = id * 65536 then { q with host := true } else q)
          ∧ ∃ j, (hxvOf t.dev j).fetches = (hxvOf d j).fetches ++ [⟨(hxvOf d j).nextReq, i.val, id * 65536, [], d.hall⟩])
      ∧ ((r.host = true ∨ x.hostRep = false) →
        ∃ t, exec (.refetchFail i id) s = .next t ∧ t.dev.mem = d.mem ∧ rdB t.dev (pPart r.part) Reg.CTL_FRAME_STATUS 6 = true
          ∧ t.dev.tier.refetches = d.tier.refetches.filter (fun q => !(q.inst == i.val && q.chunk == id * 65536))
          ∧ occurred d t.dev (pFor i.val) Reg.FOR_EVENTS 2 (Reg.FOR_EVT_LATE + 8) ∧ raised d t.dev 4 (pPart r.part) (frameNum d r.part))

/-! ## Remote operations at their target -/

/-- R112, R337, R338, R340, R343, R346, R347: an RLOAD is answered with its window's bytes; an RSTORE and an RATOMIC are staged; a granted RTRIG starts
its stream in the fourth cycle after it, or fails it where its argument has no place (R115); a held request acts at cycle 0. A request that a check of Table 13-3 fails is refused with its code and a
REFUSE packet, one of the next frame waits from the cut on, and one of another frame is dropped and counted.
Model choices it uses: log entries 22 (DEDUCED), 78 (DEDUCED), 81 (DEDUCED). -/
def Obligations.RemoteRequestsAreServedOrRefused : Prop :=
  (∀ (s : State) (r : RemReq), reachable s.dev r.src.node → s.dev.marks = [] →
      let d := s.dev
      (∀ n : Nat, answeredNow d s.prop r 1 (32 * n) → requestCode d s.prop r 1 (32 * n) = 0 → poisonedIn d r.addr (32 * n) = [] →
        let p := answersFor s.prop r 1 (32 * n)
        ∃ t, exec (.rloadRequest r n) s = .next t ∧ replied d t.dev r p 5 (splitPayload (publishedBytes d r.addr (32 * n)))
          ∧ t = { s with dev := { d with regs := t.dev.regs, fab := t.dev.fab } } ∧ regsBut [(pPart p, Reg.CTL_RMT_LOADS_SERVED)] d t.dev
          ∧ advanced d t.dev (pPart p) Reg.CTL_RMT_LOADS_SERVED 1)
      ∧ (∀ (pair type n : Nat) (what : StagedDo) (i : Instr) (l : List Byte),
        (∃ data, i = .rstoreRequest r pair data ∧ type = 2 ∧ n = data.length ∧ what = .store data ∧ l = [])
          ∨ (∃ op wide x y, i = .ratomicRequest r pair op wide x y ∧ type = 3 ∧ n = (if wide then 8 else 4) ∧ what = .atomic op wide x y
              ∧ poisonedIn d r.addr n = [] ∧ l = publishedBytes d r.addr n) →
        answeredNow d s.prop r type n → requestCode d s.prop r type n = 0 →
        let p := r.destPart.val
        let o : StagedOp := ⟨p, r.src, r.frame, pair, r.addr, what⟩
        let used := (d.rmt.staging.filter fun q => q.part == p && decide (q.src = r.src)).foldl (fun n q => n + stagedBytes q) 0
        used + stagedBytes o ≤ stagingFor d p r.src →
        ∃ t, exec i s = .next t ∧ replied d t.dev r p 5 [(0, l)]
          ∧ t = { s with dev := { d with regs := t.dev.regs, fab := t.dev.fab, rmt := { d.rmt with staging := d.rmt.staging ++ [o] } } }
          ∧ regsBut [(pPart p, Reg.CTL_RMT_STAGED_BYTES)] d t.dev ∧ advanced d t.dev (pPart p) Reg.CTL_RMT_STAGED_BYTES (stagedBytes o))
      ∧ (∀ (c : Fin 256) (id cycle st : Nat) (arg : List Byte),
        let p := r.destPart.val
        frameAns d (some p) r.frame = .go → ((pPart p :: cellUnits d c.val).any fun u => stateIs d u .resetting) = false →
        (s.prop.triggers.any fun e => triggerMatch e.2 p c.val id r.src) = true → trigStream (cellOf d c.val) id = some st →
        (partOf d p).cutTaken = false → (strmOf (cellOf d c.val) st).trigCyc = none →
        let off := ((strmOf (cellOf d c.val) st).desc.map StreamDesc.argOffset).getD 0
        (argCode off = 0 → ∃ t, exec (.rtrigArrival r c id arg cycle) s = .next t ∧ replied d t.dev r p 5 [(0, [])]
          ∧ readBytes t.dev (cellAddr c.val off) 32 = sliceBytes arg 0 32 ∧ memBut (cellAddr c.val off) 32 d t.dev ∧ cellsBut c.val d t.dev
          ∧ strmOf (cellOf t.dev c.val) st = { strmOf (cellOf d c.val) st with state := .running, trigCyc := some (cycle + 4) }
          ∧ t = { s with dev := { d with mem := t.dev.mem, cells := t.dev.cells, parts := t.dev.parts, fab := t.dev.fab } })
        ∧ (argCode off ≠ 0 → ∃ t, exec (.rtrigArrival r c id arg cycle) s = .next t
          ∧ strmOf (cellOf t.dev c.val) st = { strmOf (cellOf d c.val) st with state := .stopped } ∧ cellsBut c.val d t.dev
          ∧ occurred d t.dev (pCell c.val) Reg.CEL_FE_EVENTS 0 Reg.CEL_EVT_CMD_ERR
          ∧ (rdB d (pCell c.val) Reg.CEL_CMD_ERR 7 = false → rdF t.dev (pCell c.val) Reg.CEL_CMD_ERR 3 0 = argCode off)
          ∧ t = { s with dev := { d with regs := t.dev.regs, cells := t.dev.cells } }))
      ∧ ∀ (p : Fin 16) (h : HeldReq) (i : Instr), (partOf d p.val).cutTaken = false → d.rmt.waiting = [h] →
        ((∃ n, h = .rload r n ∧ i = .rloadRequest r n ∧ (framePart s.prop r 1 (32 * n)).getD r.destPart.val = p.val)
          ∨ (∃ pair data, h = .rstore r pair data ∧ i = .rstoreRequest r pair data ∧ r.destPart = p)
          ∨ ∃ pair op wide x y, h = .ratomic r pair op wide x y ∧ i = .ratomicRequest r pair op wide x y ∧ r.destPart = p) →
        let o : State := { s with dev := { d with rmt := { d.rmt with waiting := [] } } }
        ∃ t, exec (.heldRequestRelease p) s = .next t ∧ exec i o = .next t)
  ∧ (∀ (s : State) (r : RemReq) (type n : Nat) (i : Instr) (held : HeldReq),
      (∃ k, i = .rloadRequest r k ∧ type = 1 ∧ n = 32 * k ∧ held = .rload r k)
        ∨ (∃ pair data, i = .rstoreRequest r pair data ∧ type = 2 ∧ n = data.length ∧ held = .rstore r pair data)
        ∨ (∃ pair op wide x y, i = .ratomicRequest r pair op wide x y ∧ type = 3 ∧ n = (if wide then 8 else 4) ∧ held = .ratomic r pair op wide x y) →
      let d := s.dev
      let f := framePart s.prop r type n
      stateIs d (pPart (f.getD r.destPart.val)) .resetting = false →
      (frameAns d f r.frame = .stale →
        let u := pPart (f.getD 0)
        ∃ t, exec i s = .next t ∧ touches [(u, Reg.CTL_RMT_EVENTS), (u, Reg.CTL_EVT_STALE_REQUEST)] s t
          ∧ occurred d t.dev u Reg.CTL_RMT_EVENTS 0 Reg.CTL_EVT_STALE_REQUEST)
      ∧ (frameAns d f r.frame = .hold →
        exec i s = .next { s with dev := { d with rmt := { d.rmt with waiting := d.rmt.waiting ++ [held] } } })
      ∧ (frameAns d f r.frame = .go → requestCode d s.prop r type n ≠ 0 → reachable d r.src.node →
        let p := answersFor s.prop r type n
        let u := pPart p
        ∃ t, exec i s = .next t ∧ replied d t.dev r p 6 [(0, [BitVec.ofNat 8 (requestCode d s.prop r type n)])]
          ∧ t = { s with dev := { d with regs := t.dev.regs, fab := t.dev.fab } }
          ∧ regsBut [(u, Reg.CTL_RMT_EVENTS), (u, Reg.CTL_EVT_REFUSED), (u, Reg.CTL_RMT_LAST_REFUSE)] d t.dev
          ∧ occurred d t.dev u Reg.CTL_RMT_EVENTS 1 Reg.CTL_EVT_REFUSED
          ∧ rdN t.dev u Reg.CTL_RMT_LAST_REFUSE = requestCode d s.prop r type n + 16 * r.src.node + 2 ^ 15 * r.src.part.val))
/-- R29, R31, R348, R349: a marker is held, and an abort discards the staging of its frame; one that the commit map names and the cut of F + 2 does not find sets MARKER_LATE. A query goes out twice, on
the route and on the escape channel, and waits for its answer; a node that does not answer while its controller is silent is dead: every partition
with a member there is torn down, HALTED, with its records. This device answers the queries of others.
Model choices it uses: log entries 25 (DESIGN CHOICE), 32 (DEDUCED). -/
def Obligations.MarkersAndQueries : Prop :=
  ∀ (s : State) (p : Fin 16),
    let d := s.dev
    (∀ (src : Peer) (frame : Nat) (commit : Bool), (∀ m ∈ d.rmt.held, ¬ (m.part = p.val ∧ m.peer = src ∧ m.frame = frame)) →
      ∃ t, exec (.markerReceive p src frame commit) s = .next t
        ∧ t.dev.rmt = { d.rmt with
          held := d.rmt.held ++ [⟨p.val, src, frame, commit, false⟩]
          lateAsk := d.rmt.lateAsk.filter fun m => !(m.part == p.val && decide (m.peer = src) && m.frame == frame)
          staging := if commit then d.rmt.staging
            else d.rmt.staging.filter fun o => !(o.part == p.val && decide (o.src = src) && o.frame == frame) }
        ∧ t = { s with dev := { d with rmt := t.dev.rmt, col := { d.col with blks := t.dev.col.blks } } }
        ∧ (commit = true → t.dev.col.blks = d.col.blks))
    ∧ (∀ (src : Peer) (frame : Nat), (∀ m ∈ d.rmt.held, ¬ (m.part = p.val ∧ m.peer = src ∧ m.frame = frame ∧ m.atCut = true)) →
      mapNames d p.val src = true → cutPast d p.val frame 2 = true →
      ∃ t, exec (.markerLate p src frame) s = .next t ∧ occurred d t.dev (pPart p.val) Reg.CTL_FRAME_STATUS 4 Reg.CTL_EVT_MARKER_LATE
        ∧ t = { s with dev := { d with regs := t.dev.regs, rmt := { d.rmt with lateAsk := d.rmt.lateAsk ++ [⟨p.val, src, frame, true, false⟩] } } }
        ∧ regsBut [(pPart p.val, Reg.CTL_FRAME_STATUS), (pPart p.val, Reg.CTL_EVT_MARKER_LATE)] d t.dev)
    ∧ (∀ (node : Nat) (why : QueryWhy), queryDue d p.val node why = true → reachable d node →
      ∃ t, exec (.nodeQuery p node why) s = .next t ∧ occurred d t.dev (pPart p.val) Reg.CTL_RMT_EVENTS 4 Reg.CTL_EVT_QUERY
        ∧ (∃ a b, entered d t.dev [a, b] ∧ a.pkt.type = 11 ∧ b.pkt.type = 11 ∧ a.pkt.cls = 1 ∧ b.pkt.cls = 2
            ∧ placeNode a.pkt.dest = node ∧ placeNode b.pkt.dest = node)
        ∧ t = { s with dev := { d with
          regs := t.dev.regs, fab := t.dev.fab, rmt := { d.rmt with queries := d.rmt.queries ++ [⟨p.val, node, why, false⟩] } } }
        ∧ regsBut [(pPart p.val, Reg.CTL_RMT_EVENTS), (pPart p.val, Reg.CTL_EVT_QUERY)] d t.dev)
    ∧ (∀ node : Nat, (∃ q ∈ d.rmt.queries, q.node = node ∧ q.answered = false) → p.val ∈ partsWith d node →
      ∃ t, exec (.queryTimeout node false) s = .next t ∧ rdB t.dev (pPart p.val) Reg.CTL_FRAME_STATUS 6 = true ∧ (p.val, node) ∈ t.dev.rmt.torn
        ∧ (∀ q ∈ t.dev.rmt.queries, q.node ≠ node) ∧ t.dev.mem = d.mem ∧ t.prop = s.prop)
    ∧ (∀ node : Nat, jobMembers d p.val ≠ [] →
      let u := pPart p.val
      let now := frameNum d p.val
      ∃ t, exec (.teardownRequest p node) s = .next t ∧ rdB t.dev u Reg.CTL_FRAME_STATUS 6 = true ∧ raised d t.dev 5 u now
        ∧ occurred d t.dev u Reg.CTL_RMT_EVENTS 5 Reg.CTL_EVT_TEARDOWN
        ∧ rdN t.dev u Reg.CTL_RMT_TEARDOWN = node % 2048 + (now + 65535) % 65536 * 65536
        ∧ t.dev.rmt.torn = d.rmt.torn ++ [(p.val, node)] ∧ (∀ o ∈ t.dev.rmt.staging, o.part = p.val → o.src.node ≠ node)
        ∧ t = { s with dev := { d with
          regs := t.dev.regs, pins := t.dev.pins, parts := t.dev.parts, cells := t.dev.cells, ctxs := t.dev.ctxs, rmt := t.dev.rmt,
          host := t.dev.host } })
    ∧ (∀ src : Peer, reachable d src.node →
      (∃ t a, exec (.nodeQueryArrival src p .alive) s = .next t ∧ entered d t.dev [a] ∧ a.pkt.type = 11 ∧ placeNode a.pkt.dest = src.node
        ∧ t = { s with dev := { d with fab := t.dev.fab } })
      ∧ ∀ (dest frame : Nat) (part : Fin 16),
        ∃ t a, exec (.nodeQueryArrival src p (.packetsSent dest part frame)) s = .next t ∧ entered d t.dev [a] ∧ a.pkt.type = 11
          ∧ placeNode a.pkt.dest = src.node ∧ a.pkt.payload = leBytes 4 (pairNext d part.val dest frame)
          ∧ t = { s with dev := { d with fab := t.dev.fab } })
    ∧ ∀ (node : Nat) (part : Fin 16) (frame count : Nat),
      let seen := ((smGetD [] d.fab.arrivals (node * 16 + part.val)).find? fun e => e.1 == frame).map Prod.snd
      let noted : State := { s with dev := { d with rmt := { d.rmt with queries := d.rmt.queries.map fun q =>
        if q.node = node then { q with answered := true } else q } } }
      exec (.nodeQueryAnswer node p .controllerReady) s = .next noted
      ∧ (count ≤ seen.getD 0 → exec (.nodeQueryAnswer node p (.packetsSent part frame count)) s = .next noted)
      ∧ (seen.getD 0 < count → ∃ t, exec (.nodeQueryAnswer node p (.packetsSent part frame count)) s = .next t
          ∧ exec (.teardownRequest p node) noted = .next t)

/-! ## The fabric -/

/-- R315 to R318: a packet of the switch goes out on the first port of its first minimal bundle, which lane 0 to 3 of class 0 rotates, that neither
sends nor is taken by a packet that comes before it; when all of it is busy, the packet is deflected to a free port of the next; one that has been deflected to the limit enters the escape channel; an escape packet
moves on when the credit of its lane comes back. Stated while no port damages its traffic or links to revision 1.
Model choices it uses: log entries 26 (DESIGN CHOICE), 82 (DEDUCED), 99 (DEDUCED). -/
def Obligations.PacketsTakeTheirRoute : Prop :=
  ∀ (s : State) (id : Nat) (k : InPkt) (p0 : List Nat) (rest : List (List Nat)), plainPorts s.dev → (∀ i ∈ p0 ++ rest.flatten, i < 32) →
    minimalBundles s.dev (placeNode k.pkt.dest) = p0 :: rest →
    let d := s.dev
    let only := fun (t : State) => t = { s with dev := { d with regs := t.dev.regs, fab := t.dev.fab } }
    (∀ busy : W32, findPkt d.fab id = some k → k.pkt.cls < 2 → k.pkt.deflect < deflectLimit d →
      let free := fun (i : Nat) => bitAt (takenBefore d busy k).toNat i = false
      let first := if k.pkt.cls = 0 then rotate p0 k.pkt.lane else p0
      (∀ i l r, first = l ++ i :: r → free i → (∀ j ∈ l, ¬ free j) →
        ∃ t, exec (.packetRoute id busy) s = .next t ∧ leftOn d t.dev id i k.pkt ∧ only t
          ∧ regsBut [(pBol i, Reg.BOL_TX_PACKETS), (pBol i, Reg.BOL_TX_BYTES)] d t.dev)
      ∧ (∀ i l r, (∀ j ∈ p0, ¬ free j) → rest.flatten = l ++ i :: r → free i → (∀ j ∈ l, ¬ free j) →
        ∃ t, exec (.packetRoute id busy) s = .next t ∧ leftOn d t.dev id i { k.pkt with deflect := min 15 (k.pkt.deflect + 1) } ∧ only t
          ∧ advanced d t.dev (pBol i) Reg.BOL_DEFLECTED_OUT 1))
    ∧ (∀ busy : W32, findPkt d.fab id = some k → k.pkt.cls < 2 → deflectLimit d ≤ k.pkt.deflect → entryFree d = true →
      (∀ i ∈ p0, bitAt (takenBefore d busy k).toNat i = true) →
      ∃ t, exec (.packetRoute id busy) s = .next t ∧ advanced d t.dev pDev Reg.BOL_ESCAPED 1 ∧ occurred d t.dev pDev Reg.BOL_EVENTS 1 Reg.BOL_EVT_ESCAPE
        ∧ t.dev.fab = { takePkt d.fab k.id with escape := (takePkt d.fab k.id).escape ++ [⟨k.id, none, k.second, { k.pkt with cls := 2 }⟩] }
        ∧ t = { s with dev := { d with regs := t.dev.regs, pins := t.dev.pins, fab := t.dev.fab } }
        ∧ regsBut ((pDev, Reg.BOL_ESCAPED) :: groupRegs pDev Reg.BOL_EVENTS Reg.BOL_EVT_ESCAPE) d t.dev)
    ∧ ∀ i : Fin 32, d.fab.escape.find? (fun q => q.id == id) = some k → (∀ q ∈ d.fab.local_ ++ d.fab.transit, q.id ≠ id) → p0.contains i.val = true →
      let lane := escLane d k i.val
      ∃ t, exec (.escapeForward id i) s = .next t ∧ leftOn d t.dev id i.val { k.pkt with cls := 2 + lane } ∧ only t
        ∧ advanced d t.dev (pBol i.val) Reg.BOL_ESCAPE_OUT 1 ∧ credit t.dev i.val lane = false
        ∧ regsBut [(pBol i.val, Reg.BOL_TX_PACKETS), (pBol i.val, Reg.BOL_TX_BYTES), (pBol i.val, Reg.BOL_ESCAPE_OUT)] d t.dev

/-- R306, R308, R309, R319, R321, R322, R332: a sound packet for this device is handed on and counted, a bad one dropped, another joins the transit; a
datagram is checked first. A fenced packet waits for as many counted packets as it names; past its time its source is asked. At a tick the port
refused most is BOL_HOT when it reaches the limit.
Model choices it uses: log entries 27 (DESIGN CHOICE), 82 (DEDUCED). -/
def Obligations.PacketsArriveAndFencesHold : Prop :=
  (∀ (s : State) (l : List Byte),
      let d := s.dev
      let p := parsePkt l
      let only := fun (t : State) => t = { s with dev := { d with regs := t.dev.regs, fab := t.dev.fab } }
      (∀ i : Fin 32, (bolState d i.val = 3 ∨ bolState d i.val = 4) →
        let u := pBol i.val
        (forMe d p = true → pktGood l = true → (p.fence && typeCounted p.type) = false →
          ∃ t, exec (.packetArrival i l) s = .next t ∧ handedOn d t.dev p ∧ only t ∧ regsBut [(u, Reg.BOL_RX_PACKETS)] d t.dev
            ∧ advanced d t.dev u Reg.BOL_RX_PACKETS 1)
        ∧ (forMe d p = true → pktGood l = false →
          ∃ t, exec (.packetArrival i l) s = .next t ∧ occurred d t.dev pDev Reg.BOL_EVENTS 4 Reg.BOL_EVT_HDR_DROP
            ∧ advanced d t.dev pDev Reg.BOL_HDR_DROPPED 1 ∧ t = { s with dev := { d with regs := t.dev.regs, pins := t.dev.pins } }
            ∧ regsBut ([(u, Reg.BOL_RX_PACKETS), (pDev, Reg.BOL_HDR_DROPPED)] ++ groupRegs pDev Reg.BOL_EVENTS Reg.BOL_EVT_HDR_DROP) d t.dev)
        ∧ (forMe d p = false → 32 ≤ l.length →
          ∃ t k, exec (.packetArrival i l) s = .next t ∧ k.pkt = p ∧ k.inPort = some i.val ∧ k.id = d.fab.nextId
            ∧ t = { s with dev := { d with regs := t.dev.regs, fab := { d.fab with
              transit := if 2 ≤ p.cls then d.fab.transit else d.fab.transit ++ [k]
              escape := if 2 ≤ p.cls then d.fab.escape ++ [k] else d.fab.escape
              nextId := d.fab.nextId + 1 } } }
            ∧ regsBut [(u, Reg.BOL_RX_PACKETS)] d t.dev))
      ∧ ∀ i : Fin 4, d.fuses.eth i.val = true → rdB d (pEth i.val) Reg.ETH_STATUS 0 = true →
        (forMe d p = true → pktGood l = true → (p.fence && typeCounted p.type) = false →
          ∃ t, exec (.ethDatagramReceive i true true l) s = .next t ∧ handedOn d t.dev p ∧ only t
            ∧ regsBut [(pEth i.val, Reg.ETH_RX_PACKETS)] d t.dev ∧ advanced d t.dev (pEth i.val) Reg.ETH_RX_PACKETS 1)
        ∧ (∀ sum : Bool, (sum = false ∨ forMe d p = false) →
          ∃ t, exec (.ethDatagramReceive i sum true l) s = .next t ∧ occurred d t.dev (pEth i.val) Reg.ETH_EVENTS 0 Reg.ETH_EVT_RX_DROP
            ∧ touches [(pEth i.val, Reg.ETH_EVENTS), (pEth i.val, Reg.ETH_EVT_RX_DROP)] s t))
  ∧ (∀ s : State,
      let d := s.dev
      (∀ (id : Nat) (k : InPkt), d.fab.fences.find? (fun k => k.id == id) = some k →
        (arrived d k.pkt % 65536 ≠ k.pkt.pair → exec (.fenceRelease id) s = .next s)
        ∧ (arrived d k.pkt % 65536 = k.pkt.pair →
          ∃ t, exec (.fenceRelease id) s = .next t
            ∧ t = { s with dev := { d with fab := { d.fab with
              fences := d.fab.fences.filter fun q => q.id != id, handed := d.fab.handed ++ [k.pkt], arrivals := t.dev.fab.arrivals } } })
        ∧ (cutPast d k.pkt.dpart k.pkt.frame 2 = true → k.pkt.dpart < 16 → reachable d (placeNode k.pkt.src) →
          let node := placeNode k.pkt.src
          ∃ t a b, exec (.fenceTimeout id) s = .next t ∧ occurred d t.dev pDev Reg.BOL_EVENTS 2 Reg.BOL_EVT_FENCE_TIMEOUT
            ∧ occurred d t.dev (pPart k.pkt.dpart) Reg.CTL_RMT_EVENTS 4 Reg.CTL_EVT_QUERY
            ∧ a.pkt.type = 11 ∧ b.pkt.type = 11 ∧ placeNode a.pkt.dest = node ∧ placeNode b.pkt.dest = node
            ∧ t = { s with dev := { d with
              regs := t.dev.regs
              fab := { d.fab with
                fences := if k.pkt.type = 7 then d.fab.fences else d.fab.fences.filter fun q => q.id != id
                asked := d.fab.asked ++ [(node, k.pkt.spart, k.pkt.frame)]
                local_ := d.fab.local_ ++ [a, b]
                nextId := t.dev.fab.nextId
                pairs := t.dev.fab.pairs }
              rmt := { d.rmt with
                lateAsk := t.dev.rmt.lateAsk
                queries := d.rmt.queries ++ [⟨k.pkt.dpart, node, .fenceTimeout, false⟩] } } }
            ∧ (k.pkt.type ≠ 7 → t.dev.rmt.lateAsk = d.rmt.lateAsk
              ∧ regsBut [(pDev, Reg.BOL_EVENTS), (pDev, Reg.BOL_EVT_FENCE_TIMEOUT), (pPart k.pkt.dpart, Reg.CTL_RMT_EVENTS),
                (pPart k.pkt.dpart, Reg.CTL_EVT_QUERY)] d t.dev)))
      ∧ ∀ p : Fin 16, ∃ t h, exec (.saturationCheck p) s = .next t ∧ h < 32 ∧ (∀ i, i < 32 → (bolOf d i).refused ≤ (bolOf d h).refused)
        ∧ (∀ i, i < 32 → bolOf t.dev i = { bolOf d i with refused := 0 })
        ∧ t = { s with dev := { d with regs := t.dev.regs, pins := t.dev.pins, fab := { d.fab with ports := t.dev.fab.ports } } }
        ∧ ((bolOf d h).refused < rdF d pDev Reg.BOL_FABRIC_CFG 31 16 → t.dev.regs = d.regs)
        ∧ (rdF d pDev Reg.BOL_FABRIC_CFG 31 16 ≤ (bolOf d h).refused →
          occurred d t.dev pDev Reg.BOL_EVENTS 0 Reg.BOL_EVT_SATURATED ∧ rdN t.dev pDev Reg.BOL_HOT = h + 32 * portDim h + 65536 * frameNum d p.val
            ∧ regsBut ((pDev, Reg.BOL_HOT) :: groupRegs pDev Reg.BOL_EVENTS Reg.BOL_EVT_SATURATED) d t.dev))
/-- R302, R323 to R328, R331, R404: a corrected codeword is counted by lane, an uncorrectable one is sent again; four trained lanes take a port to
authentication, three set DEGRADE too, and fewer, or a partner that showed a wrong place, leave it DOWN with its packets back in the switch, to be
retried after 1 s; a Z port of a pod of one rack stays DOWN. A link that comes up shows its partner, and one wired wrongly goes DOWN.
Model choices it uses: log entries 26 (DESIGN CHOICE), 28 (DEDUCED), 29 (DEDUCED). -/
def Obligations.LinksTrainAndRetry : Prop :=
  ∀ (s : State) (i : Fin 32),
    let d := s.dev
    let u := pBol i.val
    let down := fun (t : State) => bolState t.dev i.val = 0 ∧ occurred d t.dev u Reg.BOL_PORT_EVENTS 3 Reg.BOL_EVT_DOWN ∧ (bolOf t.dev i.val).timer = true
      ∧ (bolOf t.dev i.val).retry = []
      ∧ ∃ n, n ≤ (bolOf d i.val).retry.length ∧ (t.dev.fab.transit.map InPkt.pkt) = (d.fab.transit.map InPkt.pkt) ++ (bolOf d i.val).retry.drop n
    (∀ (lane : Fin 8) (n time : Nat), smGetD 0 (bolOf d i.val).symbols lane.val + n ≤ 42500 →
      ∃ t, exec (.linkRetry i (.corrected lane n) 0 time) s = .next t ∧ advanced d t.dev u Reg.BOL_FEC_CORR 1
        ∧ advanced d t.dev u (Reg.BOL_LANE_SYMERR lane.val) n ∧ bolState t.dev i.val = bolState d i.val
        ∧ t = { s with dev := { d with regs := t.dev.regs, fab := { d.fab with ports := t.dev.fab.ports } } }
        ∧ regsBut [(u, Reg.BOL_FEC_CORR), (u, Reg.BOL_LANE_SYMERR lane.val)] d t.dev)
    ∧ (∀ refusals time : Nat, refusals < 8 → ((bolOf d i.val).retries.filter fun x => decide (time < x + 1000000)).length < 64 →
      ∃ t, exec (.linkRetry i .uncorrectable refusals time) s = .next t ∧ advanced d t.dev u Reg.BOL_FEC_UNCORR 1
        ∧ occurred d t.dev u Reg.BOL_PORT_EVENTS 0 Reg.BOL_EVT_RETRY ∧ bolState t.dev i.val = bolState d i.val
        ∧ (∀ p, p < 16 → rdB d (pPart p) Reg.CTL_PART_PORTS i.val = true → loaded d p = true → advanced d t.dev (pPart p) (Reg.CTL_DIST_EVENTS causeLink) 1)
        ∧ t = { s with dev := { d with regs := t.dev.regs, parts := t.dev.parts, fab := { d.fab with ports := t.dev.fab.ports } } })
    ∧ (∀ lanes : Fin 5, (bolState d i.val = 0 ∨ bolState d i.val = 1) →
      let n := if rdF d u Reg.BOL_LANE_CTL 3 0 = 0 then lanes.val else min lanes.val 3
      (noPartner d i.val = true → exec (.linkRetrain i lanes) s = .next s)
      ∧ (noPartner d i.val = false → 3 ≤ n → (bolOf d i.val).miswired = false →
        ∃ t, exec (.linkRetrain i lanes) s = .next t ∧ bolState t.dev i.val = 2 ∧ rdF t.dev u Reg.BOL_PORT_STATUS 5 3 = n
          ∧ (bolOf t.dev i.val).timer = false ∧ (authOf t.dev i.val).running = false
          ∧ (n = 3 → occurred d t.dev u Reg.BOL_PORT_EVENTS 2 Reg.BOL_EVT_DEGRADE ∧ raised d t.dev 3 u 0)
          ∧ t = { s with dev := { d with
            regs := t.dev.regs, pins := t.dev.pins, fab := { d.fab with ports := t.dev.fab.ports }, sec := { d.sec with auth := t.dev.sec.auth } } }
          ∧ regsBut ([(u, Reg.BOL_PORT_STATUS), (u, Reg.BOL_PORT_EVENTS), (u, Reg.BOL_EVT_DEGRADE)] ++ classRegs 3) d t.dev)
      ∧ (noPartner d i.val = false → (n < 3 ∨ (bolOf d i.val).miswired = true) →
        ∃ t, exec (.linkRetrain i lanes) s = .next t ∧ down t
          ∧ t = { s with dev := { d with
            regs := t.dev.regs, freeSeq := t.dev.freeSeq, fab := { d.fab with
            transit := t.dev.fab.transit, nextId := t.dev.fab.nextId, ports := t.dev.fab.ports } } }))
    ∧ (∀ partner : W32, d.fuses.bol i.val = true →
      let n := partner.toNat
      let right := placeNode n = wiredTo d i.val ∧ placePod n = myPod d ∧ noPartner d i.val = false
      (right → bolState d i.val ≤ 1 →
        ∃ t, exec (.bollumLinkUp i partner false) s = .next t ∧ rdN t.dev u Reg.BOL_PARTNER = n ∧ bolState t.dev i.val = 2
          ∧ (∀ j, bolOf t.dev j = if j = i.val then { bolOf d j with miswired := false } else bolOf d j)
          ∧ t = { s with dev := { d with
            regs := t.dev.regs, fab := { d.fab with ports := t.dev.fab.ports }, sec := { d.sec with auth := t.dev.sec.auth } } }
          ∧ regsBut [(u, Reg.BOL_PARTNER), (u, Reg.BOL_PORT_STATUS)] d t.dev)
      ∧ (¬ right → ∃ t, exec (.bollumLinkUp i partner false) s = .next t ∧ rdN t.dev u Reg.BOL_PARTNER = n ∧ down t
          ∧ (bolOf t.dev i.val).miswired = true ∧ occurred d t.dev u Reg.BOL_PORT_EVENTS 4 Reg.BOL_EVT_MISWIRED))
    ∧ (∀ (e : Fin 4) (up : Bool), d.fuses.eth e.val = true →
      ∃ t, exec (.ethernetLinkChange e up) s = .next t ∧ touches [(pEth e.val, Reg.ETH_STATUS)] s t ∧ rdB t.dev (pEth e.val) Reg.ETH_STATUS 0 = up)
    ∧ (d.fuses.bol i.val = true → bolState d i.val = 0 → (bolOf d i.val).timer = true → noPartner d i.val = false →
      ∃ t, exec (.portRetryTimer (.bol i)) s = .next t ∧ bolState t.dev i.val = 1 ∧ bolOf t.dev i.val = { bolOf d i.val with timer := false }
        ∧ t = { s with dev := { d with regs := t.dev.regs, fab := { d.fab with ports := t.dev.fab.ports } } }
        ∧ regsBut [(u, Reg.BOL_PORT_STATUS)] d t.dev)
    ∧ ∀ h : Fin 2, hxvState d h.val = 0 → (hxvOf d h.val).timer = true →
      ∃ t, exec (.portRetryTimer (.hxv h)) s = .next t ∧ hxvState t.dev h.val = 1 ∧ hxvOf t.dev h.val = { hxvOf d h.val with timer := false }
        ∧ t = { s with dev := { d with regs := t.dev.regs, host := { d.host with ports := t.dev.host.ports } } }
        ∧ regsBut [(pHxv h.val, Reg.HXV_STATUS)] d t.dev

/-! ## The host link -/

/-- R407, R412, R413: a WRITE whose status is 0 stores its bytes and no others, and is answered with 0; a READ is answered with the bytes, those
that a running frame has replaced as they were (R23); an access with another status is answered with it and has no effect. A management request is an access of the port's requester, and is answered with its code.
Model choices it uses: log entries 45 (DEDUCED), 46 (DEDUCED), 93 (DEDUCED). -/
def Obligations.HostAccessesAct : Prop :=
  ∀ (s : State) (i : Fin 2) (l : List Byte) (p : HxvIn),
    let d := s.dev
    let a := p.addr
    let only := fun (t : State) => pagesBut [pHxv i.val] d t.dev ∧ t.prop = s.prop
    (taken d i.val 2 l p →
      let st := dataStatus (afterTake d i.val 2 l) s.prop i.val a p.payload.length true
      (st = 0 → d.marks = [] → poisonedIn d a p.payload.length = [] → d.tier.preload = [] →
        ∃ t, exec (.hostWrite i l) s = .next t ∧ tierBytes t.dev a p.payload.length = p.payload ∧ memBut a p.payload.length d t.dev ∧ only t
          ∧ toHost d t.dev i.val (hxvPkt 3 false p.reqId a 0 0 0 [])
          ∧ t = { s with dev := { d with
            regs := t.dev.regs, mem := t.dev.mem, host := t.dev.host, tier := { d.tier with slots := t.dev.tier.slots } } })
      ∧ (st ≠ 0 → ∃ t, exec (.hostWrite i l) s = .next t ∧ toHost d t.dev i.val (hxvPkt 3 false p.reqId a st 0 0 []) ∧ only t
          ∧ t = { s with dev := { d with regs := t.dev.regs, host := t.dev.host } }))
    ∧ (taken d i.val 4 l p →
      let n := p.aux % 2 ^ 13
      let st := dataStatus (afterTake d i.val 4 l) s.prop i.val a n false
      (st = 0 → d.marks = [] → poisonedIn d a n = [] →
        ∃ t, exec (.hostRead i l) s = .next t ∧ toHost d t.dev i.val (hxvPkt 5 false p.reqId a 0 0 p.aux (pubBytes d a n)) ∧ only t
          ∧ t = { s with dev := { d with regs := t.dev.regs, host := t.dev.host } })
      ∧ (st ≠ 0 → ∃ t, exec (.hostRead i l) s = .next t ∧ toHost d t.dev i.val (hxvPkt 5 false p.reqId a st 0 p.aux []) ∧ only t
          ∧ t = { s with dev := { d with regs := t.dev.regs, host := t.dev.host } }))
    ∧ (taken d i.val 6 l p →
      let e := afterTake d i.val 6 l
      let n := p.aux % 16
      let code := fun (write : Bool) => accessCode e s.prop (hxvReq i.val) (a / 4096) (a % 4096) (n == 8) write
      (n = 4 ∨ n = 8) →
      (bitAt p.aux 4 = false → code false = 0 →
        ∃ t, exec (.mgmtReq i l) s = .next t ∧ only t
          ∧ toHost d t.dev i.val (hxvPkt 7 false p.reqId a 0 0 p.aux (leBytes n (readReg e (a / 4096) (a % 4096) (n == 8))))
          ∧ t = { s with dev := { d with regs := t.dev.regs, host := t.dev.host } })
      ∧ (bitAt p.aux 4 = true →
        ∃ t u, exec (.mgmtReq i l) s = .next t
          ∧ exec (.registerWrite (hxvReq i.val) a (n == 8) (BitVec.ofNat 64 (leNat p.payload))) { s with dev := e } = .next u
          ∧ t.prop = u.prop ∧ pagesBut [pHxv i.val] u.dev t.dev ∧ toHost u.dev t.dev i.val (hxvPkt 7 false p.reqId a (code true) 0 p.aux [])
          ∧ t = { u with dev := { u.dev with regs := t.dev.regs, host := t.dev.host } }))

/-- R382, R409 to R411: the records of a COMMAND go to their inbox in payload order, with their arrival numbers, and one that finds it full is answered
with status 5. Completions leave by up to 16 when the port is up and holds a credit, and are kept for a replay; a credit that comes back lets a
waiting packet leave.
Model choices it uses: log entries 24 (DEDUCED), 63 (DEDUCED). -/
def Obligations.CommandsArriveAndCompletionsLeave : Prop :=
  ∀ (s : State) (i : Fin 2),
    let d := s.dev
    let only := fun (t : State) => t = { s with dev := { d with regs := t.dev.regs, ctxs := t.dev.ctxs, host := t.dev.host } }
    (∀ (l : List Byte) (p : HxvIn), taken d i.val 0 l p →
      let record := fun (k : Nat) => sliceBytes p.payload (64 * k) 64
      let rec_ := fun (c n k : Nat) => (⟨i.val, n + 1 + k, leAt (record k) 0 1, leAt (record k) 1 1, c, BitVec.ofNat 32 (leAt (record k) 4 4),
        sliceBytes (record k) 8 56⟩ : CmdRec)
      (∀ c, c < 256 → (∀ k, k < p.count → leAt (record k) 2 2 = c) → (ctxOf d c).inbox.length + p.count ≤ 64 →
        ∃ t, exec (.commandPacket i l) s = .next t ∧ only t ∧ pagesBut [pHxv i.val] d t.dev
          ∧ ctxOf t.dev c = { ctxOf d c with
            arrived := (ctxOf d c).arrived + p.count
            inbox := (ctxOf d c).inbox ++ (List.range p.count).map (rec_ c (ctxOf d c).arrived) }
          ∧ ∀ q, q ≠ c → ctxOf t.dev q = ctxOf d q)
      ∧ ((∀ k, k < p.count → leAt (record k) 2 2 = 256) → d.host.inbox.length + p.count ≤ 64 →
        ∃ t, exec (.commandPacket i l) s = .next t ∧ only t ∧ pagesBut [pHxv i.val] d t.dev ∧ t.dev.ctxs = d.ctxs
          ∧ t.dev.host = { d.host with
            arrived := d.host.arrived + p.count
            inbox := d.host.inbox ++ (List.range p.count).map (rec_ 256 d.host.arrived) })
      ∧ (∀ c, c < 256 → p.count = 1 → leAt (record 0) 2 2 = c → 64 ≤ (ctxOf d c).inbox.length → (hxvOf d (cplPort d c)).queue.length < 4096 →
        ∃ t x, exec (.commandPacket i l) s = .next t ∧ (hxvOf t.dev (cplPort d c)).queue = (hxvOf d (cplPort d c)).queue ++ [x]
          ∧ x.status = 5 ∧ x.ctx = c ∧ x.tag = BitVec.ofNat 32 (leAt (record 0) 4 4) ∧ (ctxOf t.dev c).inbox = (ctxOf d c).inbox
          ∧ occurred d t.dev (pCtl ((activeCpx d).getD 0)) Reg.CTL_CX_EVENTS 3 Reg.CTL_EVT_INBOX_FULL))
    ∧ ((hxvOf d i.val).queue ≠ [] → hxvUp d i.val = true → 0 < hxvCredits d i.val 1 →
      let q := (hxvOf d i.val).queue
      let x := pCtl ((activeCpx d).getD 0)
      ∃ t, exec (.completionSend i) s = .next t ∧ only t ∧ t.dev.ctxs = d.ctxs ∧ (hxvOf t.dev i.val).queue = q.drop 16
        ∧ (∀ c ∈ q.take 16, { c with time := d.hall } ∈ (hxvOf t.dev i.val).sent)
        ∧ toHost d t.dev i.val (hxvPkt 1 false 0 0 0 (q.take 16).length 0 ((q.take 16).flatMap cplBytes))
        ∧ rdN t.dev (pHxv i.val) Reg.HXV_CPL_QUEUE = (q.drop 16).length % 2 ^ 64 ∧ advanced d t.dev x Reg.CTL_COMPLETIONS (q.take 16).length
        ∧ ∀ u o, o < 4096 → u ≠ pHxv i.val → (u, o) ≠ (x, Reg.CTL_COMPLETIONS) → rd t.dev u o = rd d u o)
    ∧ ∀ (cls : Fin 16) (n : Nat), ∃ t, exec (.hexvanCreditReturn i cls n) s = .next t ∧ only t ∧ t.dev.ctxs = d.ctxs ∧ pagesBut [pHxv i.val] d t.dev
      ∧ ((hxvOf d i.val).out = [] → hxvCredits t.dev i.val cls.val = hxvCredits d i.val cls.val + n)
      ∧ (∀ p, (hxvOf d i.val).out = [p] → p.cls = cls.val → 0 < n → hxvUp d i.val = true →
          (hxvOf t.dev i.val).wire = (hxvOf d i.val).wire ++ [p] ∧ (hxvOf t.dev i.val).out = []
            ∧ hxvCredits t.dev i.val cls.val = hxvCredits d i.val cls.val + n - 1)

/-- R414, R415: bytes of a host replica and of a pulled image chunk are kept in order until the last; the last byte of a replica's chunk serves the
refetch that asked for it.
Model choices it uses: log entry 64 (DEDUCED). -/
def Obligations.HostDataArrives : Prop :=
  ∀ (s : State) (i : Fin 2) (l : List Byte) (p : HxvIn) (cycle : Nat),
    let d := s.dev
    let only := fun (t : State) => t = { s with dev := { d with regs := t.dev.regs, host := { d.host with ports := t.dev.host.ports } } }
      ∧ pagesBut [pHxv i.val] d t.dev
    (∀ f : HostFetch, taken d i.val 9 l p →
      (hxvOf d i.val).fetches.find? (fun f => f.reqId == p.reqId && d.tier.refetches.any fun r => r.inst == f.inst && r.chunk == f.chunk && r.host)
        = some f → p.status = 0 → p.aux = f.got.length →
      (p.last = false → f.got.length + p.payload.length ≤ 65536 →
        ∃ t, exec (.hostData i ⟨cycle, l⟩) s = .next t ∧ only t
          ∧ (hxvOf t.dev i.val).fetches = (hxvOf d i.val).fetches.map fun g => if g.reqId = f.reqId then { g with got := f.got ++ p.payload } else g)
      ∧ (p.last = true → f.got.length + p.payload.length = 65536 → repairsUsed d f.inst < 64 → (∀ q ∈ d.tier.runs, f.chunk ∉ q.stalled) →
        (∀ r ∈ d.tier.refetches, r.inst = f.inst → r.chunk = f.chunk → r.host = true ∧ r.start ≤ cycle) →
        ∃ t r, exec (.hostData i ⟨cycle, l⟩) s = .next t ∧ t.dev.tier.repairs = (d.tier.repairs.filter fun q => q.chunk != f.chunk) ++ [r] ∧ r.chunk = f.chunk ∧ r.inst = f.inst ∧ r.once = false
          ∧ r.data = putBytes [] 0 (f.got ++ p.payload)
          ∧ t.dev.tier.refetches = d.tier.refetches.filter (fun q => !(q.inst == f.inst && q.chunk == f.chunk))
          ∧ advanced d t.dev (pFor f.inst) Reg.FOR_REFETCH_CHUNKS 1 ∧ t.dev.mem = d.mem))
    ∧ ∀ q : ImagePull, taken d i.val 11 l p → (hxvOf d i.val).pulls.find? (fun q => q.reqId == p.reqId && q.chunk == p.aux) = some q →
      p.last = false → q.got.length + p.payload.length < 65536 →
      ∃ t, exec (.imageData i l) s = .next t ∧ only t
        ∧ (hxvOf t.dev i.val).pulls = (hxvOf d i.val).pulls.map fun x => if x.reqId = q.reqId then { x with got := q.got ++ p.payload } else x

/-- R327, R329, R403, R404: a Hexvan port that trains enters service with the width of its good lanes and the generation of both ends, and one that fails
is DOWN; an uncorrectable codeword is sent again. A Bollum port with a partner retrains without one lane; the role of a spare port is written for the next tick.
Model choices it uses: log entries 15 (DESIGN CHOICE), 62 (DEDUCED). -/
def Obligations.PortsTrain : Prop :=
  ∀ s : State,
    let d := s.dev
    (∀ (i : Fin 2) (x : TrainFacts), hxvUp d i.val = false →
      let u := pHxv i.val
      let w := hxvWidth x.bothGen2 x.qual
      let only := fun (t : State) => t = { s with dev := { d with
        regs := t.dev.regs, pins := t.dev.pins, host := { d.host with ports := t.dev.host.ports }, sec := { d.sec with auth := t.dev.sec.auth } } }
      ((x.signal && x.eqOk && x.authOk) = true → w ≠ 0 →
        ∃ t, exec (.hexvanTraining i x) s = .next t ∧ hxvState t.dev i.val = (if w = 3 then 3 else 4) ∧ rdB t.dev u Reg.HXV_STATUS 3 = x.bothGen2
          ∧ rdF t.dev u Reg.HXV_STATUS 5 4 = w ∧ (hxvOf t.dev i.val).timer = false
          ∧ (w ≠ 3 → occurred d t.dev u Reg.HXV_EVENTS 2 Reg.HXV_EVT_DEGRADE ∧ raised d t.dev 3 u 0) ∧ only t)
      ∧ ((x.signal && x.eqOk) = false ∨ w = 0 →
        ∃ t, exec (.hexvanTraining i x) s = .next t ∧ hxvState t.dev i.val = 0 ∧ (hxvOf t.dev i.val).timer = true
          ∧ occurred d t.dev u Reg.HXV_EVENTS 3 Reg.HXV_EVT_DOWN ∧ only t
          ∧ regsBut [(u, Reg.HXV_STATUS), (u, Reg.HXV_EVENTS), (u, Reg.HXV_EVT_DOWN)] d t.dev))
    ∧ (∀ (i : Fin 2) (refusals time : Nat), hxvUp d i.val = true → refusals < 8 →
      ((hxvOf d i.val).retries.filter fun x => decide (time < x + 1000000)).length < 64 →
      let u := pHxv i.val
      ∃ t, exec (.hexvanLinkRetry i .uncorrectable refusals time) s = .next t ∧ advanced d t.dev u Reg.HXV_FEC_UNCORR 1
        ∧ occurred d t.dev u Reg.HXV_EVENTS 0 Reg.HXV_EVT_RETRY
        ∧ t = { s with dev := { d with regs := t.dev.regs, host := { d.host with ports := t.dev.host.ports } } }
        ∧ regsBut [(u, Reg.HXV_FEC_UNCORR), (u, Reg.HXV_EVENTS), (u, Reg.HXV_EVT_RETRY)] d t.dev)
    ∧ (∀ (i : Fin 32) (v : W32), d.fuses.bol i.val = true →
      let u := pBol i.val
      let n := v.toNat % 16
      let old := rdF d u Reg.BOL_LANE_CTL 3 0
      (n ∈ [0, 1, 2, 4, 8] → (n = 0 ∨ old = 0 ∨ n = old) → noPartner d i.val = false →
        ∃ t, exec (.laneOut i v) s = .next t ∧ rdN t.dev u Reg.BOL_LANE_CTL = n ∧ bolState t.dev i.val = 1
          ∧ occurred d t.dev u Reg.BOL_PORT_EVENTS 1 Reg.BOL_EVT_RETRAIN ∧ rdF t.dev u Reg.BOL_INJECT 2 0 = 0
          ∧ (∃ k, k ≤ (bolOf d i.val).retry.length
              ∧ (t.dev.fab.transit.map InPkt.pkt) = (d.fab.transit.map InPkt.pkt) ++ (bolOf d i.val).retry.drop k)
          ∧ t = { s with dev := { d with regs := t.dev.regs, freeSeq := t.dev.freeSeq, fab := { d.fab with
            transit := t.dev.fab.transit, nextId := t.dev.fab.nextId, ports := t.dev.fab.ports } } }
          ∧ regsBut [(u, Reg.BOL_LANE_CTL), (u, Reg.BOL_PORT_STATUS), (u, Reg.BOL_PORT_EVENTS), (u, Reg.BOL_EVT_RETRAIN), (u, Reg.BOL_INJECT)] d t.dev)
      ∧ (n ∈ [0, 1, 2, 4, 8] → (n = 0 ∨ old = 0 ∨ n = old) → noPartner d i.val = true →
        ∃ t, exec (.laneOut i v) s = .next t ∧ rdN t.dev u Reg.BOL_LANE_CTL = n ∧ touches [(u, Reg.BOL_LANE_CTL)] s t)
      ∧ (n ≠ 0 → old ≠ 0 → n ≠ old → exec (.laneOut i v) s = .next s))
    ∧ ∀ (i : Fin 32) (v : W32), 30 ≤ i.val →
      let role := v.toNat % 4
      let x := v.toNat / 256 % 32
      let ok := role ≠ 3 ∧ (role = 1 → x ∈ twinPorts d ∧ bolState d x = 0)
      ∃ t, exec (.spareRole i v) s = .next t ∧ touches [(pBol i.val, Reg.BOL_SPARE_ROLE)] s t
        ∧ (ok → rdN t.dev (pBol i.val) Reg.BOL_SPARE_ROLE = role + 256 * x) ∧ (¬ ok → t = s)

/-! ## The propolis table -/

/-- R491: every request is answered in both SEC pages: PERMISSION without ADMIN, INDEX outside its range, BAD_FIELD for an entry that is not
acceptable, and OK for one whose change then waits for its time, after those accepted before it. A refused one sets PROP_REFUSED and changes nothing.
Model choices it uses: log entries 9 (DESIGN CHOICE), 69 (DEDUCED). -/
def Obligations.PropolisRequestsAreAnswered : Prop :=
  ∀ (s : State) (r : Requester) (seq : BitVec 8) (index : Nat),
    let answered := fun (i : Instr) (size : Nat) (ok : Bool) (c : PropChange) =>
      let res := if mayAsk s.prop r = false then 2 else if size ≤ index then 5 else if ok = false then 4 else 0
      ∃ t, exec i s = .next t ∧ t = { s with prop := t.prop, dev := { s.dev with regs := t.dev.regs } }
        ∧ t.prop = (if res = 0 then { s.prop with changes := s.prop.changes ++ [c] } else s.prop)
        ∧ (∀ j : Fin 2, rdN t.dev (pSec j.val) Reg.SEC_PROP_STATUS = seq.toNat + 256 * res + 4096
            ∧ rdB t.dev (pSec j.val) Reg.SEC_STATUS 2 = false
            ∧ (res ≠ 0 → occurred s.dev t.dev (pSec j.val) Reg.SEC_EVENTS 3 Reg.SEC_EVT_PROP_REFUSED))
        ∧ regsBut ([pSec 0, pSec 1].flatMap fun u => [(u, Reg.SEC_STATUS), (u, Reg.SEC_PROP_STATUS)]
            ++ if res = 0 then [] else [(u, Reg.SEC_EVENTS), (u, Reg.SEC_EVT_PROP_REFUSED)]) s.dev t.dev
    (∀ w, answered (.setWindow r seq index w) 256 (windowOk s.dev s.prop index w) (.window index w.owner.val (some w)))
    ∧ answered (.clearWindow r seq index) 256 true (.window index (windowPart s.prop index) none)
    ∧ (∀ e, answered (.setTrigger r seq index e) 256 (triggerOk e) (.trigger index e.targetPart.val (some e)))
    ∧ answered (.clearTrigger r seq index) 256 true (.trigger index (triggerPart s.prop index) none)
    ∧ (∀ e, answered (.setGrant r seq index e) 64 (grantOk e && adminStays s.prop (.grant index (some e))) (.grant index (some e)))
    ∧ answered (.clearGrant r seq index) 64 (adminStays s.prop (.grant index none)) (.grant index none)
    ∧ (∀ w, answered (.setHostWindow r seq index w) 64 (hostOk w) (.host index (some w)))
    ∧ answered (.clearHostWindow r seq index) 64 true (.host index none)
    ∧ (∀ both, let x := ctxOf s.dev index
        answered (.setContextPorts r seq index both) 256 true (.both index (if x.state = .free then 16 else x.part) both))
    ∧ (∀ key, answered (.setOwnerKey r seq index key) 8 true (.key index key))
    ∧ (∀ id, answered (.revoke r seq index id) 64 true (.revoke index id))
    ∧ ∀ policy link svn : W32, answered (.setPolicy r seq index policy link svn) 1
        (decide (policy.toNat < 4) && linkPolicyOk link.toNat && decide (svn.toNat ≤ runningSvn s.dev))
        (.policy policy.toNat link.toNat svn.toNat)

/-! ## Logs, reports and links -/

/-- R482: a full log drops its oldest 1,024 entries, folds them into FOLD_ACCUM and sets LOG_FOLDED. R483: a report request is refused with PERMISSION
without READ on the page and with BUSY while a report is built; any other waits for the next grid point with its nonce and scope. A captured report is
signed, kept and counted.
Model choices it uses: log entries 8 (PRESUMED), 43 (DEDUCED), 84 (DEDUCED). -/
def Obligations.LogsFoldAndReportsAreBuilt : Prop :=
  ∀ (s : State) (i : Fin 2),
    let d := s.dev
    let u := pSec i.val
    let l := logOf d i.val
    let a := attOf d i.val
    (l.entries.length < 4096 → exec (.logFold i) s = .next s)
    ∧ (4096 ≤ l.entries.length →
      ∃ t, exec (.logFold i) s = .next t ∧ occurred d t.dev u Reg.SEC_EVENTS 4 Reg.SEC_EVT_LOG_FOLDED
        ∧ logOf t.dev i.val = { l with entries := l.entries.drop 1024, fold := foldAccum l.fold (l.entries.take 1024), first := l.first + 1024 }
        ∧ (∀ j, j ≠ i.val → logOf t.dev j = logOf d j)
        ∧ t = { s with dev := { d with regs := t.dev.regs, sec := { d.sec with logs := t.dev.sec.logs } } }
        ∧ regsBut [(u, Reg.SEC_EVENTS), (u, Reg.SEC_EVT_LOG_FOLDED)] d t.dev)
    ∧ (∀ (r : Requester) (scope : BitVec 16), accessCode d s.prop r u Reg.SEC_ATT_CTL false true = 0 →
      let may := reqKind r = 0 ∨ granted s.prop r .read u = true
      (may → a.busy = false →
        ∃ t, exec (.attestationRequest i r scope) s = .next t
          ∧ attOf t.dev i.val = { a with busy := true, scope := scope.toNat, nonce := regBytes d u Reg.SEC_ATT_NONCE 8, body := none }
          ∧ (∀ j, j ≠ i.val → attOf t.dev j = attOf d j) ∧ rdN t.dev u Reg.SEC_ATT_STATUS = 1
          ∧ t = { s with dev := { d with regs := t.dev.regs, sec := { d.sec with att := t.dev.sec.att } } }
          ∧ regsBut [(u, Reg.SEC_ATT_STATUS)] d t.dev)
      ∧ (¬ may ∨ a.busy = true →
        ∃ t, exec (.attestationRequest i r scope) s = .next t
          ∧ (may → rdF t.dev u Reg.SEC_ATT_STATUS 3 2 = 1) ∧ (¬ may → rdF t.dev u Reg.SEC_ATT_STATUS 3 2 = 2)
          ∧ occurred d t.dev u Reg.SEC_EVENTS 5 Reg.SEC_EVT_ATT_REFUSED
          ∧ touches [(u, Reg.SEC_ATT_STATUS), (u, Reg.SEC_EVENTS), (u, Reg.SEC_EVT_ATT_REFUSED)] s t))
    ∧ (∀ b, a.body = some b →
      ∃ t, exec (.attestationReportReady i) s = .next t
        ∧ attOf t.dev i.val = { a with busy := false, body := none, report := attSigned d b } ∧ (∀ j, j ≠ i.val → attOf t.dev j = attOf d j)
        ∧ (attSigned d b).take b.length = b ∧ rdN t.dev u Reg.SEC_ATT_SIZE = (b.length + 16352 + 17216 + 17088) % 2 ^ 64
        ∧ rdF t.dev u Reg.SEC_ATT_STATUS 1 0 = 2 ∧ advanced d t.dev u Reg.SEC_REPORTS 1
        ∧ t = { s with dev := { d with regs := t.dev.regs, sec := { d.sec with att := t.dev.sec.att } } }
        ∧ regsBut [(u, Reg.SEC_ATT_STATUS), (u, Reg.SEC_ATT_SIZE), (u, Reg.SEC_REPORTS)] d t.dev)
    ∧ (a.body = none → exec (.attestationReportReady i) s = .next s)

/-- R485 to R488, R328: each message of Table 19-7 moves the exchange of its port on when it verifies and fails it when it does not; the last one puts
in force the keys that HKDF gives from the shared secrets and the transcript, one to a sending direction, in a mode at least as strict as this end's,
and a port that authenticated for the first time into service. A timeout fails the exchange; a key change completes, or makes the port retrain.
Stated of a port that has a partner (R303).
Model choices it uses: log entries 7 (PRESUMED), 8 (PRESUMED), 28 (DEDUCED), 83 (DEDUCED). -/
def Obligations.LinksAuthenticate : Prop :=
  ∀ (s : State) (port : LinkPort) (k : Nat), authKey port = some k → (k < 32 → noPartner s.dev k = false) →
    let d := s.dev
    let a := authOf d k
    let only := fun (t : State) => t = { s with dev := { d with freeSeq := t.dev.freeSeq, sec := { d.sec with auth := t.dev.sec.auth } } }
    let other := fun (t : State) => ∀ j, j ≠ k → authOf t.dev j = authOf d j
    let fails := fun (t : State) (cert : Bool) => refusedPartner d t.dev k cert ∧ t = { s with dev := t.dev } ∧ other t
    let keys := fun (t : State) (again : Bool) (b : AuthSt) =>
      let x := authOf t.dev k
      x.running = false ∧ x.step = 0 ∧ ownMode d k ≤ x.mode ∧ x.phase = (if again then 1 - a.phase else 0) ∧ other t
        ∧ ∃ secrets : List Byte, secrets.length = 64 ∧ x.tx = linkKey secrets (transcript d b) (idBytes d.fuses.deviceId)
            ∧ x.rx = linkKey secrets (transcript d b) (idBytes a.partner)
    (exchanging d k = true →
      (a.step = 0 → ∀ x : Hello,
        let id := beAt x.idCert 0x10 32
        ∃ t, exec (.authHello port x) s = .next t ∧
          if chainOk d.fuses (decide (32 ≤ k)) x = false then fails t true
          else if (∃ e ∈ s.prop.revoked, e.2.toNat = id) ∨ id = d.fuses.deviceId.toNat ∨ x.kemKey.length ≠ 1184 then fails t false
          else authOf t.dev k = { a with running := true, step := 1, partner := BitVec.ofNat 256 id, hello := helloBytes x, mine := ownHello d
                                         key := certKey (if x.aliasCert.isEmpty then x.idCert else x.aliasCert) } ∧ other t ∧ only t)
      ∧ (a.step = 1 → ∀ ct : List Byte, ∃ t, exec (.authKem port ct) s = .next t ∧
          if ct.length = 1088 then authOf t.dev k = { a with step := 2, ct := ct, myCt := freshBytes d 0 1088 } ∧ other t ∧ only t else fails t false)
      ∧ (a.step = 2 → ∀ sig : List Byte,
        let text : List Byte := [0x46, 0x44, 0x58, 0x20, 0x66, 0x69, 0x6E, 0x69, 0x73, 0x68]
        let again := a.rekey && carries d k
        ∃ t, exec (.authFinish port sig) s = .next t ∧
          if sig.length = 17088 ∧ Config.slhVerify128 a.key (text ++ transcript d a) sig = true then
            keys t again a ∧ t = { s with dev := { d with regs := t.dev.regs, freeSeq := t.dev.freeSeq, sec := { d.sec with auth := t.dev.sec.auth } } }
              ∧ (again = true → t.dev.regs = d.regs)
              ∧ (again = false → regsBut [(pBol k, Reg.BOL_PORT_STATUS)] d t.dev
                ∧ (k < 30 → bolState t.dev k = if rdF d (pBol k) Reg.BOL_PORT_STATUS 5 3 = 3 then 4 else 3))
          else fails t false)
      ∧ ∃ t, exec (.authTimeout port) s = .next t ∧ fails t false)
    ∧ (carries d k = true →
      (∃ t ct myCt, exec (.keyChange port true) s = .next t ∧ keys t true { a with ct := ct, myCt := myCt } ∧ only t)
      ∧ ∃ t, exec (.keyChange port false) s = .next t ∧ (if k < 32 then bolState t.dev k else hxvState t.dev (k - 32)) = 1
        ∧ (if k < 32 then occurred d t.dev (pBol k) Reg.BOL_PORT_EVENTS 1 Reg.BOL_EVT_RETRAIN
            else occurred d t.dev (pHxv (k - 32)) Reg.HXV_EVENTS 1 Reg.HXV_EVT_RETRAIN)
        ∧ t = { s with dev := { d with
          regs := t.dev.regs, freeSeq := t.dev.freeSeq, host := { d.host with ports := t.dev.host.ports }
          fab := { d.fab with transit := t.dev.fab.transit, nextId := t.dev.fab.nextId, ports := t.dev.fab.ports } } })

/-! ## Firmware -/

/-- R394, R398, R399: a component that faults is recorded, is stopped, runs again within 20 ms, and takes the active role from its complex when it is
the monitor or faults a third time within an hour; heartbeats count, and their loss makes the standby take over; SWITCHOVER and UPDATE_COMPONENT wait
in the device inbox for a grid point; SWITCHOVER then waits for the take-over, and UPDATE_COMPONENT replaces a component whose new code verifies and
whose state imports, which runs again within 5 ms.
Model choices it uses: log entries 57 (DESIGN CHOICE), 73 (DESIGN CHOICE), 85 (DEDUCED), 86 (DEDUCED), 87 (DEDUCED). -/
def Obligations.FirmwareRestartsAndUpdates : Prop :=
  ∀ s : State,
    let d := s.dev
    (∀ (i : Fin 2) (n : Fin 6) (cause : Fin 4) (time : Nat) (x : Cpx) (c : Instr), smGet d.cpx i.val = some x → n.val ≤ 4 → 1 ≤ cause.val →
      rdB d (pCtl i.val) Reg.CTL_CX_STATUS (8 + n.val) = true →
      (c = .componentFault i n cause time ∨ (cause.val = 3 ∧ c = .watchdogExpiry i n time)) →
      let u := pCtl i.val
      let third := 2 ≤ ((smGetD [] x.faults n.val).filter fun t => decide (time < t + 3600000000000)).length
      ∃ t, exec c s = .next t ∧ rdN t.dev u Reg.CTL_CX_LAST_FAULT = n.val + 16 * cause.val ∧ rdB t.dev u Reg.CTL_CX_STATUS (8 + n.val) = false
        ∧ (cause.val = 1 → occurred d t.dev u Reg.CTL_CX_EVENTS 1 Reg.CTL_EVT_PMP_FAULT)
        ∧ (cause.val ≠ 1 → occurred d t.dev u Reg.CTL_CX_EVENTS 0 Reg.CTL_EVT_COMP_RESTART
            ∧ occurred d t.dev pDev Reg.CTL_HLT_EVENTS 2 (Reg.CTL_EVT_CLASS 3))
        ∧ (∃ k ≤ 20000000, smGet t.dev.cpx i.val = some { x with
            faults := smPut x.faults n.val (time :: (smGetD [] x.faults n.val).filter fun t => decide (time < t + 3600000000000))
            down := (x.down.filter fun e => e.1 != n.val) ++ [(n.val, d.hall + k, true)] })
        ∧ (∀ j, j ≠ i.val → smGet t.dev.cpx j = smGet d.cpx j)
        ∧ (activeCpx d = some i.val ∧ (n.val = 0 ∨ third) ∧ (standbyCpx d).isSome = true → t.dev.host.switch = true)
        ∧ (¬ (activeCpx d = some i.val ∧ (n.val = 0 ∨ third)) → t.dev.host.switch = d.host.switch)
        ∧ t = { s with dev := { d with
          regs := t.dev.regs, pins := t.dev.pins, cpx := t.dev.cpx, freeSeq := t.dev.freeSeq
          host := { d.host with switch := t.dev.host.switch } } }
        ∧ regsBut ([(u, Reg.CTL_CX_LAST_FAULT), (u, Reg.CTL_CX_STATUS), (u, Reg.CTL_CX_EVENTS), (u, Reg.CTL_EVT_PMP_FAULT),
            (u, Reg.CTL_EVT_COMP_RESTART)] ++ classRegs 3 ++ classRegs 6) d t.dev)
    ∧ (∀ i, activeCpx d = some i →
      (∃ t, exec .heartbeat s = .next t ∧ advanced d t.dev (pCtl i) Reg.CTL_HEARTBEAT 1 ∧ touches [(pCtl i, Reg.CTL_HEARTBEAT)] s t)
      ∧ ∀ j, standbyCpx d = some j →
        ∃ t, exec .heartbeatLoss s = .next t ∧ occurred d t.dev (pCtl j) Reg.CTL_CX_EVENTS 4 Reg.CTL_EVT_HEARTBEAT_LOST
          ∧ t = { s with dev := { d with regs := t.dev.regs, host := { d.host with switch := true } } }
          ∧ regsBut [(pCtl j, Reg.CTL_CX_EVENTS), (pCtl j, Reg.CTL_EVT_HEARTBEAT_LOST)] d t.dev)
    ∧ (∀ (port : Fin 2) (tag : W32),
      (atGrid d port.val = true → (standbyCpx d).isSome = true →
        ∃ t, exec (.switchover port tag) s = .next t ∧ t.dev.host.switch = true
          ∧ (∃ r, t.dev.host.drained = d.host.drained ++ [r] ∧ r.opcode = 0x26 ∧ r.port = port.val ∧ r.tag = tag)
          ∧ t = { s with dev := { d with
            regs := t.dev.regs, host := { d.host with arrived := d.host.arrived + 1, drained := t.dev.host.drained, switch := true } } })
      ∧ (atGrid d port.val = true → (standbyCpx d).isSome = false →
        ∃ t, exec (.switchover port tag) s = .next t ∧ devAnswered d t.dev port.val 0x26 3 tag [])
      ∧ (atGrid d port.val = false → d.host.inbox.length < 64 →
        exec (.switchover port tag) s = .next { s with dev := gridInboxed d port.val 0x26 tag [] }))
    ∧ ∀ (port : Fin 2) (tag handle : W32) (n off numeric timing version i : Nat) (x : Cpx), activeCpx d = some i → smGet d.cpx i = some x →
      1 ≤ n → n ≤ 4 → (∀ r ∈ d.host.drained, r.opcode ≠ 0x25) →
      let b := bufOf d.vat (hPool handle.toNat) (hIndex handle.toNat)
      let run := fun (verified importOk : Bool) => exec (.updateComponent port tag n handle off verified importOk numeric timing version) s
      (atGrid d port.val = true → handleCode d b.part handle.toNat (off % 2 ^ 32) false = 0 → b.state = .held →
        (versionUsed d numeric timing = false →
          ∃ t y, run true true = .next t ∧ devAnswered d t.dev port.val 0x25 0 tag [] ∧ smGet t.dev.cpx i = some y
            ∧ smGet y.versions n = some version ∧ y.fwNumeric = numeric ∧ y.timing = timing ∧ (∀ m, m ≠ n → smGet y.comps m = smGet x.comps m)
            ∧ (∃ k ≤ 5000000, y.down = (x.down.filter fun e => e.1 != n) ++ [(n, d.hall + k, false)])
            ∧ y = { x with versions := y.versions, comps := y.comps, fwNumeric := numeric, timing := timing, down := y.down }
            ∧ rdB t.dev (pCtl i) Reg.CTL_CX_STATUS (8 + n) = false
            ∧ (∀ j, j ≠ i → smGet t.dev.cpx j = smGet d.cpx j) ∧ (logOf t.dev i).next = (logOf d i).next + 1
            ∧ rdN t.dev pDev Reg.CTL_CAP_TIMING = timing % 65536 + 65536 * (numeric % 65536))
        ∧ (∃ t, run false true = .next t ∧ devAnswered d t.dev port.val 0x25 6 tag [] ∧ t.dev.cpx = d.cpx
            ∧ occurred d t.dev (pSec i) Reg.SEC_EVENTS 0 Reg.SEC_EVT_SIG_FAIL)
        ∧ (versionUsed d numeric timing = true → ∃ t, run true true = .next t ∧ devAnswered d t.dev port.val 0x25 14 tag [] ∧ t.dev.cpx = d.cpx)
        ∧ (versionUsed d numeric timing = false →
          ∃ t k, run true false = .next t ∧ devAnswered d t.dev port.val 0x25 15 tag [] ∧ k ≤ 5000000
            ∧ smGet t.dev.cpx i = some { x with down := (x.down.filter fun e => e.1 != n) ++ [(n, d.hall + k, false)] }
            ∧ (∀ j, j ≠ i → smGet t.dev.cpx j = smGet d.cpx j)))
      ∧ (atGrid d port.val = false → d.host.inbox.length < 64 →
        ∀ verified importOk, run verified importOk
          = .next { s with dev := gridInboxed d port.val 0x25 tag (leBytes 4 n ++ leBytes 4 handle.toNat ++ leBytes 4 off) })

/-! ## Frames -/

/-- R21, R22, R32, R37, R38, R205, R206: the cut commits a frame when everything is done, no kill applies and its partition is not halted; a killed
frame sets KILLED, publishes nothing and stops its cells. In an exchange group the decision waits for the group, which commits when every member
voted commit, and a member that found a split in the frame has its job torn down. A kill request stops issue at once before the cut, and waits for the next frame after it.
Model choices it uses: log entries 18 (DEDUCED), 31 (DEDUCED), 39 (DEDUCED), 44 (DEDUCED), 111 (DEDUCED). -/
def Obligations.FramesAreDecidedAtTheCut : Prop :=
  ∀ (s : State) (p : Fin 16),
    let d := s.dev
    let u := pPart p.val
    let x := partOf d p.val
    (x.cutTaken = true → exec (.completionCut p) s = .next s)
    ∧ (x.cutTaken = false →
      let c := cutCharges d p.val
      let commit := allDone c p.val && (partOf c p.val).killNow.isNone && !(rdB c u Reg.CTL_FRAME_STATUS 6 && (running c p.val).isSome)
      let group := ∃ r, runImage c p.val = some r ∧ r.2.2.1.exch ≠ []
      ∃ t, exec (.completionCut p) s = .next t ∧ t = { s with dev := t.dev } ∧ (partOf t.dev p.val).cutTaken = true
        ∧ (partOf t.dev p.val).decision = some commit
        ∧ (group → (partOf t.dev p.val).groupWait = true)
        ∧ (¬ group → (partOf t.dev p.val).groupWait = false
          ∧ (partOf t.dev p.val).shadow = if commit then shadowOf (partOf c p.val).named else [])
        ∧ (¬ group → commit = false → occurred c t.dev u Reg.CTL_FRAME_STATUS 1 Reg.CTL_EVT_KILLED
          ∧ ∀ k ∈ partCells c p.val, (cellOf t.dev k).inflight = [] ∧ (cellOf t.dev k).remotes = [] ∧ (cellOf t.dev k).killed = true))
    ∧ (x.groupWait = false → exec (.groupOutcome p) s = .next s)
    ∧ (∀ k sl img isl, x.groupWait = true → runImage d p.val = some (k, sl, img, isl) →
      let g := grpOf d p.val
      let f := frameNum d p.val
      let yes := x.decision = some true ∧ g.mine = some (f, true) ∧ g.split.map Prod.fst ≠ some f
        ∧ ∀ m, m < img.exch.length → m ≠ img.self → (g.votes.find? fun v => v.1 == f && v.2.1 == m).map (fun v => v.2.2) = some true
      ∃ t, exec (.groupOutcome p) s = .next t ∧ (partOf t.dev p.val).groupWait = false
        ∧ (yes → (partOf t.dev p.val).decision = some true ∧ (partOf t.dev p.val).shadow = shadowOf x.named)
        ∧ (¬ yes → (partOf t.dev p.val).decision = some false ∧ (partOf t.dev p.val).shadow = []
          ∧ occurred d t.dev u Reg.CTL_FRAME_STATUS 1 Reg.CTL_EVT_KILLED)
        ∧ (∀ node, g.split = some (f, node) → (smGetD [] d.rmt.members p.val).isEmpty = false →
          rdB t.dev u Reg.CTL_FRAME_STATUS 6 = true ∧ rdN t.dev u Reg.CTL_RMT_TEARDOWN = node % 2048 + (f + 65535) % 65536 * 65536
          ∧ (p.val, node) ∈ t.dev.rmt.torn))
    ∧ ∀ v : W32,
      let reason := v.toNat / 256 % 16
      let ok := bitAt v.toNat 0 = true ∧ 1 ≤ reason ∧ reason ≤ 5
      (¬ ok → exec (.killRequest p v) s = .next s)
      ∧ (ok → ∃ t, exec (.killRequest p v) s = .next t ∧ t = { s with dev := { d with parts := t.dev.parts, cells := t.dev.cells } }
          ∧ (∀ q, q ≠ p.val → partOf t.dev q = partOf d q)
          ∧ (if x.cutTaken then partOf t.dev p.val = { x with killNext := some (x.killNext.getD reason) } ∧ t.dev.cells = d.cells
            else partOf t.dev p.val = { x with killNow := some (x.killNow.getD reason) }
              ∧ ∀ k, cellOf t.dev k = if k ∈ partCells d p.val then { cellOf d k with killed := true } else cellOf d k))

/-- R13, R14, R16, R21, R24: a tick comes at the next multiple of the frame length, and opens a frame with no decision in it; the frame number advances,
or is FRAME_NUM_START at the common tick of a pinned job. R384, R393, R398, R483: a grid point comes at the next multiple of 8 µs; device-wide
changes of the propolis table take effect, a take-over that is due happens, and reports that wait are captured.
Model choices it uses: log entries 18 (DEDUCED), 19 (DEDUCED), 67 (DEDUCED), 79 (DEDUCED), 87 (DEDUCED), 94 (DEDUCED), 116 (DESIGN CHOICE). -/
def Obligations.TicksAndGridPointsMoveTime : Prop :=
  ∀ s : State,
    (∀ p : Fin 16,
      let c := takeGroup (takeCut s.dev p.val) p.val
      let time := tickTime c p.val
      let pinned := (ctxsOf c p.val).find? fun k => decide ((ctxOf c k).startAt = some time)
      ∃ t, exec (.tick p) s = .next t ∧ t = { s with prop := t.prop, dev := t.dev } ∧ t.dev.hall = time
        ∧ rdN t.dev (pPart p.val) Reg.CTL_TICK_TIME = time % 2 ^ 64
        ∧ (partOf t.dev p.val).cutTaken = false ∧ (partOf t.dev p.val).decision = none ∧ (partOf t.dev p.val).groupWait = false
        ∧ (pinned = none → frameNum t.dev p.val = (frameNum c p.val + 1) % 65536)
        ∧ (∀ k img, pinned = some k → (ctxOf c k).image = some img →
          frameNum t.dev p.val = img.frameStart % 65536))
    ∧ (let c := compsBack { writeBackLines s.dev with hall := (s.dev.hall / 8000 + 1) * 8000 }
      ∃ t, exec .gridPoint s = .next t ∧ t = { s with prop := t.prop, dev := t.dev } ∧ t.dev.hall = (s.dev.hall / 8000 + 1) * 8000
        ∧ t.prop = (propGrid s.prop c).1 ∧ t.prop.changes = s.prop.changes.filter (fun c => c.part.isSome)
        ∧ (∀ i : Fin 2, (attOf s.dev i.val).busy = true → (activeCpx t.dev).isSome = true → (attOf t.dev i.val).body.isSome = true)
        ∧ ∀ old new, s.dev.host.switch = true → activeCpx s.dev = some old → standbyCpx s.dev = some new →
          activeCpx t.dev = some new ∧ standbyCpx t.dev = none ∧ occurred s.dev t.dev (pCtl new) Reg.CTL_CX_EVENTS 2 Reg.CTL_EVT_SWITCHOVER)

/-! ## Contexts and the host's commands -/

/-- R380, R381, R385, R386, R391, R397, R524: the commands of a context take effect and are answered once: START makes a LOADED context READY at its
slice, and a pinned one waits for its common tick; STOP makes it LOADED, an IMMEDIATE one by a kill; SET_PRIO sets its priority; LOAD_IMAGE brings its
image in when every check passes, which is a step boundary (R232); NOP does nothing. Commands whose state does not allow them receive STATE. A record
that arrives while its partition is not at its tick waits in the inbox for the completion cut, and one that finds 64 there is refused (R382, R384).
Model choices it uses: log entries 70 (DEDUCED), 71 (DEDUCED), 73 (DESIGN CHOICE), 134 (DESIGN CHOICE). -/
def Obligations.ContextCommandsTakeEffect : Prop :=
  ∀ (s : State) (c : Fin 256) (tag : W32),
    let d := s.dev
    let x := ctxOf d c.val
    let p := x.part
    let e := received d c.val
    let answers := fun (i : Instr) (op status : Nat) (res : List Byte) (y : Ctx) => ∃ t, exec i s = .next t
      ∧ ctxAnswered d t.dev c.val op status tag res y
      ∧ t = { s with dev := { d with regs := t.dev.regs, ctxs := t.dev.ctxs, host := { d.host with ports := t.dev.host.ports } } }
      ∧ regsBut (cmdRegs d c.val) d t.dev
    let waits := fun (t : State) (op flags : Nat) => ∃ r, (partOf t.dev p).drained = (partOf d p).drained ++ [r] ∧ r.opcode = op ∧ r.flags = flags
      ∧ r.tag = tag ∧ r.ctx = c.val ∧ r.number = x.arrived + 1
    (x.state = .free → answers (.setPrio c tag 0) 4 3 [] x ∧ answers (.stop c tag false) 3 3 [] x)
    ∧ (x.state ≠ .free → drainsNow d c.val = false → x.inbox.length < 64 →
      let stays := fun (i : Instr) (op flags : Nat) (arg : List Byte) => exec i s = .next { s with dev := inboxed d c.val op flags tag arg }
      (∀ prio : Fin 8, stays (.setPrio c tag prio) 4 0 (leBytes 1 prio.val)) ∧ (∀ k : Fin 257, k.val = c.val → stays (.cmdNop k tag) 0x1F 0 [])
      ∧ (∀ (slice : Nat) (prio : Fin 8), stays (.start c tag slice prio) 2 0 (leBytes 4 slice ++ leBytes 1 prio.val))
      ∧ stays (.stop c tag false) 3 0 [] ∧ stays (.stop c tag true) 3 1 []
      ∧ ∀ (handle : W32) (off : Nat), stays (.loadImage c tag handle off) 1 0 (leBytes 4 handle.toNat ++ leBytes 4 off))
    ∧ (x.state ≠ .free → drainsNow d c.val = false → 64 ≤ x.inbox.length →
      let u := pCtl ((activeCpx d).getD 0)
      ∃ t, exec (.stop c tag false) s = .next t ∧ ctxOf t.dev c.val = { x with seq := x.seq + 1 }
        ∧ occurred d t.dev u Reg.CTL_CX_EVENTS 3 Reg.CTL_EVT_INBOX_FULL)
    ∧ (x.stopping = false → x.startAt = none → drainsNow d c.val = true →
      (∀ prio : Fin 8, x.state ≠ .free → x.state ≠ .halted → answers (.setPrio c tag prio) 4 0 [] { x with prio := prio.val })
      ∧ (∀ k : Fin 257, k.val = c.val → x.state ≠ .free → x.state ≠ .halted → answers (.cmdNop k tag) 0x1F 0 [] x)
      ∧ (∀ prio : Fin 8, x.state = .halted → answers (.setPrio c tag prio) 4 3 [] x)
      ∧ (∀ (slice : Nat) (prio : Fin 8), x.state ≠ .loaded → answers (.start c tag slice prio) 2 3 [] x)
      ∧ (∀ (handle : W32) (off : Nat), (x.state = .ready ∨ x.state = .running ∨ x.state = .idle) → answers (.loadImage c tag handle off) 1 3 [] x)
      ∧ (∀ (slice : Nat) (prio : Fin 8) (img : Image), x.state = .loaded → x.image = some img → slice < 2 ^ 32 →
        (x.pinned = false → (jobStart e p c.val img).isSome = true → (imageSlice slice img.slices img.loop img.loopStart).isSome = true →
          ∃ t, exec (.start c tag slice prio) s = .next t
            ∧ ctxAnswered d t.dev c.val 2 0 tag [] { x with
              state := .ready, slice := slice, prio := prio.val, preempted := false, runLen := 0
              ovRow := if x.slice = slice then x.ovRow else 0, poolRow := if x.slice = slice then x.poolRow else 0 }
            ∧ t = { s with dev := { d with
              regs := t.dev.regs, ctxs := t.dev.ctxs, host := { d.host with ports := t.dev.host.ports }
              rmt := { d.rmt with members := t.dev.rmt.members }, col := { d.col with binds := t.dev.col.binds }, freeSeq := t.dev.freeSeq } }
            ∧ regsBut (cmdRegs d c.val) d t.dev)
        ∧ (x.pinned = true → rdF d pTim Reg.TIM_STATUS 2 0 < 3 →
          let tick := jobTick e p c.val img d.hall
          (jobAgrees e p c.val img tick = true → (jobStart (if jobAway e p img then drawFree e else e) p c.val img).isSome = true →
            ∃ t, exec (.start c tag slice prio) s = .next t ∧ waits t 2 0
              ∧ ctxOf t.dev c.val = { x with arrived := x.arrived + 1, startAt := some tick })
          ∧ (jobAgrees e p c.val img tick = false →
            ∃ t, exec (.start c tag slice prio) s = .next t ∧ ctxAnswered d t.dev c.val 2 3 tag [] x)))
      ∧ (x.state ≠ .free → x.state ≠ .open →
        answers (.stop c tag false) 3 0 (leBytes 4 x.slice) { x with state := .loaded, preempted := false, stopping := false, startAt := none, runLen := 0 })
      ∧ ((x.state = .ready ∨ x.state = .running) →
        ∃ t, exec (.stop c tag true) s = .next t ∧ waits t 3 1 ∧ ctxOf t.dev c.val = { x with arrived := x.arrived + 1, stopping := true })
      ∧ ∀ (handle : W32) (off : Nat), (x.state = .open ∨ x.state = .loaded) → rdF d pTim Reg.TIM_STATUS 2 0 ≠ 0 → off < 2 ^ 32 →
        (heldOk e p c.val handle.toNat off).2 = true →
        let b := imageBytes e handle.toNat off
        let code := loadErr e s.prop c.val p b.1 b.2.1 b.2.2
        let img := readImage b.1
        (code ≠ 0 → ∃ t, exec (.loadImage c tag handle off) s = .next t ∧ ctxAnswered d t.dev c.val 1 6 tag [BitVec.ofNat 8 code] x
          ∧ rdF t.dev (pPart p) Reg.CTL_LOAD_STATUS 3 0 = code % 16)
        ∧ (code = 0 → lengthDue e p img d.hall = false → ∃ t, exec (.loadImage c tag handle off) s = .next t ∧ waits t 1 0
          ∧ ctxOf t.dev c.val = { x with arrived := x.arrived + 1 })
        ∧ (code = 0 → lengthDue e p img d.hall = true → needExp img (clockCode d) ≤ 6 → x.fresh = false →
          ∃ k, exec (.loadImage c tag handle off) s = .next { s with dev := loadBoundary k p c.val d.hall }
            ∧ (ctxOf k c.val).image = some img ∧ (ctxOf k c.val).state = .loaded ∧ (ctxOf k c.val).pinned = decide (1 < img.members)
            ∧ (ctxOf k c.val).applied = x.arrived + 1 ∧ (ctxOf k c.val).seq = x.seq + 1 ∧ (ctxOf k c.val).fresh = true
            ∧ rdF k (pPart p) Reg.CTL_LOAD_STATUS 3 0 = 0 ∧ rdB k (pPart p) Reg.CTL_LOAD_STATUS 4 = true
            ∧ rdF k (pPart p) Reg.CTL_FRAME_ACTIVE 2 0 = needExp img (clockCode d)
            ∧ rdB k (pPart p) Reg.CTL_FRAME_STATUS 6 = false
            ∧ (img.brood = none → loadBoundary k p c.val d.hall = modCtx k c.val fun y => { y with fresh := false })))

/-- R25, R232, R258, R259, R292, R295, R296, R379: PUBLISH puts a HELD buffer into the object table and the one it replaces is LEAVING, or it unbinds;
ACQUIRE answers with a buffer that is then HELD, or with EMPTY or QUOTA; RELEASE queues a buffer; SET_DESCRIPTOR sets an object's descriptor; brood
operations wait in order for their step boundary. Away from its partition's tick each record waits in the inbox (R384).
Model choices it uses: log entries 70 (DEDUCED), 73 (DESIGN CHOICE), 74 (DEDUCED), 135 (DESIGN CHOICE). -/
def Obligations.BufferAndSequenceCommandsTakeEffect : Prop :=
  ∀ (s : State) (c : Fin 256) (tag : W32),
    let d := s.dev
    let x := ctxOf d c.val
    let p := x.part
    let e := received d c.val
    x.state ≠ .free →
    (drainsNow d c.val = false → x.inbox.length < 64 →
      let stays := fun (i : Instr) (op : Nat) (arg : List Byte) => exec i s = .next { s with dev := inboxed d c.val op 0 tag arg }
      ∀ (handle : W32) (n m k : Nat) (tier : Fin 4) (id : W64),
        stays (.publish c tag n handle) 5 (leBytes 4 n ++ leBytes 4 handle.toNat)
        ∧ stays (.acquire c tag tier n m) 6 (leBytes 1 tier.val ++ leBytes 1 n ++ leBytes 1 m)
        ∧ stays (.release c tag handle) 7 (leBytes 4 handle.toNat)
        ∧ stays (.setDescriptor c tag n handle m) 8 (leBytes 4 n ++ leBytes 4 handle.toNat ++ leBytes 4 m)
        ∧ (∀ (pos stop upto slot prio : Nat) (evict : Bool), stays (.admitSeq c tag id handle k pos upto stop slot prio evict) 0x10
          (leBytes 8 id.toNat ++ leBytes 4 handle.toNat ++ leBytes 4 k ++ leBytes 4 pos ++ leBytes 4 upto ++ leBytes 4 stop ++ leBytes 1 slot
            ++ leBytes 1 prio ++ leBytes 1 (b2n evict)))
        ∧ (∀ (mask : BitVec 8) (stop prio : Nat), stays (.update c tag id n mask handle k stop prio) 0x11
          (leBytes 8 id.toNat ++ leBytes 2 n ++ leBytes 2 mask.toNat ++ leBytes 4 handle.toNat ++ leBytes 4 k ++ leBytes 4 stop ++ leBytes 1 prio))
        ∧ stays (.hold c tag id n) 0x12 (leBytes 8 id.toNat ++ leBytes 2 n) ∧ stays (.resume c tag id n) 0x13 (leBytes 8 id.toNat ++ leBytes 2 n)
        ∧ stays (.remove c tag id n) 0x14 (leBytes 8 id.toNat ++ leBytes 2 n))
    ∧ (x.stopping = false → x.startAt = none → drainsNow d c.val = true → x.state ≠ .halted →
    (∀ (obj : Nat) (handle : W32), obj < 2 ^ 24 →
      let h := handle.toNat
      let old := smGetD 0 (partOf d p).objects obj
      (h = 0 ∨ (heldOk e p c.val h 0).2 = true) → heldElsewhere d p c.val obj = false → (old ≠ h ∨ h = 0) →
        ∃ t y, exec (.publish c tag obj handle) s = .next t ∧ ctxAnswered d t.dev c.val 5 0 tag [] y ∧ (h ≠ 0 → obj ∈ y.held)
          ∧ y = { x with held := y.held } ∧ smGetD 0 (partOf t.dev p).objects obj = h
          ∧ (∀ o, o ≠ obj → smGetD 0 (partOf t.dev p).objects o = smGetD 0 (partOf d p).objects o)
          ∧ (h ≠ 0 → (bufOf t.dev.vat (hPool h) (hIndex h)).state = .published)
          ∧ (old ≠ 0 → (hPool old, hIndex old) ≠ (hPool h, hIndex h) → (bufOf d.vat (hPool old) (hIndex old)).gen = hGen old →
            (bufOf t.dev.vat (hPool old) (hIndex old)).state = .leaving))
    ∧ (∀ (tier : Fin 4) (cls comb : Nat), (poolOf tier.val cls).isSome = true → comb < 256 → (tier.val = 0 → comb < (partCombs d p).length) →
      let sub := if tier.val = 0 then (partCombs d p).getD comb 0 else if tier.val = 2 then (x.image.map Image.portC).getD 0
        else if tier.val = 3 then (x.image.map Image.portF).getD 0 else 0
      let used := smGetD 0 d.vat.used (c.val * 4 + tier.val)
      let limit := smGetD 0 d.vat.limit (c.val * 4 + tier.val)
      (pickPool e tier.val cls sub = none →
        ∃ t, exec (.acquire c tag tier cls comb) s = .next t ∧ ctxAnswered d t.dev c.val 6 11 tag [] x ∧ t.dev.vat = d.vat)
      ∧ ∀ pool pos, pickPool e tier.val cls sub = some (pool, pos) →
        (limit < used + poolBytes pool →
          ∃ t, exec (.acquire c tag tier cls comb) s = .next t ∧ ctxAnswered d t.dev c.val 6 12 tag [] x ∧ t.dev.vat = d.vat)
        ∧ (used + poolBytes pool ≤ limit →
          let idx := poolIdx pool sub pos
          ∃ t, exec (.acquire c tag tier cls comb) s = .next t
            ∧ ctxAnswered d t.dev c.val 6 0 tag (leBytes 4 (mkHandle pool idx (bufOf d.vat pool idx).gen)) x
            ∧ bufOf t.dev.vat pool idx = ⟨.held, (bufOf d.vat pool idx).gen, p, c.val, false, false⟩
            ∧ (∀ q i, q * 2 ^ 20 + i ≠ pool * 2 ^ 20 + idx → bufOf t.dev.vat q i = bufOf d.vat q i)
            ∧ smGetD 0 t.dev.vat.used (c.val * 4 + tier.val) = used + poolBytes pool))
    ∧ (∀ handle : W32,
      let h := handle.toNat
      let b := bufOf d.vat (hPool h) (hIndex h)
      handleCode d p h 0 false = 0 →
      (b.state = .held → b.ctx = c.val → b.queued = false →
        ∃ t, exec (.release c tag handle) s = .next t ∧ ctxAnswered d t.dev c.val 7 0 tag [] x
          ∧ bufOf t.dev.vat (hPool h) (hIndex h) = { b with queued := true }
          ∧ t = { s with dev := { d with
            regs := t.dev.regs, ctxs := t.dev.ctxs, host := { d.host with ports := t.dev.host.ports }, vat := { d.vat with bufs := t.dev.vat.bufs } } })
      ∧ ((b.state = .published ∨ b.state = .leaving) →
        ∃ t, exec (.release c tag handle) s = .next t ∧ ctxAnswered d t.dev c.val 7 13 tag [] x ∧ t.dev.vat = d.vat))
    ∧ (∀ (obj : Nat) (handle : W32) (off : Nat),
      let h := handle.toNat
      let l := engBytes e (bufAddr d.vat h + off) 64
      obj < 2 ^ 24 → off + 64 ≤ poolBytes (hPool h) → off < 2 ^ 32 → (heldOk e p c.val h off).2 = true →
      ∃ t, exec (.setDescriptor c tag obj handle off) s = .next t
        ∧ (descOk l = true → obj < descCount d p → ctxAnswered d t.dev c.val 8 0 tag [] x ∧ descOf t.dev p obj = readDesc (descOf d p obj) l)
        ∧ (descOk l = false ∨ descCount d p ≤ obj → ctxAnswered d t.dev c.val 8 2 tag [] x ∧ t.dev.tier = d.tier))
    ∧ (((images d p).any fun q => q.2.brood.isSome) = true →
      let queues := fun (i : Instr) (op : BrdOp) => ∃ t, exec i s = .next t
        ∧ smGetD [] t.dev.brd.queue p = smGetD [] d.brd.queue p ++ [⟨c.val, tag, op⟩]
        ∧ ctxOf t.dev c.val = { x with arrived := x.arrived + 1, applied := x.arrived + 1 }
        ∧ t = { s with dev := { d with regs := t.dev.regs, ctxs := t.dev.ctxs, brd := { d.brd with queue := t.dev.brd.queue } } }
        ∧ regsBut (cmdRegs d c.val) d t.dev
      (∀ (id : W64) (kv : W32) (limit pos stop upto slot prio : Nat) (evict : Bool), limit < 2 ^ 32 → pos < 2 ^ 32 → upto < 2 ^ 32 → stop < 2 ^ 32 →
        slot < 256 → prio < 256 →
        queues (.admitSeq c tag id kv limit pos upto stop slot prio evict) (.admitSeq id kv.toNat limit pos upto stop slot prio evict))
      ∧ (∀ (id : W64) (n : Nat) (mask : BitVec 8) (kv : W32) (limit stop prio : Nat), n < 65536 → limit < 2 ^ 32 → stop < 2 ^ 32 → prio < 256 →
        queues (.update c tag id n mask kv limit stop prio) (.update id n mask.toNat kv.toNat limit stop prio))
      ∧ ∀ (id : W64) (n : Nat), n < 65536 → queues (.hold c tag id n) (.hold id n) ∧ queues (.resume c tag id n) (.resume id n)
          ∧ queues (.remove c tag id n) (.remove id n)))

/-- R241, R374, R378, R383, R385, R386, R490: OPEN_CONTEXT opens a FREE context of a partition that has combs and no pinned context; SET_PARTITION sets a
shape whose combs, slices and ports are free and present, and logs it; CLOSE_CONTEXT waits for the partition's tick; REGISTER_SLOT registers a slot
whose image verifies, and RELEASE_SLOT frees one that no partition runs. Each other request is refused with its status. A record that arrives between
grid points waits in the device inbox (R384).
Model choices it uses: log entries 24 (DEDUCED), 70 (DEDUCED), 73 (DESIGN CHOICE). -/
def Obligations.DeviceCommandsTakeEffect : Prop :=
  ∀ (s : State) (port : Fin 2) (tag : W32),
    let d := s.dev
    let e := deviceReceived d
    let refused := fun (i : Instr) (op status : Nat) => ∃ t, exec i s = .next t ∧ devAnswered d t.dev port.val op status tag []
      ∧ t = { s with dev := { d with regs := t.dev.regs, host := t.dev.host } }
    (atGrid d 0 = true → ∃ t, exec (.cmdNop 256 tag) s = .next t ∧ devAnswered d t.dev 0 0x1F 0 tag [])
    ∧ (atGrid d 0 = false → d.host.inbox.length < 64 → exec (.cmdNop 256 tag) s = .next { s with dev := gridInboxed d 0 0x1F tag [] })
    ∧ (atGrid d port.val = false → d.host.inbox.length < 64 →
      let stays := fun (i : Instr) (op : Nat) (arg : List Byte) => exec i s = .next { s with dev := gridInboxed d port.val op tag arg }
      ∀ (n off : Nat) (c : Fin 256) (combs ports handle : W32) (slices : W64), stays (.openContext port tag n off) 0x20 (leBytes 2 n ++ leBytes 1 off)
        ∧ stays (.closeContext port tag c) 0x21 (leBytes 1 c.val)
        ∧ stays (.setPartition port tag n combs slices ports) 0x22
          (leBytes 4 n ++ leBytes 4 combs.toNat ++ leBytes 8 slices.toNat ++ leBytes 4 ports.toNat)
        ∧ stays (.registerSlot port tag n handle off) 0x23 (leBytes 4 n ++ leBytes 4 handle.toNat ++ leBytes 4 off)
        ∧ stays (.releaseSlot port tag n) 0x24 (leBytes 1 n))
    ∧ (atGrid d port.val = true →
    (∀ want p : Nat, p < 16 → (want < 256 ∨ want = 0xFFFF) →
      let open_ := (partCombs d p).isEmpty = false ∧ ∀ k ∈ ctxsOf d p, (ctxOf d k).pinned = false
      (¬ open_ → refused (.openContext port tag want p) 0x20 3)
      ∧ (open_ → want < 256 → (ctxOf d want).state ≠ .free → refused (.openContext port tag want p) 0x20 3)
      ∧ (open_ → want = 0xFFFF → (∀ k, k < 256 → (ctxOf d k).state ≠ .free) → refused (.openContext port tag want p) 0x20 8)
      ∧ (∀ c, open_ → c < 256 → (ctxOf d c).state = .free → (want = c ∨ (want = 0xFFFF ∧ ∀ k, k < c → (ctxOf d k).state ≠ .free)) →
        ∃ t, exec (.openContext port tag want p) s = .next t ∧ devAnswered d t.dev port.val 0x20 0 tag (leBytes 2 c)
          ∧ ctxOf t.dev c = { ctxOf d c with state := .open, part := p, port := port.val, lastRun := (frameNum d p + 65536 - 32767) % 65536 }
          ∧ (∀ k, k ≠ c → ctxOf t.dev k = ctxOf d k)
          ∧ t = { s with dev := { d with regs := t.dev.regs, host := t.dev.host, ctxs := t.dev.ctxs, vat := { d.vat with limit := t.dev.vat.limit } } }))
    ∧ (∀ (p : Nat) (combs : W32) (slices : W64) (ports : W32), p < 16 →
      let u := pPart p
      let free := (∀ k ∈ setBits combs.toNat 32, combFree d p k = true) ∧ (∀ i ∈ setBits slices.toNat 64, d.fuses.stack (i / 8) = true)
        ∧ (∀ q, q < 16 → q ≠ p → slices &&& rd d (pPart q) Reg.CTL_PART_SLICES = 0) ∧ ∀ i ∈ setBits ports.toNat 32, d.fuses.bol i = true
      (ctxsOf d p ≠ [] → refused (.setPartition port tag p combs slices ports) 0x22 3)
      ∧ (ctxsOf d p = [] → ¬ free → refused (.setPartition port tag p combs slices ports) 0x22 2)
      ∧ (ctxsOf d p = [] → free →
        ∃ t, exec (.setPartition port tag p combs slices ports) s = .next t ∧ devAnswered d t.dev port.val 0x22 0 tag []
          ∧ rdN t.dev u Reg.CTL_PART_COMBS = combs.toNat ∧ rd t.dev u Reg.CTL_PART_SLICES = slices ∧ rdN t.dev u Reg.CTL_PART_PORTS = ports.toNat
          ∧ (∀ i : Fin 2, (logOf t.dev i.val).next = (logOf d i.val).next + 1)
          ∧ (∀ q, q ≠ p → smGet t.dev.vat.carve q = smGet d.vat.carve q)
          ∧ t = { s with dev := { d with
            regs := t.dev.regs, host := t.dev.host, sec := { d.sec with logs := t.dev.sec.logs }, vat := { d.vat with carve := t.dev.vat.carve } } }))
    ∧ (∀ c : Fin 256,
      let x := ctxOf d c.val
      let may := x.port = port.val ∨ smGetD false d.host.both c.val = true
      (x.state = .free → refused (.closeContext port tag c) 0x21 3)
      ∧ (x.state ≠ .free → ¬ may → refused (.closeContext port tag c) 0x21 4)
      ∧ (x.state ≠ .free → may →
        ∃ t r, exec (.closeContext port tag c) s = .next t ∧ (partOf t.dev x.part).drained = (partOf d x.part).drained ++ [r]
          ∧ r.opcode = 0x21 ∧ r.port = port.val ∧ r.ctx = 256 ∧ r.tag = tag ∧ leAt r.arg 0 1 = c.val
          ∧ t = { s with dev := { d with regs := t.dev.regs, parts := t.dev.parts, host := { d.host with arrived := d.host.arrived + 1 } } }))
    ∧ (∀ (slot : Nat) (handle : W32) (off : Nat), slot < 64 → off < 2 ^ 32 →
      let h := handle.toNat
      let b := bufOf d.vat (hPool h) (hIndex h)
      let q := imageBytes e h off
      let code := loadErr e s.prop b.ctx b.part q.1 q.2.1 q.2.2
      handleCode d b.part h off false = 0 → b.state = .held →
      ((smGet d.host.slots slot).isSome = true → refused (.registerSlot port tag slot handle off) 0x23 3)
      ∧ (smGet d.host.slots slot = none →
        ∃ t, exec (.registerSlot port tag slot handle off) s = .next t ∧
          if code = 0 ∨ code = 4 ∨ code = 5 then devAnswered d t.dev port.val 0x23 0 tag []
            ∧ smGet t.dev.host.slots slot = some (h, off, q.1.length, true) ∧ rdB t.dev pBrd Reg.BRD_SLOT_READY slot = true
            ∧ (∀ m, m ≠ slot → smGet t.dev.host.slots m = smGet d.host.slots m)
          else devAnswered d t.dev port.val 0x23 6 tag [BitVec.ofNat 8 code] ∧ t.dev.host.slots = d.host.slots))
    ∧ ∀ slot : Nat, slot < 64 →
      (smGet d.host.slots slot = none → refused (.releaseSlot port tag slot) 0x24 10)
      ∧ ((smGet d.host.slots slot).isSome = true →
        (slotRuns d slot = false →
          ∃ t, exec (.releaseSlot port tag slot) s = .next t ∧ devAnswered d t.dev port.val 0x24 0 tag []
            ∧ smGet t.dev.host.slots slot = none ∧ rdB t.dev pBrd Reg.BRD_SLOT_READY slot = false
            ∧ (∀ m, m ≠ slot → smGet t.dev.host.slots m = smGet d.host.slots m)
            ∧ t = { s with dev := { d with regs := t.dev.regs, host := t.dev.host } })
        ∧ (slotRuns d slot = true →
          ∃ t r, exec (.releaseSlot port tag slot) s = .next t ∧ t.dev.host.drained = d.host.drained ++ [r] ∧ r.opcode = 0x24 ∧ leAt r.arg 0 1 = slot
            ∧ t = { s with dev := { d with regs := t.dev.regs, host := { d.host with arrived := d.host.arrived + 1, drained := t.dev.host.drained } } })))

/-! ## Lock-step -/

/-- R463, R465 to R469, R471: an arming that nothing forbids makes lock-step ARMING, or changes no more than the register while it is ACTIVE, and one
that is refused records its code; a disarming ends lock-step at the next tick; a partner digest is kept until its own is held, a match counts, and a difference locates the divergence
to the deepest level that both logs hold, kills the named partitions'
frames and ends lock-step; a partner that is silent for 1 s ends it with reason 3.
Model choices it uses: log entries 10 (DESIGN CHOICE), 44 (DEDUCED), 98 (DEDUCED), 140 (DESIGN CHOICE). -/
def Obligations.LockstepArmsComparesAndEnds : Prop :=
  ∀ s : State,
    let d := s.dev
    let only := fun (t : State) => t = { s with dev := { d with regs := t.dev.regs, ls := t.dev.ls } }
    (∀ (r : Requester) (v : W32) (ok sparing down : Bool) (cells : Nat), accessCode d s.prop r pTim Reg.TIM_LS_CTL false true = 0 →
      let i := Instr.lockstepArm r v ok sparing down cells
      let code := armRefuse d s.prop r v.toNat sparing down cells
      (code ≠ 0 →
        ∃ t, exec i s = .next t ∧ rdF t.dev pTim Reg.TIM_LS_STATUS 4 2 = code ∧ occurred d t.dev pTim Reg.TIM_LS_EVENTS 3 Reg.TIM_EVT_LS_REFUSED
          ∧ lsState t.dev = lsState d ∧ touches [(pTim, Reg.TIM_LS_STATUS), (pTim, Reg.TIM_LS_EVENTS), (pTim, Reg.TIM_EVT_LS_REFUSED)] s t)
      ∧ (lsState d < 2 → code = 0 →
        ∃ t, exec i s = .next t ∧ lsState t.dev = 1 ∧ rdF t.dev pTim Reg.TIM_LS_STATUS 4 2 = 0
          ∧ rdN t.dev pTim Reg.TIM_LS_CTL = v.toNat % 2 + v.toNat / 65536 * 65536
          ∧ rdF t.dev pTim Reg.TIM_LS_STATUS 20 8 = rdF d pTim Reg.TIM_LS_LOG 12 0 ∧ t.dev.ls = { d.ls with accept := ok, parts := v.toNat / 65536 }
          ∧ only t ∧ regsBut [(pTim, Reg.TIM_LS_CTL), (pTim, Reg.TIM_LS_STATUS)] d t.dev)
      ∧ (2 ≤ lsState d → code = 0 →
        ∃ t, exec i s = .next t ∧ rdN t.dev pTim Reg.TIM_LS_CTL = v.toNat % 2 + v.toNat / 65536 * 65536 ∧ touches [(pTim, Reg.TIM_LS_CTL)] s t)
      ∧ (lsState d ≠ 0 →
        ∃ t, exec (.lockstepDisarm r v) s = .next t ∧ rdN t.dev pTim Reg.TIM_LS_CTL = v.toNat / 65536 * 65536 ∧ lsState t.dev = lsState d
          ∧ t.dev.ls = { d.ls with ending := d.ls.ending ++ [5] } ∧ only t ∧ regsBut [(pTim, Reg.TIM_LS_CTL)] d t.dev)
      ∧ (lsState d = 0 →
        ∃ t, exec (.lockstepDisarm r v) s = .next t ∧ rdN t.dev pTim Reg.TIM_LS_CTL = v.toNat / 65536 * 65536 ∧ touches [(pTim, Reg.TIM_LS_CTL)] s t))
    ∧ (lsState d = 1 → d.ls.accept = false →
      ∃ t, exec .lockstepArmTimeout s = .next t ∧ lsState t.dev = 0 ∧ rdB t.dev pTim Reg.TIM_LS_CTL 0 = false
        ∧ rdF t.dev pTim Reg.TIM_LS_STATUS 4 2 = 5 ∧ occurred d t.dev pTim Reg.TIM_LS_EVENTS 3 Reg.TIM_EVT_LS_REFUSED
        ∧ touches [(pTim, Reg.TIM_LS_CTL), (pTim, Reg.TIM_LS_STATUS), (pTim, Reg.TIM_LS_EVENTS), (pTim, Reg.TIM_EVT_LS_REFUSED)] s t)
    ∧ (lsState d = 1 → d.ls.accept = true → exec .lockstepArmTimeout s = .next s)
    ∧ (∀ (c : Fin 256) (k : Nat) (v : W64) (frame : Nat) (log : LsLog) (level : Fin 4), lsState d = 2 → (∀ x ∈ d.ls.theirs, ¬ (x.ctx = c.val ∧ x.k = k)) →
      let mine := d.ls.own.find? fun o => o.ctx == c.val && o.k == k
      (mine = none → (ctxOf d c.val).ordinal ≤ k →
        ∃ t, exec (.digestMessage c k v frame log level) s = .next t ∧ t.dev.ls = { d.ls with theirs := d.ls.theirs ++ [⟨c.val, k, v, frame, log, level.val⟩] }
          ∧ t = { s with dev := { d with ls := t.dev.ls } })
      ∧ (∀ o, mine = some o → o.value = v →
        ∃ t, exec (.digestMessage c k v frame log level) s = .next t ∧ advanced d t.dev pTim Reg.TIM_LS_COMPARED 1 ∧ t.dev.ls.theirs = d.ls.theirs
          ∧ t.dev.ls = { d.ls with own := d.ls.own.filter fun x => !(x.ctx == c.val && x.k == k) }
          ∧ only t ∧ regsBut [(pTim, Reg.TIM_LS_COMPARED)] d t.dev)
      ∧ (∀ o, mine = some o → o.value ≠ v →
        let found := lsLocate o.terms log (min level.val (logLevel d o.terms))
        ∃ t, exec (.digestMessage c k v frame log level) s = .next t ∧ occurred d t.dev pTim Reg.TIM_LS_EVENTS 0 Reg.TIM_EVT_LS_DIVERGED
          ∧ occurred d t.dev pTim Reg.TIM_LS_EVENTS 2 Reg.TIM_EVT_LS_END ∧ lsState t.dev = 0 ∧ rdF t.dev pTim Reg.TIM_LS_STATUS 7 5 = 1
          ∧ rdN t.dev pTim Reg.TIM_LS_DIV_ORDINAL = o.k % 2 ^ 64
          ∧ rdF t.dev pTim Reg.TIM_LS_DIV_WHERE 12 0 = found.2.1 % 8192 ∧ rdF t.dev pTim Reg.TIM_LS_DIV_WHERE 14 13 = found.1 % 4
          ∧ rdF t.dev pTim Reg.TIM_LS_DIV_WHERE 31 16 = found.2.2.1 % 65536 ∧ rdN t.dev pTim Reg.TIM_LS_DIV_BLOCK = found.2.2.2 % 2 ^ 32
          ∧ t.dev.ls.own = [] ∧ t.dev.ls.theirs = []
          ∧ ∀ p ∈ lsParts d, rdB t.dev (pPart p) Reg.CTL_FRAME_STATUS 6 = true ∧ if (partOf d p).cutTaken then (partOf t.dev p).killNext = some ((partOf d p).killNext.getD 5)
            else (partOf t.dev p).killNow = some ((partOf d p).killNow.getD 5)))
    ∧ (lsState d = 2 → ∃ t, exec .digestTimeout s = .next t ∧ lsState t.dev = 0 ∧ rdF t.dev pTim Reg.TIM_LS_STATUS 7 5 = 3
        ∧ rdB t.dev pTim Reg.TIM_LS_CTL 0 = false ∧ occurred d t.dev pTim Reg.TIM_LS_EVENTS 2 Reg.TIM_EVT_LS_END
        ∧ t.dev.ls.own = [] ∧ t.dev.ls.theirs = []
        ∧ t = { s with dev := { d with regs := t.dev.regs, ls := t.dev.ls, ctxs := t.dev.ctxs, host := { d.host with ports := t.dev.host.ports } } })
    ∧ (lsState d ≠ 2 → exec .digestTimeout s = .next s)

/-! ## Live repair -/

/-- R426, R443, R445, R282, R440, R441: a repair is refused with PERMISSION, BUSY or BAD_TARGET, or carried out and reported with its SEQ: sparing moves
a cell or a comb with its cells to the lowest spare that passes its test, or reports NO_SPARE, and waits for the tick of a running frame; a port that
is in use keeps its device; a retirement runs until its stack redirects; a soft-disable entry is marked for removal. R254, R256: an attached
device shows the capacities that qualify, at 8/9 of what they hold. R449, R475: compaction leaves more segments free and writes again, each with its
TAG, the records that a replay finds.
Model choices it uses: log entries 54 (DEDUCED), 58 (DEDUCED), 59 (DEDUCED), 60 (DEDUCED). -/
def Obligations.RepairsAreCarriedOut : Prop :=
  ∀ (s : State) (r : Requester) (seq : BitVec 8) (u : BitVec 13), accessCode s.dev s.prop r pBup Reg.BUP_REPAIR_CMD false true = 0 →
    let d := s.dev
    let path := u.toNat
    let may := mayRepair s.prop r path = true
    let free := may ∧ d.bup.repair = none ∧ present d.fuses path = true
    let ends := fun (t : State) (res : Nat) => rdN t.dev pBup Reg.BUP_REPAIR_STATUS = seq.toNat + 256 * res + 4096 ∧ t.dev.bup.repair = none
    let refuses := fun (i : Instr) (target : Bool) => (¬ may ∨ d.bup.repair ≠ none ∨ (present d.fuses path && target) = false) →
      ∃ t, exec i s = .next t ∧ touches [(pBup, Reg.BUP_REPAIR_STATUS)] s t
        ∧ rdN t.dev pBup Reg.BUP_REPAIR_STATUS
          = seq.toNat + 256 * (if mayRepair s.prop r path = false then 4 else if d.bup.repair.isSome then 1 else 5) + 4096
    (∀ fails : List Nat,
      let c := path % 1024
      let l := freeSpares d (dieOfComb d.fuses (c / 8))
      let m := spareComb (dieOfComb d.fuses c)
      let waits := fun (i : Instr) (op : Nat) => ∀ p, sparingFrame d path = some p →
        ∃ t, exec i s = .next t ∧ t.dev.bup = { d.bup with repair := some ⟨op, seq.toNat, path, fails⟩ } ∧ rdB t.dev pBup Reg.BUP_STATUS 5 = true
          ∧ (if (partOf d p).cutTaken then (partOf t.dev p).killNext = some ((partOf d p).killNext.getD 2)
            else (partOf t.dev p).killNow = some ((partOf d p).killNow.getD 2))
      refuses (.spareCell r seq u fails) (decide (pageKind path = .cell)) ∧ refuses (.spareComb r seq u fails) (decide (pageKind path = .comb))
      ∧ (free → pageKind path = .cell → waits (.spareCell r seq u fails) 1
        ∧ (sparingFrame d path = none →
          (∀ bad q rest, l = bad ++ q :: rest → (∀ b ∈ bad, b ∈ fails) → q ∉ fails →
            ∃ t, exec (.spareCell r seq u fails) s = .next t ∧ physOf t.dev c = q ∧ (∀ k, k ≠ c → physOf t.dev k = physOf d k)
              ∧ occurred d t.dev pBup Reg.BUP_EVENTS 1 Reg.BUP_EVT_SPARED ∧ (∀ b ∈ bad, pPhysCell b ∈ t.dev.bup.journal.soft) ∧ ends t 0)
          ∧ ((∀ b ∈ l, b ∈ fails) → ∃ t, exec (.spareCell r seq u fails) s = .next t ∧ ends t 2 ∧ t.dev.cellMap = d.cellMap)))
      ∧ (free → pageKind path = .comb → waits (.spareComb r seq u fails) 2
        ∧ (sparingFrame d path = none →
          let l := freeSpares d (dieOfComb d.fuses c)
          (8 ≤ l.length → (∀ q ∈ l, q ∉ fails) → 288 + m ∉ fails →
            ∃ t, exec (.spareComb r seq u fails) s = .next t ∧ physCombOf t.dev c = m ∧ (∀ i, i < 8 → physOf t.dev (8 * c + i) = 8 * m + i)
              ∧ occurred d t.dev pBup Reg.BUP_EVENTS 1 Reg.BUP_EVT_SPARED ∧ ends t 0)
          ∧ (l.length < 8 → ∃ t, exec (.spareComb r seq u fails) s = .next t ∧ ends t 2 ∧ t.dev.combMap = d.combMap))))
    ∧ (let port := path % 32
      refuses (.cxlDetach r seq u) (decide (pageKind path = .block 7))
      ∧ (∀ trained link c f cxl2, refuses (.cxlAttach r seq u trained link c f cxl2) (decide (pageKind path = .block 7) && !rdB d path Reg.CXL_STATUS 0))
      ∧ (free → pageKind path = .block 7 →
        (portInUse d port = true → ∃ t, exec (.cxlDetach r seq u) s = .next t ∧ ends t 3 ∧ t.dev.mem = d.mem ∧ t.dev.vat = d.vat)
        ∧ (portInUse d port = false →
          ∃ t, exec (.cxlDetach r seq u) s = .next t ∧ ends t 0 ∧ rdN t.dev (pCxl port) Reg.CXL_CAP = 0
            ∧ rdB t.dev (pCxl port) Reg.CXL_STATUS 0 = false ∧ occurred d t.dev (pCxl port) Reg.CXL_EVENTS 5 Reg.CXL_EVT_ATTACH_CHANGE
            ∧ (∀ k q, (k, q) ∈ t.dev.vat.regions → 8 ≤ k / 64 → k % 64 = port → q.limit = 0))
        ∧ (rdB d path Reg.CXL_STATUS 0 = false → domOn d (68 + port) = true → ∀ x : CxlDevice,
          let attach := fun (trained : Bool) => Instr.cxlAttach r seq u trained (x.lanes, x.rate) (x.rawC, x.latC) (x.rawF, x.latF) x.cxl2
          let full := decide (x.lanes = 16) && decide (x.rate = if x.cxl2 then 32 else 64)
          let c := if full && decide (5 * x.latC ≤ 4 * tierReadLat 2) then min 512 (8 * x.rawC / 9 / 2 ^ 30) else 0
          let f := if full && decide (5 * x.latF ≤ 4 * tierReadLat 3) then min 1024 (8 * x.rawF / 9 / 2 ^ 30) else 0
          (∃ t, exec (attach true) s = .next t ∧ ends t (if c = 0 ∧ f = 0 then 7 else 0)
            ∧ rdB t.dev (pCxl port) Reg.CXL_STATUS 0 = true ∧ rdN t.dev (pCxl port) Reg.CXL_CAP = c + 65536 * f
            ∧ occurred d t.dev (pCxl port) Reg.CXL_EVENTS 5 Reg.CXL_EVT_ATTACH_CHANGE)
          ∧ ∃ t, exec (attach false) s = .next t ∧ ends t 7
            ∧ t = { s with dev := { d with regs := t.dev.regs } }
            ∧ regsBut [(pBup, Reg.BUP_REPAIR_STATUS), (pBup, Reg.BUP_STATUS)] d t.dev)))
    ∧ (let st := path % 32
      refuses (.retireStack r seq u) (decide (pageKind path = .block 6) && (smGet d.tier.retire st).isNone)
      ∧ (free → pageKind path = .block 6 → smGet d.tier.retire st = none →
        (∀ ex v, takeExtents d.vat = some (ex, v) →
          ∃ t, exec (.retireStack r seq u) s = .next t ∧ t.dev.bup.repair = some ⟨5, seq.toNat, path, []⟩ ∧ smGet t.dev.tier.retire st = some (.copying ex)
            ∧ rdF t.dev (pMem st) Reg.MEM_STATE 1 0 = 1 ∧ rdN t.dev (pMem st) Reg.MEM_MIGRATE = 0 ∧ t.dev.vat = v)
        ∧ (takeExtents d.vat = none →
          ∃ t, exec (.retireStack r seq u) s = .next t ∧ ends t 7 ∧ occurred d t.dev (pMem st) Reg.MEM_EVENTS 4 Reg.MEM_EVT_RETIRE_BLOCKED
            ∧ t.dev.vat = d.vat ∧ t.dev.tier = d.tier)))
    ∧ (granted s.prop r .test pDev = true →
      refuses (.clearSoft r seq u) (d.bup.journal.soft.contains path)
      ∧ (free → d.bup.journal.soft.contains path = true →
        ∃ t, exec (.clearSoft r seq u) s = .next t ∧ ends t 0 ∧ path ∈ t.dev.bup.journal.cleared ∧ t.dev.bup.journal.soft = d.bup.journal.soft
          ∧ t = { s with dev := { d with regs := t.dev.regs, bup := t.dev.bup } }
          ∧ regsBut [(pBup, Reg.BUP_REPAIR_STATUS), (pBup, Reg.BUP_STATUS)] d t.dev))
    ∧ (granted s.prop r .test pDev = false →
      ∃ t, exec (.clearSoft r seq u) s = .next t ∧ touches [(pBup, Reg.BUP_REPAIR_STATUS)] s t
        ∧ rdN t.dev pBup Reg.BUP_REPAIR_STATUS = seq.toNat + 256 * 4 + 4096)
    ∧ (let n := rdF d pBup Reg.BUP_JOURNAL 6 0
      (8 ≤ n → exec .journalCompaction s = .next s)
      ∧ (n < 8 → ∃ t, exec .journalCompaction s = .next t ∧ n < rdN t.dev pBup Reg.BUP_JOURNAL ∧ rdN t.dev pBup Reg.BUP_JOURNAL ≤ 126
          ∧ t.dev.bup = { d.bup with journal := { d.bup.journal with seq := t.dev.bup.journal.seq, records := t.dev.bup.journal.records } }
          ∧ (∀ type subject, type ≠ 8 → (newestRec t.dev.bup.journal.records type subject).bind JRec.value
            = (newestRec d.bup.journal.records type subject).bind JRec.value)
          ∧ (∀ q ∈ t.dev.bup.journal.records, ∃ payload,
            q.raw = journalBytes q.type q.seq (Config.journalKey q.type q.subject % 2 ^ 32) payload)
          ∧ t.dev.bup.journal.records.getLast?.map JRec.type = some 8
          ∧ rdN t.dev pBup Reg.BUP_JOURNAL_SEQ = t.dev.bup.journal.seq
          ∧ t = { s with dev := { d with regs := t.dev.regs, bup := t.dev.bup, freeSeq := t.dev.freeSeq } }
          ∧ regsBut [(pBup, Reg.BUP_JOURNAL), (pBup, Reg.BUP_JOURNAL_SEQ)] d t.dev))

/-! ## Unit commands -/

/-- R51 to R57, R436, R523: a unit without members that is idle carries out a command at once, or refuses it with a result; RESET, SELF_TEST and domain
switches run on until they complete; a command that needs the frame to end kills it and waits for the tick. A command to a comb reaches its cells,
and it ends when the last has ended. A completed RESET leaves the unit clear with a new generation; a failed test leaves it FAILED; one whose
domain has gone off meanwhile ends with POWER_OFF. MEMBER_EVENT follows the members.
Model choices it uses: log entries 37 (DEDUCED), 42 (DEDUCED), 90 (DEDUCED), 129 (DESIGN CHOICE), 131 (DESIGN CHOICE). -/
def Obligations.UnitCommandsAct : Prop :=
  ∀ (s : State) (path : BitVec 13) (seq : BitVec 8) (reason : Fin 16),
    let d := s.dev
    let u := path.toNat
    let instr := fun (op : Nat) => match op with
      | 0 => Instr.unitNop path seq
      | 1 => .unitReset path seq reason
      | 2 => .quiesce path seq reason
      | 3 => .unitResume path seq
      | 4 => .selfTest path seq reason
      | 5 => .clearEvents path seq
      | 6 => .powerOff path seq reason
      | _ => .powerOn path seq
    let ended := fun (t : State) (v seq res : Nat) => smGet t.dev.runs v = none ∧ rdN t.dev v Reg.UNIT_CMD_STATUS = seq + 256 * res
      ∧ rdB t.dev v Reg.UNIT_STATE 3 = false ∧ noticed d t.dev v (if res = 0 then .cmdDone else .cmdFailed)
    let only := fun (t : State) => t = { s with dev := { d with regs := t.dev.regs, runs := t.dev.runs } }
      ∧ (∀ q, q ≠ u → smGet t.dev.runs q = smGet d.runs q) ∧ pagesBut [u] d t.dev
    (present d.fuses u = false → ∀ op, op < 8 → ∃ t, exec (instr op) s = .next t ∧ noticed d t.dev pDev .accessErr
      ∧ touches ((pDev, Reg.UNIT_ACCESS_ERR) :: headerRegs pDev .accessErr) s t)
    ∧ (present d.fuses u = true → members d u = [] → smGet d.runs u = none →
      (∀ op res, op < 8 → cmdRefuse d u op = some res → ∃ t, exec (instr op) s = .next t ∧ ended t u seq.toNat res ∧ only t)
      ∧ (∀ op p, op < 8 → cmdRefuse d u op = none → waitsTick op = true → frameOwner d u = some p →
        ∃ t, exec (instr op) s = .next t ∧ smGet t.dev.runs u = some ⟨op, seq.toNat, none, unitState d u, [u], [], []⟩
          ∧ (let r := if reason.val = 0 then 4 else reason.val
            if (partOf d p).cutTaken then (partOf t.dev p).killNext = some ((partOf d p).killNext.getD r)
            else (partOf t.dev p).killNow = some ((partOf d p).killNow.getD r))
          ∧ (partOf t.dev p).deferred = (partOf d p).deferred ++ [⟨u, op, seq.toNat, !(partOf d p).cutTaken⟩])
      ∧ ((∀ op, op < 8 → cmdRefuse d u op = none → (waitsTick op = false ∨ frameOwner d u = none) →
        ∃ t, exec (instr op) s = .next t
          ∧ (op ∈ [0, 2, 3, 5] → ended t u seq.toNat 0 ∧ only t)
          ∧ (op ∈ [1, 4] → smGet t.dev.runs u = some ⟨op, seq.toNat, none, unitState d u, [u], [], []⟩ ∧ only t)
          ∧ (op = 1 → unitState t.dev u = 1) ∧ (op = 2 → unitState t.dev u = 4) ∧ (op = 4 → unitState t.dev u = 7)
          ∧ (op = 3 → unitState t.dev u = if unitState d u = 4 then (if (frameOwner d u).isSome then 3 else 2) else unitState d u)
          ∧ (op = 5 → ∀ i, 1 ≤ i → i < 6 → rdB t.dev u Reg.UNIT_EVENTS i = false)
          ∧ (op = 6 ∨ op = 7 → smGet t.dev.runs u = some ⟨op, seq.toNat, none, unitState d u, [u], [], []⟩
            ∧ t.dev.pwr = { d.pwr with switches := d.pwr.switches ++ [⟨domOf d u, op == 7, some u, seq.toNat⟩] }))))
    ∧ (pageKind u = .comb → (∀ v ∈ u :: members d u, present d.fuses v = true ∧ unitOn d v = true ∧ smGet d.runs v = none) →
      ∃ t, exec (.unitNop path seq) s = .next t ∧ (∀ v ∈ u :: members d u, ended t v seq.toNat 0)
        ∧ t = { s with dev := { d with regs := t.dev.regs, runs := t.dev.runs } } ∧ pagesBut (u :: members d u) d t.dev)
    ∧ (∀ (failed : List (BitVec 13)) (r : UnitRun), members d u = [] → smGet d.runs u = some r → r.left = [u] → r.parent = none →
      r.results = [] → r.fails = [] → r.seq < 256 → runsOn d u = true →
      ∃ t, exec (.unitCommandComplete path failed) s = .next t
        ∧ (unitOn d u = false → ended t u r.seq 7 ∧ unitState t.dev u = unitState d u ∧ only t)
        ∧ (unitOn d u = true → path ∈ failed → ended t u r.seq 1 ∧ unitState t.dev u = 5)
        ∧ (unitOn d u = true → path ∉ failed → ended t u r.seq 0)
        ∧ (unitOn d u = true → path ∉ failed → r.op = 4 → unitState t.dev u = r.prior % 8 ∧ only t)
        ∧ (unitOn d u = true → path ∉ failed → r.op ≠ 4 → unitState t.dev u = (serviceState d u).code
          ∧ rdF t.dev u Reg.UNIT_STATE 15 8 = (rdF d u Reg.UNIT_STATE 15 8 + 1) % 256
          ∧ (pageKind u = .cell → cellOf t.dev (u % 1024) = CellSt.init
            ∧ ∀ i, i < 0x400000 → readByte t.dev (cellAddr (u % 1024) i) = 0)))
    ∧ (present d.fuses u = false → exec (.memberEventPropagate path) s = .next s)
    ∧ (present d.fuses u = true →
      let b := (members d u).any (masked d)
      ∃ t, exec (.memberEventPropagate path) s = .next t ∧ rdB t.dev u Reg.UNIT_EVENTS 16 = b
        ∧ (u ≠ pDev → touches [(u, Reg.UNIT_EVENTS)] s t)
        ∧ (u = pDev → t.dev.pins.alertN = b ∧ rdB t.dev pDev Reg.CTL_HLT_SUMMARY 11 = b
          ∧ t = { s with dev := { d with regs := t.dev.regs, pins := t.dev.pins } }
          ∧ regsBut [(pDev, Reg.UNIT_EVENTS), (pDev, Reg.CTL_HLT_SUMMARY)] d t.dev))

/-! ## Bring-up, reset and power -/

/-- R419 to R424, R446, R490, R495, R496: releasing power-on reset enables the first rails; each group in tolerance enables the next, and the last one
starts steps 2 to 5, which reach the wait for an image unless an item stops the device; a late step sets PATH_LATE; a device reset clears the device and
takes the warm or the cold path, with the pod shape that was written (R304); a loss of power leaves only what outlives it: fuses, the configuration store and the bytes of Tier F.
Model choices it uses: log entries 4 (DESIGN CHOICE), 49 (DEDUCED), 50 (DEDUCED), 51 (DEDUCED), 52 (DEDUCED), 53 (DEDUCED), 55
(DESIGN CHOICE), 56 (DEDUCED), 57 (DESIGN CHOICE), 58 (DEDUCED). -/
def Obligations.DeviceStartsAndStops : Prop :=
  ∀ s : State,
    let d := s.dev
    let keeps := fun (t : State) => t.dev.fuses = d.fuses ∧ (∀ a, inWindow true a = true → readByte t.dev a = readByte d a)
    let good := fun (x : BringFacts) (warm : Bool) =>
      x.fuseReadOk = true ∧ (warm = true ∨ x.complexOk.getD 0 true = true ∨ x.complexOk.getD 1 true = true)
        ∧ (∃ st ∈ stacksOf d.fuses, failsNow warm x.stackFails st = false)
        ∧ (failsNow warm x.hxvFails 0 = false ∨ failsNow warm x.hxvFails 1 = false ∨ x.parentAlive = true)
    (d.powered = true → exec .powerOnResetRelease s = .next s)
    ∧ (d.powered = false →
      ∃ t, exec .powerOnResetRelease s = .next t ∧ t.prop = Propolis.reset ∧ t.pending = s.pending ∧ t.dev.powered = true ∧ keeps t
        ∧ t.dev.pins.resetReleased = true ∧ t.dev.pins.railEn = 1 ∧ t.dev.pins.railPg = 0 ∧ t.dev.bup.journal = d.bup.journal
        ∧ (∀ a, inWindow true a = false → readByte t.dev a = 0))
    ∧ (∀ (k : Fin 6) (late : Bool) (x : BringFacts), d.powered = true → phase d = 0 → bitAt d.pins.railEn.toNat k.val = true →
      bitAt d.pins.railPg.toNat k.val = false →
      ∃ t, exec (.railPg k late x) s = .next t ∧ bitAt t.dev.pins.railPg.toNat k.val = true ∧ t.prop = s.prop ∧ keeps t
        ∧ (late = true → occurred d t.dev pBup Reg.BUP_EVENTS 10 Reg.BUP_EVT_PATH_LATE)
        ∧ (k.val < 5 → bitAt t.dev.pins.railEn.toNat (k.val + 1) = true ∧ phase t.dev = 0
          ∧ t = { s with dev := { d with regs := t.dev.regs, pins := t.dev.pins } }
          ∧ regsBut [(pBup, Reg.BUP_EVENTS), (pBup, Reg.BUP_EVT_PATH_LATE)] d t.dev)
        ∧ (k.val = 5 → good x false → phase t.dev = 5 ∧ rdN t.dev pDev Reg.BOL_PLACE = x.place.toNat / 8192 * 8192 ∧ rdB t.dev pBup Reg.BUP_STATUS 4 = false)
        ∧ (k.val = 5 → ¬ good x false → phase t.dev = 8 ∧ occurred d t.dev pDev Reg.CTL_HLT_EVENTS 5 (Reg.CTL_EVT_CLASS 6)))
    ∧ (∀ (step : Fin 9) (fatal : Bool),
      (pathRuns d = false → exec (.bringupStepTimeout step fatal) s = .next s)
      ∧ (pathRuns d = true → fatal = true → step.val = 1 → phase d = 0 →
        ∃ t, exec (.bringupStepTimeout step fatal) s = .next t ∧ phase t.dev = 8 ∧ raised d t.dev 6 pBup 0
          ∧ t = { s with dev := { d with regs := t.dev.regs, pins := t.dev.pins } }
          ∧ regsBut ((pBup, Reg.BUP_STATUS) :: classRegs 6) d t.dev)
      ∧ (pathRuns d = true → ¬ (fatal = true ∧ step.val = 1 ∧ phase d = 0) →
        ∃ t, exec (.bringupStepTimeout step fatal) s = .next t ∧ occurred d t.dev pBup Reg.BUP_EVENTS 10 Reg.BUP_EVT_PATH_LATE
          ∧ touches [(pBup, Reg.BUP_EVENTS), (pBup, Reg.BUP_EVT_PATH_LATE)] s t))
    ∧ (∀ x : BringFacts,
      (d.powered = false ∨ d.pins.railPg.toNat ≠ 63 → exec (.deviceReset x) s = .next s)
      ∧ (d.powered = true → d.pins.railPg.toNat = 63 →
        ∃ t, exec (.deviceReset x) s = .next t ∧ t.prop = Propolis.reset ∧ t.pending = s.pending ∧ t.dev.powered = true ∧ t.dev.hall = 0 ∧ keeps t
          ∧ rdB t.dev pBup Reg.BUP_STATUS 4 = !coldStart d ∧ t.dev.bup.repair = none ∧ unitState t.dev pDev = 1
          ∧ t.dev.fab.racks = rdF d pDev Reg.BOL_POD_SHAPE 4 0
          ∧ (good x (!coldStart d) → phase t.dev = 5 ∧ rdN t.dev pDev Reg.BOL_PLACE = x.place.toNat / 8192 * 8192)
          ∧ (¬ good x (!coldStart d) → phase t.dev = 8)
          ∧ (∀ a, inWindow true a = false → inWindow false a = false → readByte t.dev a = 0)))
    ∧ ∃ t, exec .powerLoss s = .next t ∧ t.prop = Propolis.reset ∧ t.pending = s.pending ∧ t.dev.powered = false ∧ keeps t
      ∧ t.dev.pins.railEn = 0 ∧ t.dev.pins.railPg = 0 ∧ t.dev.bup.journal = d.bup.journal ∧ t.dev.tier.poison = d.tier.poison
      ∧ t.dev.tier.retire = d.tier.retire ∧ (∀ u o, rd t.dev u o = resetVal u o) ∧ (∀ a, inWindow true a = false → readByte t.dev a = 0)

/-! ## Image broadcast -/

/-- R429 to R435: a descriptor that names this node opens a session and goes to the children first; a good chunk is kept and counted, a bad one is asked
for again; a request is answered with HOLD and the chunks that are held, an ATTACH with the chunks; a timer that expires asks the parent, then the
alternate parent, then the node's own Hexvan port; a node that has every chunk says DONE and acts on the image, and gives its chunks up at last.
Model choices it uses: log entry 61 (DEDUCED). -/
def Obligations.ImagesAreBroadcast : Prop :=
  ∀ s : State,
    let d := s.dev
    let me := myNode d
    let sent := fun (t : State) (l : List (Nat × Nat × Nat × List Byte)) => t.dev.bup.sent = d.bup.sent ++ l
    let asks := fun (b : Bcast) (node op : Nat) => let r := sectorRuns (missingChunks b); (rangePackets r.length r).map fun p => (node, op, 0, p)
    let now := fun (t : State) (b : Bcast) => t.dev.bup.bcast = some b
    let bup := fun (t : State) => t = { s with dev := { d with regs := t.dev.regs, bup := t.dev.bup } }
    (∀ (x : BcastDesc) (from_ : Nat) (e : BcastNode), nodeEntry x me = some e → (∀ b, d.bup.bcast = some b → b.desc.bcastId ≠ x.bcastId) →
      x.magic = 0x54534342#32 →
      ((e.root = false ∨ treeOk x = true) →
        ∃ t, exec (.broadcastDesc x from_) s = .next t
          ∧ now t ⟨x, none, [], if e.root then me else from_, [], [], 0, false, false, e.root, false, [], !e.root⟩
          ∧ sent t ((childrenOf x me).flatMap fun k => (List.range (ceilDiv (descBytes x).length 512)).map fun i =>
            (k, 5, i, sliceBytes (descBytes x) (512 * i) 512))
          ∧ rdN t.dev pBup Reg.BUP_BCAST_STATUS = x.bcastId % 65536 + 65536 + 524288 * b2n e.root)
      ∧ (e.root = true → treeOk x = false →
        ∃ t, exec (.broadcastDesc x from_) s = .next t ∧ occurred d t.dev pBup Reg.BUP_EVENTS 7 Reg.BUP_EVT_BCAST_BAD
          ∧ touches [(pBup, Reg.BUP_EVENTS), (pBup, Reg.BUP_EVT_BCAST_BAD)] s t))
    ∧ (d.bup.bcast = none → exec .chunkTimer s = .next s ∧ exec .holdTimeout s = .next s ∧ exec .pullRetryTimer s = .next s
        ∧ exec .chunkRetentionTimeout s = .next s)
    ∧ ∀ b : Bcast, d.bup.bcast = some b →
      let id := b.desc.bcastId
      (∀ (n : Nat) (data : List Byte) (from_ : Nat),
        let i := Instr.broadcastData id n data from_
        (((smGet b.held n).isSome = true ∨ takeable b n = false) → exec i s = .next s)
        ∧ (smGet b.held n = none → takeable b n = true →
          (chunkOk b n data = true → b.desc.manifestChunks ≤ n →
            ∃ t c, exec i s = .next t ∧ now t c ∧ smGet c.held n = some data ∧ (∀ m, m ≠ n → smGet c.held m = smGet b.held m)
              ∧ c.desc = b.desc ∧ c.manifest = b.manifest ∧ c.waiting = false ∧ advanced d t.dev pBup Reg.BUP_BCAST_CHUNKS 1)
          ∧ (chunkOk b n data = true → n < b.desc.manifestChunks → (∃ m, m < b.desc.manifestChunks ∧ m ≠ n ∧ smGet b.held m = none) →
            ∃ t c, exec i s = .next t ∧ now t c ∧ smGet c.held n = some data ∧ (∀ m, m ≠ n → smGet c.held m = smGet b.held m)
              ∧ c.desc = b.desc ∧ c.waiting = false)
          ∧ (chunkOk b n data = false → smGetD 0 b.fails n < 2 →
            ∃ t q, exec i s = .next t ∧ sent t [q] ∧ q.1 = b.source ∧ q.2.1 = 1 ∧ now t { b with fails := smPut b.fails n (smGetD 0 b.fails n + 1) }
              ∧ occurred d t.dev pBup Reg.BUP_EVENTS 8 Reg.BUP_EVT_BCAST_BAD_CHUNK ∧ bup t
              ∧ regsBut [(pBup, Reg.BUP_EVENTS), (pBup, Reg.BUP_EVT_BCAST_BAD_CHUNK)] d t.dev)))
      ∧ (∀ (child : Nat) (rs : List (Nat × Nat)),
        let chunks := ((rangeChunks b rs).filter (heldChunk b)).map fun n => (child, 0, n, (smGet b.held n).getD [])
        let rest := sectorRuns ((rangeChunks b rs).filter fun n => !heldChunk b n)
        let c := { b with asked := (b.asked.filter fun q => q.1 != child) ++ (if rest.isEmpty then [] else [(child, rest)]) }
        let k := ((List.range b.desc.chunkCount).takeWhile (heldChunk b)).length
        (∃ t p, exec (.broadcastRequest id child rs) s = .next t ∧ sent t ((child, 2, 0, p) :: chunks) ∧ (0 < k → p = leBytes 4 (k - 1)) ∧ now t c
          ∧ t = { s with dev := { d with bup := t.dev.bup, freeSeq := t.dev.freeSeq } })
        ∧ ∃ t, exec (.broadcastAttach id child rs) s = .next t ∧ sent t chunks ∧ now t c ∧ t = { s with dev := { d with bup := t.dev.bup } })
      ∧ (∀ n : Nat, ∃ t, exec (.bcastHold id n) s = .next t
          ∧ t = { s with dev := { d with bup := { d.bup with bcast := some { b with waiting := false, timer := !allHeld b && !b.pulling } } } })
      ∧ (∀ n : Nat,
        let c := { b with done := if b.done.contains n then b.done else b.done ++ [n] }
        ∃ t, exec (.broadcastDone id (some n)) s = .next t ∧ t.dev.bup.bcast = if b.complete && servedAll c me then none else some c)
      ∧ (∀ m e, b.complete = false → allHeld b = true → b.manifest = some m → nodeEntry b.desc me = some e →
        ∃ t, exec (.broadcastDone id none) s = .next t ∧ (e.root = false → (e.parent, 4, 0, []) ∈ t.dev.bup.sent)
          ∧ (e.root = false → e.noAlt = false → (e.alt, 4, 0, []) ∈ t.dev.bup.sent)
          ∧ (b.desc.kind = 0 → ∀ i : Fin 2, rdF d (pCtl i.val) Reg.CTL_CX_STATUS 1 0 = 1 →
            rdN t.dev (pCtl i.val) Reg.CTL_CX_STATUS = 0x1F02 ∨ rdN t.dev (pCtl i.val) Reg.CTL_CX_STATUS = 0x1F03)
          ∧ (b.desc.kind ≠ 0 → occurred d t.dev pBup Reg.BUP_EVENTS 11 Reg.BUP_EVT_BCAST_DONE ∨ occurred d t.dev pBup Reg.BUP_EVENTS 7 Reg.BUP_EVT_BCAST_BAD))
      ∧ (b.timer = true → allHeld b = false →
        ∃ t, exec .chunkTimer s = .next t ∧ sent t (asks b b.source 1) ∧ now t { b with timer := false, waiting := true }
          ∧ t = { s with dev := { d with bup := t.dev.bup } })
      ∧ (∀ e, nodeEntry b.desc me = some e → b.waiting = true →
        (e.noAlt = false → b.attached = false →
          ∃ t, exec .holdTimeout s = .next t ∧ sent t (asks b e.alt 3) ∧ now t { b with attached := true, source := e.alt } ∧ bup t
            ∧ occurred d t.dev pBup Reg.BUP_EVENTS 5 Reg.BUP_EVT_BCAST_REATTACH ∧ rdB t.dev pBup Reg.BUP_BCAST_STATUS 18 = true)
        ∧ ((e.noAlt = true ∨ b.attached = true) →
          (pullPort d = none → ∃ t, exec .holdTimeout s = .next t ∧ now t { b with waiting := false, timer := false } ∧ bup t)
          ∧ ((pullPort d).isSome = true → ∃ t, exec .holdTimeout s = .next t ∧ now t { b with waiting := false, timer := false, pulling := true }
              ∧ occurred d t.dev pBup Reg.BUP_EVENTS 6 Reg.BUP_EVT_BCAST_PULL)))
      ∧ (b.timer = false → b.waiting = false → b.pulling = false → allHeld b = false →
        ((pullPort d).isSome = true → ∃ t, exec .pullRetryTimer s = .next t ∧ now t { b with pulling := true }
            ∧ occurred d t.dev pBup Reg.BUP_EVENTS 6 Reg.BUP_EVT_BCAST_PULL)
        ∧ ∀ e, pullPort d = none → nodeEntry b.desc me = some e →
          ∃ t, exec .pullRetryTimer s = .next t ∧ sent t (asks b e.parent 1) ∧ now t { b with waiting := true, attached := false, source := e.parent }
            ∧ t = { s with dev := { d with bup := t.dev.bup } })
      ∧ (b.complete = false → exec .chunkRetentionTimeout s = .next s)
      ∧ (b.complete = true → ∃ t, exec .chunkRetentionTimeout s = .next t ∧ t.dev.bup.bcast = none
          ∧ t.dev.bup = { d.bup with bcast := none } ∧ (∀ i, i < 2 → (hxvOf t.dev i).pulls = [])
          ∧ t = { s with dev := { d with regs := t.dev.regs, bup := t.dev.bup, host := { d.host with ports := t.dev.host.ports } } }
          ∧ regsBut [(pBup, Reg.BUP_BCAST_STATUS)] d t.dev)

/-! ## The Waggle engines -/

/-- R172, R174 to R176, R178, R182, R184, R193: a block of the frame for a job that has not started is kept, with the cycle in which it is ingested and
its keys and NaN scores counted; any other is dropped with the code of Table 07-5, and the second of any two for a column and TOKEN_BASE that differs
files a kill request, be its job started or not. At the end of its time a job writes its output in full, adds to its counts, frees the engine and
advances its NOTIFY tag; in any other cycle, and past the cut (R22), nothing happens.
Model choices it uses: log entry 75 (DEDUCED). -/
def Obligations.WaggleBlocksArriveAndJobsComplete : Prop :=
  (∀ (s : State) (i : Fin 2) (src : Nat) (raw : List Byte) (cycle p c : Nat) (img : Image) (sl : Nat),
      let d := s.dev
      let u := pWgl i.val
      let e := wglOf d i.val
      let jid := leAt raw 2 2
      let bk := leAt raw 0 1
      let jobs := (wglJobs img sl i.val).filter fun x => x.2.2.jobId == jid && !e.started.contains x.1
      let dropRegs := [(u, Reg.WGL_LAST_DROP), (u, Reg.WGL_EVENTS), (u, Reg.WGL_EVT_BLOCK_DROP), (u, Reg.WGL_BLOCKS_DROPPED)]
      let dropped := fun (t : State) (code : Nat) => rdN t.dev u Reg.WGL_LAST_DROP = code + 65536 * jid
        ∧ occurred d t.dev u Reg.WGL_EVENTS 4 Reg.WGL_EVT_BLOCK_DROP ∧ advanced d t.dev u Reg.WGL_BLOCKS_DROPPED 1
      let drops := fun (code : Nat) => ∃ t, exec (.wglBlockIngest i src raw cycle) s = .next t ∧ dropped t code ∧ touches dropRegs s t
      let again := fun (b : WglBlk) => ∃ t, exec (.wglBlockIngest i src raw cycle) s = .next t ∧ dropped t 5
        ∧ (b.raw = raw.take (blkBytes raw) → touches dropRegs s t)
        ∧ (b.raw ≠ raw.take (blkBytes raw) → rdB t.dev u Reg.WGL_EVENTS 6 = true ∧ advanced d t.dev u Reg.WGL_EVT_BLOCK_CONFLICT 1
          ∧ (if (partOf d p).cutTaken then (partOf t.dev p).killNext = some ((partOf d p).killNext.getD 2)
            else (partOf t.dev p).killNow = some ((partOf d p).killNow.getD 2))
          ∧ t.dev.mem = d.mem ∧ (wglOf t.dev i.val).blocks = e.blocks)
      stateIs d u .resetting = false →
      (ownerOf d u = none → drops 2)
      ∧ (ownerOf d u = some p → (leAt raw 4 2 ≠ frameNum d p ∨ frameOver d p = true) → drops 1)
      ∧ (ownerOf d u = some p → leAt raw 4 2 = frameNum d p → frameOver d p = false → runImage d p = none → drops 2)
      ∧ (engineImage d u = some (p, c, img, sl) → leAt raw 4 2 = frameNum d p → frameOver d p = false →
        let old := sameBlock e (wglJobs img sl i.val) raw
        (jobs = [] → old = none → drops 2)
        ∧ (∀ b kind j, jobs = [] → old = some (b, kind, j) → (blkCode kind j raw true = 5 → again b) ∧ (blkCode kind j raw true ≠ 5 → drops 2))
        ∧ (jobs ≠ [] → (∀ x ∈ jobs, takesBlock bk x.2.1 = false) → drops 3)
        ∧ ∀ (ix kind : Nat) (j : WglJob), jobs.find? (fun x => takesBlock bk x.2.1) = some (ix, kind, j) →
          let n := blkBytes raw
          let nans := ((List.range 128).filter fun k => scoreKey (blkScore (raw.take n) j.scoreFmt.val k) == 0).length
          (∀ b, old.map Prod.fst = some b → (blkCode kind j raw true = 5 → again b)
            ∧ (blkCode kind j raw true ≠ 5 → drops (blkCode kind j raw true)))
          ∧ (old = none → blkCode kind j raw false ≠ 0 → drops (blkCode kind j raw false))
          ∧ (old = none → blkCode kind j raw false = 0 → ∃ t, exec (.wglBlockIngest i src raw cycle) s = .next t
            ∧ (wglOf t.dev i.val).blocks = e.blocks ++ [⟨ix, bk, leAt raw 6 2, leAt raw 8 4, raw.take n, src, cycle + ceilDiv n 256 - 1⟩]
            ∧ (bk = 0 → advanced d t.dev u Reg.WGL_KEYS 128 ∧ advanced d t.dev u Reg.WGL_NAN_SCORES nans
              ∧ (nans ≠ 0 → e.noted.contains (ix, 0) = false → occurred d t.dev u Reg.WGL_EVENTS 0 Reg.WGL_EVT_NAN_SCORE))
            ∧ t = { s with dev := { d with regs := t.dev.regs, pins := t.dev.pins, wgl := t.dev.wgl } }
            ∧ (∀ k, k ≠ i.val → wglOf t.dev k = wglOf d k)
            ∧ regsBut (if bk = 0 then [(u, Reg.WGL_KEYS), (u, Reg.WGL_NAN_SCORES)] ++ groupRegs u Reg.WGL_EVENTS Reg.WGL_EVT_NAN_SCORE else []) d t.dev)))
  ∧ (∀ (s : State) (i : Fin 2) (cycle p c : Nat) (img : Image) (sl : Nat) (r : WglRun),
      let d := s.dev
      let u := pWgl i.val
      let e := wglOf d i.val
      e.run = some r → engineImage d u = some (p, c, img, sl) →
      ((cycle ≠ r.fin ∨ cutCycle d p < cycle) → exec (.wglJobComplete i cycle) s = .next s)
      ∧ ∀ a bytes, cycle = r.fin → cycle ≤ cutCycle d p → (partOf d p).cutTaken = false → r.out = [(a, bytes)] → lands d a bytes.length →
        let told := slotCell d p r.entry.notifySlot
        ∃ t, exec (.wglJobComplete i cycle) s = .next t
          ∧ readBytes t.dev a bytes.length = bytes ∧ memBut a bytes.length d t.dev
          ∧ advanced d t.dev u Reg.WGL_JOBS 1 ∧ advanced d t.dev u (if r.kind = 2 then Reg.WGL_SECOND_SELECTED else Reg.WGL_SELECTED) r.picked
          ∧ advanced d t.dev u Reg.WGL_FLOOR_REJECTS r.rejects ∧ advanced d t.dev u Reg.WGL_UNFILLED_PLACES r.unfilled
          ∧ advanced d t.dev u Reg.WGL_UNROUTED_TOKENS r.unrouted
          ∧ (r.unfilled ≠ 0 → e.noted.contains (r.job, 2) = false → occurred d t.dev u Reg.WGL_EVENTS 2 Reg.WGL_EVT_UNFILLED)
          ∧ (r.unrouted ≠ 0 → e.noted.contains (r.job, 3) = false → occurred d t.dev u Reg.WGL_EVENTS 3 Reg.WGL_EVT_UNROUTED)
          ∧ rdB t.dev u Reg.WGL_STATUS 0 = false
          ∧ (wglOf t.dev i.val).run = none ∧ (wglOf t.dev i.val).free = r.fin + 1
          ∧ (wglOf t.dev i.val).picks = (if r.kind = 1 then e.picks ++ [(r.job, r.recs)] else e.picks)
          ∧ (∀ k, k ≠ i.val → wglOf t.dev k = wglOf d k)
          ∧ (r.entry.notifyEn = true → ∀ k, told = some k → Signalled d t.dev k true r.entry.notifyTag.val r.fin)
          ∧ (r.entry.notifyEn = false → t.dev.cells = d.cells ∧ pagesBut [u, pDev] d t.dev)
          ∧ t = { s with dev := { d with
            regs := t.dev.regs, mem := t.dev.mem, pins := t.dev.pins, parts := t.dev.parts, cells := t.dev.cells, combs := t.dev.combs, wgl := t.dev.wgl } })
/-- R165, R172, R179 to R185, R188, R190, R192: the next job of an engine, once its blocks are there, starts in the latest cycle of R172, which the
command names, and runs for W of Table 07-9. A SELECT takes the C best eligible tokens of each column; a SECOND gives the places left to the best tokens that no home chose; a TOPK
keeps the R best groups of each token; a NEURON the K_SEG best neurons of each segment; a TALLY finds the live tokens that no home chose. A job whose
output fails a check writes nothing and stops the engine.
Model choices it uses: log entry 75 (DEDUCED). -/
def Obligations.WaggleJobsSelect : Prop :=
  ∀ (s : State) (i : Fin 2) (j : WglJob) (cycle p sl ix h a : Nat) (img : Image),
    let d := s.dev
    let u := pWgl i.val
    let e := wglOf d i.val
    let begins := fun (kind : Nat) => wglStarts d i.val kind j cycle p sl ix h img
    let ok := handleOperand d p h j.outOffset
    let cols := fun (job col : Nat) => (eligible j (colEntries e job j col).1).1
    let w := scoreBytes j.scoreFmt.val
    let runs := fun (t : State) (kind : Nat) (bytes : List Byte) (recs : List WglRec) =>
      (∃ r, (wglOf t.dev i.val).run = some r ∧ r.job = ix ∧ r.kind = kind ∧ r.entry = j ∧ r.fin = cycle + jobTime kind j - 1 ∧ r.out = [(a, bytes)] ∧ r.recs = recs)
      ∧ (wglOf t.dev i.val).started = ix :: e.started ∧ (∀ k, k ≠ i.val → wglOf t.dev k = wglOf d k)
      ∧ rdN t.dev u Reg.WGL_STATUS = 1 + 2 * kind + 65536 * (j.jobId % 65536)
      ∧ t = { s with dev := { d with regs := t.dev.regs, wgl := t.dev.wgl, freeSeq := t.dev.freeSeq } } ∧ (kind ≠ 3 → t.dev.freeSeq = d.freeSeq)
      ∧ regsBut ([(u, Reg.WGL_STATUS)] ++ if kind = 1 then [(u, Reg.WGL_LAST_DROP), (u, Reg.WGL_EVENTS), (u, Reg.WGL_EVT_BLOCK_DROP), (u, Reg.WGL_BLOCKS_DROPPED)]
          else []) d t.dev
    (begins 1 → ok (outBytes 1 j) true = .ok a →
      ∃ t recs, exec (.select i j cycle) s = .next t ∧ runs t 1 (regionBytes j recs) recs
        ∧ (∀ r ∈ recs, r.col < j.eCount ∧ r.slot < j.capacity ∧ r.pass = 0)
        ∧ (∀ col, col < j.eCount → ((cols ix col).map WglEntry.token).Nodup → ∀ x ∈ cols ix col,
            ((∃ r ∈ recs, r.col = col ∧ r.token = x.token ∧ r.score = x.score) ↔ amongBest j.capacity (cols ix col) x))
        ∧ ∀ q ∈ recs, ∀ r ∈ recs, q.col = r.col → q.slot < r.slot → q.token ≤ r.token)
    ∧ (∀ sx (sj : WglJob), begins 2 → ok (outBytes 2 j) true = .ok a →
      (wglJobs img sl i.val).find? (fun x => x.2.1 == 1 && sameRegion x.2.2 j) = some (sx, 1, sj) →
      let first := ((e.picks.find? fun (q : Nat × List WglRec) => q.1 == sx).map Prod.snd).getD []
      let left := fun (col : Nat) => (eligible j ((colEntries e sx sj col).1.filter fun x => !anyBit e ix 1 x.token)).1
      let n1 := fun (col : Nat) => (first.filter fun r => r.col == col && r.pass == 0).length
      ∃ t new, exec (.second i j cycle) s = .next t ∧ runs t 2 (regionBytes j (first ++ new)) (first ++ new)
        ∧ (∀ r ∈ new, r.col < j.eCount ∧ n1 r.col ≤ r.slot ∧ r.slot < j.capacity ∧ r.pass = 1)
        ∧ (∀ col, col < j.eCount → ((left col).map WglEntry.token).Nodup → ∀ x ∈ left col,
            ((∃ r ∈ new, r.col = col ∧ r.token = x.token ∧ r.score = x.score) ↔ amongBest (j.capacity - n1 col) (left col) x)))
    ∧ (begins 3 → ok (outBytes 3 j) true = .ok a →
      ∃ t bytes, exec (.topk i j cycle) s = .next t ∧ runs t 3 bytes [] ∧ bytes.length = j.eCount * (j.n / 128) * (64 + 128 * w)
        ∧ ∀ g k, g < j.eCount → k < j.n / 128 →
          let at_ := (g * (j.n / 128) + k) * (64 + 128 * w)
          leAt bytes (at_ + 2) 2 = j.outJobId % 65536 ∧ leAt bytes (at_ + 4) 2 = frameNum d p % 65536 ∧ leAt bytes (at_ + 6) 2 = (j.eFirst + g) % 65536
            ∧ (∀ q, q < 128 →
              let found := (List.range j.eCount).filterMap fun g => ((colEntries e ix j g).1.find? fun x => x.slot == 128 * k + q).map fun x => { x with token := g }
              let l := (eligible j found).1
              (bitAt (leAt bytes (at_ + 0x20) 16) q = true ↔ ∃ x ∈ l, x.token = g ∧ amongBest j.capacity l x))
            ∧ ∀ b, (colBlocks e ix (j.eFirst + g)).find? (fun b => b.base == 128 * k) = some b →
              sliceBytes bytes (at_ + 0x40) (128 * w) = sliceBytes b.raw 0x40 (128 * w))
    ∧ (begins 4 → ok (outBytes 4 j) true = .ok a →
      ∃ t bytes, exec (.neuron i j cycle) s = .next t ∧ runs t 4 bytes []
        ∧ ∀ q, q < 128 * (j.n / 128) →
          let seg := (eligible j ((colEntries e ix j 0).1.filter fun x => x.slot / 128 == q / 128)).1
          (seg.map WglEntry.token).Nodup →
            (bitAt (bytes.getD (q / 8) 0).toNat (q % 8) = true ↔ ∃ x ∈ seg, x.slot = q ∧ amongBest j.capacity seg x))
    ∧ (begins 5 → ok (outBytes 5 j) true = .ok a →
      ∃ t bytes, exec (.tally i j cycle) s = .next t ∧ runs t 5 bytes []
        ∧ ∀ q, q < 8 * (j.tSrc / 8) → let k := j.self * j.tSrc + q
          (bitAt (bytes.getD (q / 8) 0).toNat (q % 8) = true ↔ anyBit e ix 2 k = true ∧ anyBit e ix 1 k = false))
    ∧ ∀ kind : Fin 5, begins (kind.val + 1) →
      let x := [Instr.select i j cycle, .second i j cycle, .topk i j cycle, .neuron i j cycle, .tally i j cycle][kind]
      let failed := fun (t : State) (v : Nat) => (wglOf t.dev i.val).stopped = true ∧ (wglOf t.dev i.val).run = none ∧ rdB t.dev u Reg.WGL_JOB_ERR 4 = true
        ∧ (rdB d u Reg.WGL_JOB_ERR 4 = false → rdN t.dev u Reg.WGL_JOB_ERR = v)
        ∧ (e.noted.contains (ix, 7) = false → occurred d t.dev u Reg.WGL_EVENTS 7 Reg.WGL_EVT_JOB_ERR)
        ∧ t = { s with dev := { d with regs := t.dev.regs, wgl := t.dev.wgl } }
      (∀ code, ok (outBytes (kind.val + 1) j) true = .error (.check code) →
        ∃ t, exec x s = .next t ∧ failed t (1 + 16 + 65536 * code)
          ∧ occurred d t.dev (pVat (poolInst (hPool h))) Reg.VAT_EVENTS 3 Reg.VAT_EVT_CHECK_FAIL)
      ∧ (ok (outBytes (kind.val + 1) j) true = .error .range → ∃ t, exec x s = .next t ∧ failed t (2 + 16))


/-! ## The Swarm engines -/

/-- R200, R201, R207, R209, R212, R217: a sending entry that starts sends its units in order. A SCORE_FEED sends a block for each expert and tile with
the presence of the live tokens; a ROUTE_RETURN a view row for each column, pass 1 before pass 2; a DISPATCH
the token rows of the records in its slot range, whose descriptors it keeps; a RETURN the expert outputs to the places of their records in the owner's view.
Model choices it uses: log entries 76 (DEDUCED), 110 (DEDUCED). -/
def Obligations.SwarmEntriesSend : Prop :=
  ∀ (s : State) (i : Fin 2) (p cycle x sl idx : Nat) (c : SwmCommon) (img : Image) (l : List Nat),
    let d := s.dev
    let a := l.getD 0 0
    let b := l.getD 1 0
    let f := frameNum d p
    let sends := fun (cmd : Instr) (ops : SwmOps) (unit parts : Nat) (reads : List (Nat × Nat)) (ds : Option (List SwmDesc))
      (ok : List SwmUnit → Prop) =>
      swmStarts d i.val p cycle c ops img x sl idx l → readsSound d p cycle reads → c.peer.node < 2048 → nodeNames d c.peer.node = true →
      ∃ t us due, exec cmd s = .next t ∧ ok us ∧ unitsSent d t.dev i.val p c unit parts us
        ∧ swmOf t.dev i.val = { swmOf d i.val with
          runs := (swmOf d i.val).runs ++ [⟨idx, .swm c ops, due, (0, 0), false, [], 0, 0, false⟩], descs := (swmOf t.dev i.val).descs }
        ∧ (∀ k, k ≠ i.val → swmOf t.dev k = swmOf d k)
        ∧ (∀ k, smGet (swmOf t.dev i.val).descs k = if k = idx ∧ ds.isSome = true then ds else smGet (swmOf d i.val).descs k)
        ∧ t = { s with dev := { d with regs := t.dev.regs, fab := t.dev.fab, swm := t.dev.swm } }
    let head := fun (u : List Byte) (kind fmt job col base flags : Nat) => leAt u 0 1 = kind ∧ leAt u 1 1 = fmt ∧ leAt u 2 2 = job % 65536
      ∧ leAt u 4 2 = f % 65536 ∧ leAt u 6 2 = col % 65536 ∧ leAt u 8 4 = base % 2 ^ 32 ∧ leAt u 0xC 1 = flags
    (∀ o : ScoreFeedOps,
      let w := scoreBytes o.scoreFmt.val
      let live := engLe d (a + o.liveOffset) 4
      sends (.scoreFeed i cycle c o) (.score o) (pWgl o.wglInstance.val) (ceilDiv (64 + 128 * w + (if c.indexed then 512 else 0)) 512)
        [(a + c.offsetA, (o.tokens - 1) * o.rowBytes + o.eCount * w), (a + o.liveOffset, if c.indexed then 32 + 4 * o.tokens else 4)] none
        fun us => us.length = o.eCount * (o.tokens / 128) ∧ ∀ e u, e < o.eCount → u < o.tokens / 128 →
          ∃ n, us[e * (o.tokens / 128) + u]? = some ⟨e * (o.tokens / 128) + u, n⟩
            ∧ n.length = 64 + 128 * w + (if c.indexed then 512 else 0)
            ∧ head n 0 o.scoreFmt.val o.jobId (o.eFirst + e) (o.self * o.tSrc + o.tokenFirst + 128 * u) (b2n c.indexed)
            ∧ (∀ q, q < 128 → bitAt (leAt n 0x20 16) q = decide (128 * u + q < live)
              ∧ sliceBytes n (0x40 + w * q) w = engBytes d (a + c.offsetA + (128 * u + q) * o.rowBytes + e * w) w)
            ∧ (c.indexed = true → sliceBytes n (0x40 + 128 * w) 512 = engBytes d (a + o.liveOffset + 32 + 512 * u) 512))
    ∧ (∀ o : RouteReturnOps,
      let base := a + c.offsetA
      sends (.routeReturn i cycle c o) (.route o) (pSwm i.val) (pRow (viewStride o.runMax)) [(base, selectBytes o.eCount o.cap o.sources)] none
        fun us => us.length = o.eCount ∧ ∀ e, e < o.eCount →
          let n := if o.srcNo < o.sources then selCount d base o.eCount o.cap o.sources e o.srcNo else (0, 0)
          let rs := sortBy (fun q r => decide (q.pass < r.pass) || (q.pass == r.pass && decide (q.slot < r.slot)))
            ((selColumn d base o.cap e).filter fun r => r.valid && r.source == o.srcNo)
          ∃ m, us[e]? = some ⟨o.eFirst + e - o.viewEFirst, m⟩ ∧ m.length = 32 + 16 * (n.1 + n.2)
            ∧ leAt m 0 2 = n.1 ∧ leAt m 2 2 = n.2 ∧ leAt m 4 2 = (o.eFirst + e) % 65536
            ∧ ∀ k r, k < n.1 + n.2 → rs[k]? = some r → sliceBytes m (32 + 16 * k) 16 = engBytes d (base + 16 * (o.cap * e + r.j)) 16)
    ∧ (∀ o : MoveOps,
      let view := b + c.offsetB
      let first := o.eFirst - o.viewEFirst
      let rows := (List.range o.eCount).map fun r => viewRow d view (first + r) o.runMax
      let rs := rows.flatMap fun v => v.recs.filter fun r => r.valid && decide (o.slotFirst ≤ r.slot) && decide (r.slot < o.slotFirst + o.slotCount)
      let at_ := fun (r : RouteRec) => a + c.offsetA + (r.token - o.self * o.tSrc) * o.rowBytes
      (∀ v ∈ rows, viewBad v o.runMax o.self (imageCap img) = false) → (∀ r ∈ rs, o.self * o.tSrc ≤ r.token) →
      (∀ r ∈ rs, c.offsetA + (r.token - o.self * o.tSrc + 1) * o.rowBytes ≤ poolBytes (hPool (((refOf d p img sl c.bufA).map Prod.fst).getD 0))) →
      rdB d (pPart p) Reg.CTL_TRACE_STATUS 2 = false →
      sends (.dispatch i cycle c o) (.dispatch o) (pSwm i.val) (pRow o.rowBytes) (viewReads d view first o.eCount o.runMax ++ rs.map fun r => (at_ r, o.rowBytes))
        (some (rs.zipIdx.map fun q => ⟨q.1.token - o.self * o.tSrc, (q.1.expert - o.eFirst) * o.slotCount + (q.1.slot - o.slotFirst), q.1.expert, q.1.slot,
          if c.peer.node = myNode d then 2 else q.2 % bundleSize d c.peer.node, q.1.pass, q.2⟩))
        fun us => us = rs.map fun r => ⟨(r.expert - o.eFirst) * o.slotCount + (r.slot - o.slotFirst), engBytes d (at_ r) o.rowBytes⟩)
    ∧ (∀ o : MoveOps,
      let base := b + c.offsetB
      let count := fun (e k : Nat) => selCount d base o.eCount o.cap o.sources e k
      let rs := (List.range o.eCount).flatMap fun e => ((selColumn d base o.cap e).filter fun r =>
        r.valid && r.source == o.self && decide (o.slotFirst ≤ r.slot) && decide (r.slot < o.slotFirst + o.slotCount)).map fun r => (e, r)
      let below := fun (e n : Nat) (pass2 : Bool) => ((List.range n).map fun k => if pass2 then (count e k).2 else (count e k).1).foldl (· + ·) 0
      let place := fun (e : Nat) (r : RouteRec) => if r.pass = 0 then r.slot - below e o.self false
        else (count e o.self).1 + r.slot - below e o.sources false - below e o.self true
      let at_ := fun (e : Nat) (r : RouteRec) => a + c.offsetA + (e * o.slotCount + (r.slot - o.slotFirst)) * o.rowBytes
      o.self < o.sources → (∀ q ∈ rs, q.2.slot < o.cap ∧ q.2.expert = o.eFirst + q.1) →
      sends (.returnRows i cycle c o) (.ret o) (pSwm i.val) (pRow o.rowBytes)
        ((base, selectBytes o.eCount o.cap o.sources) :: rs.map fun q => (at_ q.1 q.2, o.rowBytes)) none
        fun us => us = rs.map fun q => ⟨(q.2.expert - o.viewEFirst) * o.runMax + place q.1 q.2, engBytes d (at_ q.1 q.2) o.rowBytes⟩)

/-- R208: a BITMAP_FEED that starts sends BITS / 4,096 bitmap blocks of KIND BKIND to Waggle engine WGL_INSTANCE on PEER; block v carries the bits from
4,096v on, TOKEN_BASE + 4,096v, and as its COLUMN HOME for BKIND 1 and 0 for BKIND 2. -/
def Obligations.BitmapFeedSendsItsBlocks : Prop :=
  ∀ (s : State) (i : Fin 2) (p cycle x sl idx : Nat) (c : SwmCommon) (o : BitmapFeedOps) (img : Image) (l : List Nat),
    let d := s.dev
    let a := l.getD 0 0
    swmStarts d i.val p cycle c (.bitmap o) img x sl idx l → readsSound d p cycle [(a + c.offsetA, o.bits / 8)] →
    c.peer.node < 2048 → nodeNames d c.peer.node = true →
    ∃ t us due, exec (.bitmapFeed i cycle c o) s = .next t
      ∧ us.length = o.bits / 4096
      ∧ (∀ v, v < o.bits / 4096 → ∃ n, us[v]? = some ⟨v, n⟩ ∧ n.length = 544 ∧ leAt n 0 1 = o.bkind.val ∧ leAt n 1 1 = 0 ∧ leAt n 2 2 = o.jobId % 65536
        ∧ leAt n 4 2 = frameNum d p % 65536 ∧ (o.bkind.val = 1 → leAt n 6 2 = o.home % 65536) ∧ (o.bkind.val = 2 → leAt n 6 2 = 0)
        ∧ leAt n 8 4 = (o.tokenBase + 4096 * v) % 2 ^ 32 ∧ leAt n 0xC 1 = 0 ∧ sliceBytes n 32 512 = engBytes d (a + c.offsetA + 512 * v) 512)
      ∧ unitsSent d t.dev i.val p c (pWgl o.wglInstance.val) 2 us
      ∧ swmRuns d t.dev i.val ⟨idx, .swm c (.bitmap o), due, (0, 0), false, [], 0, 0, false⟩
      ∧ t = { s with dev := { d with regs := t.dev.regs, fab := t.dev.fab, swm := t.dev.swm } }

/-- R200, R210, R213, R218, R219, R224, R225: a LAND that starts gives its units their places and writes a part that came before it; a LIVE_TABLE forms
the live-row counts of its experts' tiles; a COMBINE forms each token's row from the K_MAX records with the highest keys, in ascending expert; both
take the time of their rule and write when they complete. An entry whose buffers fail a check writes nothing and stops its engine, and so does one that
sends to a node that names no device (R305).
Model choices it uses: log entries 33 (DEDUCED), 38 (DESIGN CHOICE), 76 (DEDUCED), 108 (DESIGN CHOICE), 110 (DEDUCED). -/
def Obligations.SwarmEntriesStart : Prop :=
  ∀ (s : State) (i : Fin 2) (p cycle x sl idx : Nat) (c : SwmCommon) (img : Image) (l : List Nat),
    let d := s.dev
    let a := l.getD 0 0
    let b := l.getD 1 0
    let starts := fun (ops : SwmOps) => swmStarts d i.val p cycle c ops img x sl idx l
    (∀ o : LandOps, starts (.land o) →
      let g := smGetD (Landing.new idx) (swmOf d i.val).lands idx
      let at_ := fun (n : Nat) => a + c.offsetA + n / pRow o.rowBytes * o.rowBytes + 512 * (n % pRow o.rowBytes)
      let begun := fun (t : State) =>
        (swmOf t.dev i.val).runs = (swmOf d i.val).runs ++ [⟨idx, .swm c (.land o), cycle, (0, 0), false, [], 0, 0, false⟩]
          ∧ smGet (swmOf t.dev i.val).lands idx = some { g with base := some a, src := b }
          ∧ (∀ k, k ≠ idx → smGet (swmOf t.dev i.val).lands k = smGet (swmOf d i.val).lands k) ∧ ∀ k, k ≠ i.val → swmOf t.dev k = swmOf d k
      (g.parts = [] → ∃ t, exec (.land i cycle c o) s = .next t ∧ begun t ∧ t = { s with dev := { d with swm := t.dev.swm } })
      ∧ ∀ n bytes, g.parts = [(n, bytes)] → lands d (at_ n) bytes.length →
        ∃ t, exec (.land i cycle c o) s = .next t ∧ begun t ∧ readBytes t.dev (at_ n) bytes.length = bytes ∧ memBut (at_ n) bytes.length d t.dev
          ∧ t = { s with dev := { d with mem := t.dev.mem, parts := t.dev.parts, combs := t.dev.combs, swm := t.dev.swm } })
    ∧ (∀ o : LiveTableOps, starts (.live o) →
      let base := a + c.offsetA
      let tiles := ceilDiv o.cap 128
      let filled := fun (e : Nat) => ((List.range o.sources).map fun k =>
        (selCount d base o.eCount o.cap o.sources e k).1 + (selCount d base o.eCount o.cap o.sources e k).2).foldl (· + ·) 0
      let due := cycle + 64 + ceilDiv (o.eCount * o.sources) 16 - 1
      readsSound d p cycle [(base, selectBytes o.eCount o.cap o.sources)] →
      ((∀ e, e < o.eCount → filled e ≤ o.cap) →
        ∃ t bytes, exec (.liveTable i cycle c o) s = .next t
          ∧ swmRuns d t.dev i.val ⟨idx, .swm c (.live o), due, (0, 0), false, [(b + c.offsetB, bytes)], 0, 0, false⟩
          ∧ bytes.length = 4 * o.eCount * tiles
          ∧ (∀ e u, e < o.eCount → u < tiles → leAt bytes (4 * (e * tiles + u)) 4 = min 128 (filled e - 128 * u))
          ∧ t = { s with dev := { d with swm := t.dev.swm } })
      ∧ ((∃ e, e < o.eCount ∧ o.cap < filled e) →
        ∃ t, exec (.liveTable i cycle c o) s = .next t ∧ (swmOf t.dev i.val).runs = (swmOf d i.val).runs ++ [⟨idx, .swm c (.live o), due, (0, 0), false, [], 0, 0, true⟩]
          ∧ occurred d t.dev (pSwm i.val) Reg.SWM_EVENTS 6 (Reg.SWM_EVT_LAND_DROP + 4 * 6) ∧ killFiled d t.dev p 2 ∧ pSwm i.val ∈ (partOf t.dev p).testEng ∧ t.dev.mem = d.mem))
    ∧ (∀ o : CombineOps, starts (.combine o) →
      let g := paramOf img o.param
      let view := l.getD 2 0
      let rows := (List.range o.viewECount).map fun r => viewRow d view r o.runMax
      let recs := fun (t : Nat) => (rows.flatMap ViewRow.recs).filter fun r => r.valid && r.token == o.self * o.tSrc + t
      let before := fun (q r : RouteRec) => decide (scoreKey r.score < scoreKey q.score) || (scoreKey q.score == scoreKey r.score && decide (q.expert < r.expert))
      let sRet := rowStride o.hidden o.retFmt.val
      let sRes := rowStride o.hidden o.resFmt.val
      let per := rowScales o.hidden g.group
      let term := fun (r : RouteRec) => ((if o.gateMode.val = 0 then (.fin false 1 0 : Sys2Proof.Machine.Num) else decodeNum fp32 r.score),
        engBytes d (a + c.offsetA + ((r.expert - o.viewEFirst) * o.runMax + r.j) * sRet) sRet, o.retFmt.val)
      let res := fun (t : Nat) => if o.resid then some (engBytes d (l.getD 3 0 + t * sRes) sRes, o.resFmt.val) else none
      let draw := fun (t h : Nat) => srBits (g.key + BitVec.ofNat 64 (t / 128 * 65536 + h / 128)) x (t % 128) (h % 128)
      (∀ v ∈ rows, viewBad v o.runMax o.self (imageCap img) = false) → readsSound d p cycle (runCombine d img x c o a b view (l.getD 3 0)).2.2.2 →
      ∃ t r, exec (.combine i cycle c o) s = .next t ∧ swmRuns d t.dev i.val r
        ∧ r.id = idx ∧ r.what = .swm c (.combine o) ∧ r.why = (0, 0) ∧ r.fin = false ∧ r.bound = false ∧ r.rows = o.tokenCount
        ∧ r.due = cycle + (64 + ceilDiv (o.viewECount * o.runMax) 64 + ceilDiv (o.tokenCount * (o.kMax + b2n o.resid) * o.hidden) 512) - 1
        ∧ r.dropped = ((List.range o.tokenCount).map fun k => (recs (o.tokenFirst + k)).length - o.kMax).foldl (· + ·) 0
        ∧ (∀ k, k < o.tokenCount → ∃ kept : List RouteRec, kept.Pairwise (fun q r => q.expert ≤ r.expert)
          ∧ (((recs (o.tokenFirst + k)).map RouteRec.expert).Nodup → ∀ q, q ∈ kept ↔
              q ∈ recs (o.tokenFirst + k) ∧ ((recs (o.tokenFirst + k)).filter fun y => before y q).length < o.kMax)
          ∧ let row := outputRow g o.stoch (draw (o.tokenFirst + k)) (combineSums o.hidden (res (o.tokenFirst + k)) (kept.map term))
            let stride := rowStride o.hidden g.outFmt
            r.out[k]? = some (b + c.offsetB + k * stride, row.1)
              ∧ (per ≠ 0 → r.out[o.tokenCount + k]? = some (b + c.offsetB + o.tokenCount * stride + 2 * k * per, row.2)))
        ∧ t = { s with dev := { d with swm := t.dev.swm } })
    ∧ (∀ o : ScoreFeedOps, starts (.score o) → nodeNames d c.peer.node = false →
      ∃ t, exec (.scoreFeed i cycle c o) s = .next t ∧ (swmOf t.dev i.val).stopped = true ∧ (swmOf t.dev i.val).runs = (swmOf d i.val).runs
        ∧ (rdB d (pSwm i.val) Reg.SWM_ENTRY_ERR 4 = false → rdF t.dev (pSwm i.val) Reg.SWM_ENTRY_ERR 3 0 = 2)
        ∧ occurred d t.dev pDev Reg.BOL_EVENTS 4 Reg.BOL_EVT_HDR_DROP ∧ advanced d t.dev pDev Reg.BOL_HDR_DROPPED 1
        ∧ t = { s with dev := { d with regs := t.dev.regs, swm := t.dev.swm } })
    ∧ ∀ (cmd : Instr) (ops : SwmOps) (code sub : Nat) (bad : Option (Nat × Bool)),
      (∃ o, cmd = .land i cycle c o ∧ ops = .land o) ∨ (∃ o, cmd = .combine i cycle c o ∧ ops = .combine o)
        ∨ (∃ o, cmd = .liveTable i cycle c o ∧ ops = .live o) ∨ (∃ o, cmd = .scoreFeed i cycle c o ∧ ops = .score o) →
      engineImage d (pSwm i.val) = some (p, x, img, sl) → freshEntry d i.val img sl (.swm c ops) = some idx →
      swmReady d i.val p cycle img sl idx (.swm c ops) ((swmNeeds img c ops).map BufNeed.ref) →
      checkNeeds d p img sl (swmNeeds img c ops) [] = .error (code, sub, bad) →
      ∃ t, exec cmd s = .next t ∧ (swmOf t.dev i.val).stopped = true ∧ (swmOf t.dev i.val).runs = (swmOf d i.val).runs
        ∧ rdB t.dev (pSwm i.val) Reg.SWM_ENTRY_ERR 4 = true
        ∧ (rdB d (pSwm i.val) Reg.SWM_ENTRY_ERR 4 = false → code < 16 → rdF t.dev (pSwm i.val) Reg.SWM_ENTRY_ERR 3 0 = code)
        ∧ occurred d t.dev (pSwm i.val) Reg.SWM_EVENTS 7 (Reg.SWM_EVT_LAND_DROP + 4 * 7)
        ∧ t = { s with dev := { d with regs := t.dev.regs, swm := t.dev.swm } }

/-- R203, R205, R206, R213 to R215, R221, R224: an arriving packet of the frame is kept with its LAND and written to its place; one that a check of
Table 08-10 fails is dropped with the code, a copy that differs kills the frame, and a span-mode packet is staged for its source while its staging has
room. A LAND completes in the cycle after what it expects has landed, any other entry in its completion cycle, with its output written and its tag
advanced; in any other cycle, and past the cut, nothing happens. A vote of another member is recorded once, and one whose PREV differs from this
member's outcome is a split.
Model choices it uses: log entries 32 (DEDUCED), 34 (DEDUCED), 35 (DEDUCED), 76 (DEDUCED), 110 (DEDUCED). -/
def Obligations.SwarmEntriesLandAndComplete : Prop :=
  ∀ (s : State),
    let d := s.dev
    (∀ (i : Fin 2) (p x sl : Nat) (img : Image),
      engineImage d (pSwm i.val) = some (p, x, img, sl) → stateIs d (pSwm i.val) .resetting = false →
      (∀ k : LandPkt, k.tag < 0x8000 → k.staged = false →
        let drops := fun (code : Nat) => ∃ t, exec (.landPacketArrival i k) s = .next t ∧ packetDropped d t.dev i.val code k.tag ∧ t.dev.mem = d.mem
          ∧ t.dev.swm = d.swm
        ((k.frame ≠ frameNum d p ∨ frameOver d p = true) → drops 1)
        ∧ (k.frame = frameNum d p → frameOver d p = false →
          (landOf img sl i.val k.tag = none → drops 2)
          ∧ ∀ idx c o, landOf img sl i.val k.tag = some (idx, c, o) →
            let g := smGetD (Landing.new idx) (swmOf d i.val).lands idx
            let w := pRow o.rowBytes
            let fits := k.block / w < o.rows ∧ 512 * (k.block % w) + k.payload.length ≤ o.rowBytes
            let at_ := fun (base : Nat) => base + c.offsetA + k.block / w * o.rowBytes + 512 * (k.block % w)
            (¬ fits → drops 3)
            ∧ (∀ old, fits → smGet g.parts k.block = some old → drops 4
              ∧ (old ≠ k.payload → ∃ t, exec (.landPacketArrival i k) s = .next t ∧ killFiled d t.dev p 2 ∧ rdB t.dev (pSwm i.val) Reg.SWM_EVENTS 1 = true))
            ∧ (fits → smGet g.parts k.block = none →
              (c.delivery.val = 1 → img.exch.contains k.src = false → drops 5)
              ∧ ((c.delivery.val = 1 → img.exch.contains k.src = true) → (∀ base, g.base = some base → lands d (at_ base) k.payload.length) →
                o.expect.val ≠ 1 →
                let full := rowFull o (smPut g.parts k.block k.payload) (k.block / w) && !g.full.contains (k.block / w)
                ∃ t, exec (.landPacketArrival i k) s = .next t
                  ∧ smGet (swmOf t.dev i.val).lands idx = some { g with
                    parts := smPut g.parts k.block k.payload, peer := some k.src.node, full := if full then g.full ++ [k.block / w] else g.full
                    last := max g.last k.cycle }
                  ∧ (∀ q, q ≠ idx → smGet (swmOf t.dev i.val).lands q = smGet (swmOf d i.val).lands q)
                  ∧ (swmOf t.dev i.val).runs = (swmOf d i.val).runs ∧ (∀ q, q ≠ i.val → swmOf t.dev q = swmOf d q)
                  ∧ (∀ base, g.base = some base → readBytes t.dev (at_ base) k.payload.length = k.payload ∧ memBut (at_ base) k.payload.length d t.dev)
                  ∧ (g.base = none → t.dev.mem = d.mem)
                  ∧ (full = true → advanced d t.dev (pSwm i.val) Reg.SWM_UNITS_LANDED 1) ∧ (full = false → t.dev.regs = d.regs)
                  ∧ t = { s with dev := { d with
                    regs := t.dev.regs, mem := t.dev.mem, parts := t.dev.parts, combs := t.dev.combs, swm := t.dev.swm } }
                  ∧ regsBut [(pSwm i.val, Reg.SWM_UNITS_LANDED)] d t.dev))))
      ∧ (∀ k : LandPkt, k.tag < 0x8000 → k.staged = true →
        let drops := fun (code : Nat) => ∃ t, exec (.landPacketArrival i k) s = .next t ∧ packetDropped d t.dev i.val code k.tag ∧ t.dev.mem = d.mem
          ∧ t.dev.rmt = d.rmt
        ((stagedLand d p k.tag k.src = none ∨ commitSource d p k.src = false) → drops 2)
        ∧ ∀ jm c o, stagedLand d p k.tag k.src = some (jm, c, o) → commitSource d p k.src = true →
          let w := pRow o.rowBytes
          let fits := k.block / w < o.rows ∧ 512 * (k.block % w) + k.payload.length ≤ o.rowBytes
          let had := stagedParts d p k.tag k.src k.frame
          let used := ((d.rmt.staging.filter fun q => q.part == p && decide (q.src = k.src)).map stagedBytes).foldl (· + ·) 0
          (¬ fits → drops 3)
          ∧ (∀ old, fits → smGet had k.block = some old → drops 4
            ∧ (old ≠ k.payload → ∃ t, exec (.landPacketArrival i k) s = .next t ∧ killFiled d t.dev p 2 ∧ rdB t.dev (pSwm i.val) Reg.SWM_EVENTS 1 = true))
          ∧ (fits → smGet had k.block = none → stagingFor d p k.src < used + k.payload.length →
            ∃ t, exec (.landPacketArrival i k) s = .next t ∧ occurred d t.dev (pPart p) Reg.CTL_RMT_EVENTS 2 Reg.CTL_EVT_STAGE_FULL
              ∧ t = { s with dev := { d with regs := t.dev.regs } })
          ∧ (fits → smGet had k.block = none → used + k.payload.length ≤ stagingFor d p k.src → o.expect.val ≠ 1 →
            let q : StagedOp := ⟨p, k.src, k.frame, k.pairCount, 0, .unit k.tag k.block k.payload⟩
            let full := rowFull o (stagedParts { d with rmt := { d.rmt with staging := d.rmt.staging ++ [q] } } p k.tag k.src k.frame) (k.block / w)
            ∃ t, exec (.landPacketArrival i k) s = .next t ∧ t.dev.rmt = { d.rmt with staging := d.rmt.staging ++ [q] }
              ∧ advanced d t.dev (pPart p) Reg.CTL_RMT_STAGED_BYTES k.payload.length
              ∧ (full = true → advanced d t.dev (pSwm i.val) Reg.SWM_UNITS_LANDED 1)
              ∧ (full = false → rdN t.dev (pSwm i.val) Reg.SWM_UNITS_LANDED = rdN d (pSwm i.val) Reg.SWM_UNITS_LANDED)
              ∧ (swmOf t.dev i.val).runs = (swmOf d i.val).runs
              ∧ (∀ idx, landOf img sl i.val k.tag = none ∨ (landOf img sl i.val k.tag).map Prod.fst ≠ some idx →
                smGet (swmOf t.dev i.val).lands idx = smGet (swmOf d i.val).lands idx)
              ∧ (∀ idx c' o', landOf img sl i.val k.tag = some (idx, c', o') → smGet (swmOf t.dev i.val).lands idx
                = some { smGetD (Landing.new idx) (swmOf d i.val).lands idx with peer := some k.src.node, last := k.cycle })
              ∧ t = { s with dev := { d with regs := t.dev.regs, rmt := t.dev.rmt, swm := t.dev.swm } }
              ∧ regsBut [(pPart p, Reg.CTL_RMT_STAGED_BYTES), (pSwm i.val, Reg.SWM_UNITS_LANDED)] d t.dev))
      ∧ (∀ idx cycle r c o, (swmOf d i.val).runs.find? (fun r => r.id == idx && !r.fin) = some r → r.what = .swm c (.land o) →
        let g := landSeen d p c (smGetD (Landing.new idx) (swmOf d i.val).lands idx)
        let cap := imageCap img
        let now := landedAll d cap c o g = true ∧ cycle = max r.due g.last + 1 ∧ cycle ≤ cutCycle d p ∧ (partOf d p).cutTaken = false
        (¬ now → exec (.landComplete i idx cycle) s = .next s)
        ∧ (now → landBad d cap c o g = 0 →
          ∃ t, exec (.landComplete i idx cycle) s = .next t ∧ swmDoneRun d t.dev i.val p r cycle ∧ t.dev.mem = d.mem
            ∧ t = { s with dev := { d with regs := t.dev.regs, pins := t.dev.pins, cells := t.dev.cells, swm := t.dev.swm } })
        ∧ (now → landBad d cap c o g ≠ 0 →
          ∃ t, exec (.landComplete i idx cycle) s = .next t ∧ swmDoneRun d t.dev i.val p r cycle ∧ t.dev.mem = d.mem
            ∧ killFiled d t.dev p 2 ∧ rdB t.dev (pSwm i.val) Reg.SWM_EVENTS 6 = true ∧ pSwm i.val ∈ (partOf t.dev p).testEng))
      ∧ (∀ idx cycle r, (swmOf d i.val).runs.find? (fun r => r.id == idx && !r.fin) = some r → (∀ c o, r.what ≠ .swm c (.land o)) →
        let now := cycle = r.due ∧ cycle ≤ cutCycle d p ∧ (partOf d p).cutTaken = false
        (¬ now → exec (.swarmEntryComplete i idx cycle) s = .next s)
        ∧ (now → (∀ q ∈ r.out, lands d q.1 q.2.length) → r.out.Pairwise (fun q y => q.1 + q.2.length ≤ y.1 ∨ y.1 + y.2.length ≤ q.1) →
          ∃ t, exec (.swarmEntryComplete i idx cycle) s = .next t ∧ swmDoneRun d t.dev i.val p r r.due
            ∧ (∀ q ∈ r.out, readBytes t.dev q.1 q.2.length = q.2)
            ∧ (∀ a, (∀ q ∈ r.out, a < q.1 ∨ q.1 + q.2.length ≤ a) → readByte t.dev a = readByte d a)
            ∧ (∀ c o, r.what = .swm c (.combine o) → advanced d t.dev (pSwm i.val) Reg.SWM_ROWS_COMBINED r.rows
              ∧ advanced d t.dev (pSwm i.val) Reg.SWM_COMBINE_DROPPED r.dropped
              ∧ (0 < r.dropped → occurred d t.dev (pSwm i.val) Reg.SWM_EVENTS 5 (Reg.SWM_EVT_LAND_DROP + 4 * 5)))
            ∧ (∀ o, r.what = .col false o → advanced d t.dev (pSwm i.val) Reg.SWM_COL_FOLDS 1)
            ∧ t = { s with dev := { d with regs := t.dev.regs, mem := t.dev.mem, pins := t.dev.pins, parts := t.dev.parts, cells := t.dev.cells
                                           combs := t.dev.combs, swm := t.dev.swm } })))
    ∧ ∀ (q : Fin 16) (v : Vote) (y z w : Nat) (im : Image), runImage d q.val = some (y, z, im, w) → stateIs d (pSwm (voteEngine d q.val)) .resetting = false →
      v.group = im.exchGroup → v.member.val < im.exch.length → v.member.val ≠ im.self →
      let g := grpOf d q.val
      let seen := g.votes.any fun x => x.1 == v.frame && x.2.1 == v.member.val
      let split := match g.outcome with
        | some (f, c) => (f + 1) % 65536 = v.frame ∧ v.prev ≠ c
        | none => False
      (seen = true → exec (.voteArrival q v) s = .next s)
      ∧ (seen = false → ∃ t, exec (.voteArrival q v) s = .next t
        ∧ (grpOf t.dev q.val).votes = g.votes ++ [(v.frame, v.member.val, v.commit)]
        ∧ (split → (grpOf t.dev q.val).split = some (v.frame, ((im.exch[v.member.val]?).map Peer.node).getD 0)
          ∧ occurred d t.dev (pSwm (voteEngine d q.val)) Reg.SWM_EVENTS 4 (Reg.SWM_EVT_LAND_DROP + 4 * 4))
        ∧ (¬ split → (grpOf t.dev q.val).split = g.split ∧ t.dev.regs = d.regs)
        ∧ (∀ k, k ≠ q.val → grpOf t.dev k = grpOf d k) ∧ t = { s with dev := { d with regs := t.dev.regs, groups := t.dev.groups } })

/-! ## Collectives -/

/-- R358, R360, R363 to R367, R371: a COL_SEND sends a block to each peer of its level in ascending rank, the peer's shard in a REDUCE and its own data
otherwise; a COL_FOLD combines the contributions of each element in ascending rank, or joins the blocks in rank order. A packet of a bound group joins
its block and is written to the staging. A block for a node that names no device stops the engine. Between pods a trailer counts a source's packets, what is missing is asked for again and sent again, and the agent asks after a source.
Model choices it uses: log entries 77 (DEDUCED), 108 (DESIGN CHOICE), 113 (DEDUCED). -/
def Obligations.CollectivesCombine : Prop :=
  ∀ (s : State) (i : Fin 2),
    let d := s.dev
    let u := pSwm i.val
    let at_ := fun (p cycle : Nat) (img : Image) (sl idx : Nat) (what : SlotKind) (needs : List BufNeed) (l : List Nat) =>
      freshEntry d i.val img sl what = some idx ∧ swmReady d i.val p cycle img sl idx what (needs.map BufNeed.ref) ∧ checkNeeds d p img sl needs [] = .ok l
    let stages := fun (p : Nat) (g : ColGeo) (r : List Nat) (f n : Nat) (l : List Byte) (e : Dev) => match stageAddr d p g r f with
      | some a => readBytes e (a + 512 * n) l.length = l ∧ memBut (a + 512 * n) l.length d e
      | none => e.mem = d.mem
    let open_ := fun (p : Nat) (g : ColGeo) (r : List Nat) (f n m : Nat) => ∀ a, stageAddr d p g r f = some a → lands d (a + 512 * n) m
    (∀ (cycle idx : Nat) (x : ColOps) (v : ColEnv) (g0 : ColGeo) (l : List Nat),
      colEnv d i.val x.localId = some v → geoOf d v.box x [] = some g0 →
      at_ v.p cycle v.img v.sl idx (.col true x) (⟨x.bufA, x.offsetA, g0.sourceBytes, false, false⟩ :: countsNeed v.box x) l →
      let a := l.getD 0 0 + x.offsetA
      let g := { g0 with counts := memberCounts d v.box l[1]? x }
      readsSound d v.p cycle ((a, g.sourceBytes) :: (countsNeed v.box x).map fun n => (l.getD 1 0 + n.off, n.bytes)) → (∀ n ∈ g.counts, n ≤ x.count) →
      (∀ m ∈ g.mates, nodeNames d (v.box.place m).1 = true) →
      let src := engBytes d a g.sourceBytes
      let ph := x.phase.val
      let blk := fun (m : List Nat) => (g.block (paramOf v.img x.param).key v.x src m).1
      let others := g.mates.filter fun m => m != g.me
      let want := others.flatMap fun m => (splitPayload (blk m)).zipIdx.map fun q =>
        (mkPlace (v.box.place m).2 (v.box.place m).1 u, 0x8000 + v.gid + 65536 * (ph * 2 ^ 20 + q.2), q.1.2)
      let mine := fun (t : State) (own : ColBlk) => t.dev.col.blks = d.col.blks ++ [own] ∧ own.gid = v.gid ∧ own.phase = ph ∧ own.node = myNode d
        ∧ own.pod = myPod d ∧ own.frame = frameNum d v.p ∧ own.staged = decide (x.delivery.val = 2) ∧ (own.ready = none ↔ x.delivery.val = 2)
        ∧ (g.me ∈ g.mates → own.pkts.flatMap (fun q => q.2) = blk g.me)
      let fold := (foldOf v.img x.localId ph).bind fun e => geoOf d v.box e.2 g.counts
      let own := if g.me ∈ g.mates then blk g.me else []
      (∀ h, fold = some h → open_ v.p h h.me (frameNum d v.p) 0 own.length) →
      let kept := fun (t : State) => match fold with
        | some h => if own = [] then t.dev.mem = d.mem else stages v.p h h.me (frameNum d v.p) 0 own t.dev
        | none => t.dev.mem = d.mem
      let form := fun (k : Pkt) => k.type = 0 ∧ k.cls = 0 ∧ k.src = myPlace d + u ∧ k.spart = v.p ∧ k.dpart = v.box.part ∧ k.frame = frameNum d v.p
      let runs := fun (t : State) => ∃ due, swmRuns d t.dev i.val ⟨idx, .col true x, due, (0, 0), false, [], 0, 0, false⟩
      (isReduce ph = true → g.level = 0 → ∀ m,
        blk m = let seg := segAfter x.count v.box.sizes g.me 0
          let own := segAfter x.count v.box.sizes m 1
          let code := if g.firstReduce then x.inFmt.val else 7
          sliceBytes src ((own.1 - seg.1) * fmtBytes code) (own.2 * fmtBytes code))
      ∧ (isReduce ph = false → ∀ m, blk m = src)
      ∧ ((∀ m ∈ others, (v.box.place m).2 = myPod d ∧ reachable d (v.box.place m).1) →
        ∃ t qs own, exec (.colSend i cycle x) s = .next t ∧ entered d t.dev qs ∧ (qs.map fun q => (q.pkt.dest, q.pkt.addr, q.pkt.payload)) = want
          ∧ (∀ q ∈ qs, form q.pkt) ∧ mine t own ∧ kept t ∧ runs t ∧ advanced d t.dev u Reg.SWM_UNITS_SENT want.length
          ∧ t = { s with dev := { d with regs := t.dev.regs, mem := t.dev.mem, combs := t.dev.combs, fab := t.dev.fab, swm := t.dev.swm
                                         col := t.dev.col } }
          ∧ regsBut [(u, Reg.SWM_UNITS_SENT), (u, Reg.SWM_BYTES_SENT), (u, Reg.SWM_COL_BYTES), (u, Reg.SWM_COL_EVENTS), (u, Reg.SWM_EVT_COL_LATE + 4)] d t.dev)
      ∧ (g.level = 3 → ethUp d ≠ [] → (∀ m ∈ others, (v.box.place m).2 ≠ myPod d ∧ (v.box.place m).2 < 256 ∧ (v.box.place m).1 < 2048) →
        ∃ (t : State) (ks : List Datagram) (own : ColBlk), exec (.colSend i cycle x) s = .next t ∧ t.dev.fab = { d.fab with datagrams := d.fab.datagrams ++ ks }
          ∧ (ks.map fun k => (k.pkt.dest, k.pkt.addr, k.pkt.payload)) = want ∧ (∀ k ∈ ks, form k.pkt ∧ k.port ∈ ethUp d) ∧ mine t own ∧ kept t
          ∧ runs t
          ∧ (t.dev.col.sent.drop d.col.sent.length).map (fun q => (q.gid, q.phase, q.frame, q.part, q.to_, q.pkts.flatMap fun e => e.2))
              = others.map (fun m => (v.gid, ph, frameNum d v.p, v.p, mkPlace (v.box.place m).2 (v.box.place m).1 u, blk m))))
    ∧ (∀ (cycle idx : Nat) (x : ColOps) (v : ColEnv) (g0 : ColGeo) (l : List Nat), colEnv d i.val x.localId = some v → geoOf d v.box x [] = some g0 →
      at_ v.p cycle v.img v.sl idx (.col true x) (⟨x.bufA, x.offsetA, g0.sourceBytes, false, false⟩ :: countsNeed v.box x) l →
      (∃ m ∈ g0.mates, nodeNames d (v.box.place m).1 = false) →
      ∃ t, exec (.colSend i cycle x) s = .next t ∧ (swmOf t.dev i.val).stopped = true ∧ (swmOf t.dev i.val).runs = (swmOf d i.val).runs
        ∧ occurred d t.dev pDev Reg.BOL_EVENTS 4 Reg.BOL_EVT_HDR_DROP ∧ t = { s with dev := { d with regs := t.dev.regs, swm := t.dev.swm } })
    ∧ (∀ (cycle idx : Nat) (x : ColOps) (v : ColEnv) (g0 : ColGeo) (l : List Nat) (bs : List (List Nat × List Byte × Nat)),
      colEnv d i.val x.localId = some v → geoOf d v.box x [] = some g0 →
      let ph := x.phase.val
      let own := g0.ownBytes
      let io := g0.foldBytes
      at_ v.p cycle v.img v.sl idx (.col false x) (⟨x.bufB, x.offsetB, io.2, true, false⟩
        :: (if ph = 1 then [⟨x.bufA, x.offsetA, own, false, false⟩] else []) ++ countsNeed v.box x) l →
      foldBlocks d v g0 = some bs → (∀ b ∈ bs, b.2.2 = 0 ∨ timeCycle d v.p b.2.2 + 1 ≤ cycle) →
      (∀ b ∈ bs, b.1 ≠ g0.me → b.2.2 ≤ smGetD (cycleTime d v.p x.startCycle) d.col.first (i.val * 65536 + idx)) →
      let a := l.getD 1 0 + x.offsetA
      readsSound d v.p cycle ((if ph = 1 then [(a, own)] else []) ++ ((countsNeed v.box x).map fun n => (l.getD 1 0 + n.off, n.bytes)) ++ stageReads d v g0) →
      let g := { g0 with counts := memberCounts d v.box (if x.op.val = 4 ∧ isSpread ph then l[1]? else none) x }
      (∀ n ∈ g.counts, n ≤ x.count) → (x.op.val = 4 → isSpread ph = true → ∀ b ∈ bs, b.2.1.length = g.blockBytes b.1 g.me) →
      let seg := segAfter x.count v.box.sizes g.me (g.level + 1)
      let part := fun (b : List Nat × List Byte × Nat) =>
        if g.level = 0 then plainNums x.inFmt.val seg.2 (if b.1 = g.me then (if ph = 1 then engBytes d a own else []) else b.2.1)
        else unnarrow x.wire.val seg.2 b.2.1
      let acc := fun (e : Nat) => reduceElem x.redop.val (bs.map fun b => (part b).getD e .zero)
      let whole := decide (x.op.val = 2) || g.onlyX
      ∃ t o sat, exec (.colFold i cycle x) s = .next t
        ∧ swmRuns d t.dev i.val ⟨idx, .col false x, cycle + 64 + ceilDiv io.1 512 + ceilDiv io.2 512 - 1, (0, 0), false, [(l.getD 0 0 + x.offsetB, o)], 0, 0, false⟩
        ∧ (isReduce ph = true → g.level < g.lastLevel → o.length = 4 * seg.2 ∧ ∀ e, e < seg.2 → leAt o (4 * e) 4 = (acc e).toNat)
        ∧ (isReduce ph = true → g.lastLevel ≤ g.level → whole = true →
            o = toOutFmt x.outFmt.val ((List.range seg.2).map fun e => decodeNum fp32 (acc e).toNat))
        ∧ (isReduce ph = true → g.lastLevel ≤ g.level → whole = false →
            o = (narrow x.wire.val x.stoch (fun e => colDraw (paramOf v.img x.param).key ph v.x (seg.1 + e))
              ((List.range seg.2).map fun e => decodeNum fp32 (acc e).toNat)).1)
        ∧ (isReduce ph = false → ¬ (ph = 8 ∧ x.op.val = 1 ∧ g.onlyX = false) → o = bs.flatMap fun b => b.2.1)
        ∧ (ph = 8 → x.op.val = 1 → g.onlyX = false →
            let size := fun (r : List Nat) => (segAfter x.count v.box.sizes r 4).2
            o = bs.flatMap fun b => (subRanks v.box.sizes b.1 1).zipIdx.flatMap fun r =>
              toOutFmt x.outFmt.val (unnarrow x.wire.val (size r.1)
                (b.2.1.drop ((((subRanks v.box.sizes b.1 1).take r.2).map fun q => wireBytes x.wire.val (size q)).foldl (· + ·) 0))))
        ∧ (sat ≠ 0 → advanced d t.dev u (Reg.SWM_EVT_COL_LATE + 4) sat ∧ rdB t.dev u Reg.SWM_COL_EVENTS 1 = true) ∧ (sat = 0 → t.dev.regs = d.regs)
        ∧ t = { s with dev := { d with regs := t.dev.regs, swm := t.dev.swm } }
        ∧ regsBut [(u, Reg.SWM_COL_EVENTS), (u, Reg.SWM_EVT_COL_LATE + 4)] d t.dev)
    ∧ (∀ (k : LandPkt) (b : ColBind) (box : GroupBox) (img : Image) (ent : SlotEnt) (x : ColOps) (g : ColGeo) (from_ : List Nat),
      stateIs d u .resetting = false → 0x8000 ≤ k.tag → k.tag < 65536 → bindGid d (k.tag % 4096) = some b → boxOf d b = some box →
      (ctxOf d b.ctx).image = some img → foldOf img b.localId (k.block / 2 ^ 20 % 16) = some (ent, x) → geoOf d box x [] = some g →
      box.ranks k.src.node k.pod = some from_ →
      let n := k.block % 2 ^ 20
      let ph := k.block / 2 ^ 20 % 16
      let size := g.blockBytes from_ g.me
      let inside := decide (x.delivery.val = 1)
      n < ceilDiv size 512 → 512 * n + k.payload.length ≤ size →
      (inside = true → k.frame = frameNum d b.part ∧ frameOver d b.part = false
        ∧ ∃ y z, runImage d b.part = some (b.ctx, y, z, ent.what.slice)) →
      let old := (d.col.blks.find? fun q => q.is (k.tag % 4096) ph k.src.node k.pod k.frame).getD
        ⟨k.tag % 4096, ph, k.src.node, k.pod, k.frame, !inside, [], none, none⟩
      let drops := fun (code : Nat) => ∃ t, exec (.landPacketArrival i k) s = .next t ∧ rdN t.dev u Reg.SWM_LAST_DROP = code + 65536 * k.tag
        ∧ occurred d t.dev u Reg.SWM_COL_EVENTS 3 (Reg.SWM_EVT_COL_LATE + 12) ∧ t.dev.mem = d.mem ∧ t.dev.col = d.col
      (∀ l, smGet old.pkts n = some l → drops 4 ∧ (l ≠ k.payload → ∃ t, exec (.landPacketArrival i k) s = .next t ∧ killFiled d t.dev b.part 2
        ∧ rdB t.dev u Reg.SWM_EVENTS 1 = true))
      ∧ (smGet old.pkts n = none → (inside = true → img.exch.contains k.src = true) → open_ b.part g from_ k.frame n k.payload.length →
      ∃ t, exec (.landPacketArrival i k) s = .next t
        ∧ t.dev.col.blks = (d.col.blks.filter fun q => !q.is (k.tag % 4096) ph k.src.node k.pod k.frame) ++ [{ old with
            pkts := smPut old.pkts n k.payload
            ready := if inside = true ∧ (smPut old.pkts n k.payload).length = ceilDiv size 512 then some (cycleTime d b.part k.cycle) else old.ready }]
        ∧ stages b.part g from_ k.frame n k.payload t.dev
        ∧ t = { s with dev := { d with mem := t.dev.mem, combs := t.dev.combs, col := { d.col with blks := t.dev.col.blks } } }))
    ∧ (∀ k : LandPkt, stateIs d u .resetting = false → 0x8000 ≤ k.tag → k.tag < 65536 → bindGid d (k.tag % 4096) = none →
      ∃ t, exec (.landPacketArrival i k) s = .next t ∧ touches [(u, Reg.SWM_LAST_DROP), (u, Reg.SWM_COL_EVENTS), (u, Reg.SWM_EVT_COL_LATE + 12)] s t
        ∧ rdN t.dev u Reg.SWM_LAST_DROP = 2 + 65536 * k.tag ∧ occurred d t.dev u Reg.SWM_COL_EVENTS 3 (Reg.SWM_EVT_COL_LATE + 12))
    ∧ (∀ (src : Peer) (pod gid frame count : Nat) (commit : Bool), stateIs d u .resetting = false →
      let known := (bindGid d gid).isNone || d.col.blks.any fun b => b.is gid 13 src.node pod frame
      exec (.trailerArrival i src pod gid frame commit count) s = .next (if known then s else { s with dev := { d with col := { d.col with
        blks := d.col.blks ++ [⟨gid, 13, src.node, pod, frame, true, [], none, some (commit, count)⟩] } } }))
    ∧ (∀ (src : Peer) (pod gid frame : Nat) (b : ColBind), bindGid d gid = some b →
      ((colWhole d gid src.node pod frame = true ∨ cutPast d b.part frame 2 = false) → exec (.resendRequest i src pod gid frame) s = .next s)
      ∧ (colWhole d gid src.node pod frame = false → cutPast d b.part frame 2 = true → pod ≠ myPod d → pod < 256 → src.node < 2048 → nodeNames d src.node = true → ethUp d ≠ [] →
        let ranges := if d.col.blks.any (fun q => q.is gid 13 src.node pod frame) then missingRanges d gid src.node pod frame else []
        ∃ (t : State) (q : Datagram), let k := q.pkt
          exec (.resendRequest i src pod gid frame) s = .next t ∧ q.port ∈ ethUp d
          ∧ t.dev.fab = { d.fab with datagrams := d.fab.datagrams ++ [q] } ∧ k.cls = 1 ∧ k.type = 0 ∧ k.dest = mkPlace pod src.node u
          ∧ k.dpart = src.part.val ∧ k.frame = frame ∧ k.addr = 0x8000 + gid + 65536 * (14 * 2 ^ 20) ∧ leAt k.payload 0 2 = frame % 65536
          ∧ (∀ n r, ranges[n]? = some r → leAt k.payload (8 + 8 * n) 4 = r.1 % 2 ^ 32 ∧ leAt k.payload (12 + 8 * n) 4 = r.2 % 2 ^ 32)
          ∧ occurred d t.dev u Reg.SWM_COL_EVENTS 2 (Reg.SWM_EVT_COL_LATE + 8) ∧ advanced d t.dev (pEth q.port) Reg.ETH_TX_PACKETS 1
          ∧ t = { s with dev := { d with regs := t.dev.regs, fab := t.dev.fab } }
          ∧ regsBut [(u, Reg.SWM_COL_EVENTS), (u, Reg.SWM_EVT_COL_LATE + 8), (pEth q.port, Reg.ETH_TX_PACKETS)] d t.dev))
    ∧ (∀ (src : Peer) (pod gid frame : Nat) (ranges : List (Nat × Nat)), stateIs d u .resetting = false →
      let l := d.col.sent.filter fun s => s.gid == gid && s.frame == frame && placeNode s.to_ == src.node && placePod s.to_ == pod
      (l = [] → exec (.resendArrival i src pod gid frame ranges) s = .next s)
      ∧ (l ≠ [] → pod ≠ myPod d → pod < 256 → src.node < 2048 → nodeNames d src.node = true → ethUp d ≠ [] →
        let again := l.flatMap fun q => (q.pkts.filter fun e => ranges.any fun r => decide (r.1 ≤ q.phase * 2 ^ 20 + e.1) && decide (q.phase * 2 ^ 20 + e.1 < r.1 + r.2)).map
          fun e => (0x8000 + gid + 65536 * (q.phase * 2 ^ 20 + e.1), e.2)
        let trailer := match (l.head?).bind ColSent.commit with
          | some c => [(0x8000 + gid + 65536 * (13 * 2 ^ 20), sliceBytes (trailerBytes frame c ((l.map fun q => q.pkts.length).foldl (· + ·) 0)) 0 32)]
          | none => []
        ∃ (t : State) (ks : List Datagram), exec (.resendArrival i src pod gid frame ranges) s = .next t
          ∧ t.dev.fab = { d.fab with datagrams := d.fab.datagrams ++ ks } ∧ (ks.map fun k => (k.pkt.addr, k.pkt.payload)) = again ++ trailer
          ∧ (∀ k ∈ ks, k.port ∈ ethUp d ∧ k.pkt.cls = 1 ∧ k.pkt.type = 0 ∧ k.pkt.dest = mkPlace pod src.node u ∧ k.pkt.frame = frame)
          ∧ occurred d t.dev u Reg.SWM_COL_EVENTS 2 (Reg.SWM_EVT_COL_LATE + 8) ∧ t = { s with dev := { d with regs := t.dev.regs, fab := t.dev.fab } }))
    ∧ ∀ (p : Fin 16) (src : Peer) (pod frame : Nat),
      let whole := ∀ b ∈ d.col.binds, b.part = p.val → colWhole d b.gid src.node pod frame = true
      ((whole ∨ cutPast d p.val frame 5 = false) → exec (.collectiveSourceQuery p src pod frame) s = .next s)
      ∧ (¬ whole → cutPast d p.val frame 5 = true →
        ∃ t, exec (.collectiveSourceQuery p src pod frame) s = .next t
          ∧ occurred d t.dev (pPart p.val) Reg.CTL_RMT_EVENTS 4 Reg.CTL_EVT_QUERY
          ∧ t = { s with dev := { d with regs := t.dev.regs, rmt := { d.rmt with queries := d.rmt.queries ++ [⟨p.val, src.node, .collective, false⟩] } } }
          ∧ regsBut [(pPart p.val, Reg.CTL_RMT_EVENTS), (pPart p.val, Reg.CTL_EVT_QUERY)] d t.dev)

/-! ## The brood block -/

/-- R230, R238, R239: a ream build, in its cycle, takes rows from its class's eligible entries in descending effective priority, ties to the smaller
ADMIT_SEQ, at most CHUNK rows each and as many as its positions and the capacity allow; it completes at its cycle, when its buffer holds the header,
the live-row words and a descriptor for each row, and its NOTIFY tag advances; in any other cycle, and past the cut, nothing happens. An entry one of
whose copies is lost is mended; one that has lost both is reported and not taken.
Model choices it uses: log entry 74 (DEDUCED). -/
def Obligations.ReamsAreBuilt : Prop :=
  ∀ (s : State) (p : Fin 16) (cls : Fin 8) (cycle c y sl : Nat) (img : Image) (r : BroodRec) (k : ReamClass),
    let d := s.dev
    let ofs := reamOffsets k
    runImage d p.val = some (c, y, img, sl) → img.brood = some r → r.classes[cls.val]? = some k →
    (∀ h got a, k.buildSlice = sl → smGet (partOf d p.val).listGot k.outRef = some (h, got) → (∀ b ∈ d.brd.builds, b.done = true) →
      (∀ b ∈ d.brd.builds, b.part = p.val → b.cls ≠ cls.val) →
      (∀ e ∈ buildsOf r sl, e.1 < cls.val → ∃ b ∈ d.brd.builds, b.part = p.val ∧ b.cls = e.1) →
      (partOf d p.val).cutTaken = false → (partOf d p.val).killNow = none → handleOperand d p.val h 0 ofs.2.2 true = .ok a →
      listsDue d (momentOf d p.val (cycle + 1)) = [] → d.brd.lost = [] →
      cycle = max (max k.startCycle (cycleAt d p.val (d.brd.free + 999))) (got + 1) → cycle ≤ cutCycle d p.val →
      let fit := (brdRange r).filter fun e => (brdOf d e).modelSlot == r.slot && (brdOf d e).phase == k.phase && !inStep d p.val e
        && decide ((brdOf d e).position < (brdOf d e).kvLimit)
      let first := fun (e f : Nat) => effPrio (brdOf d f) k.ageStep < effPrio (brdOf d e) k.ageStep
        ∨ (effPrio (brdOf d f) k.ageStep = effPrio (brdOf d e) k.ageStep ∧ ((brdOf d e).admitSeq < (brdOf d f).admitSeq
          ∨ ((brdOf d e).admitSeq = (brdOf d f).admitSeq ∧ e < f)))
      (∃ t order taken, exec (.reamBuild p cls ⟨cycle, []⟩) s = .next t
        ∧ order.Perm fit ∧ order.Pairwise (fun e f => ¬ first f e) ∧ (taken.map Prod.fst) <+: order
        ∧ (∀ (n : Nat) (q : Nat × Nat), taken[n]? = some q →
          let room := k.rCap - ((taken.take n).map Prod.snd).foldl (· + ·) 0
          let left := (brdOf d q.1).kvLimit - (brdOf d q.1).position
          0 < q.2 ∧ q.2 = min (min k.chunk (min room left)) (if k.phase = 2 then (brdOf d q.1).promptEnd - (brdOf d q.1).position else k.chunk))
        ∧ (0 < k.chunk → (k.phase = 2 → ∀ e ∈ fit, (brdOf d e).position < (brdOf d e).promptEnd) → taken.map Prod.fst ≠ order →
          (taken.map Prod.snd).foldl (· + ·) 0 = k.rCap)
        ∧ t = { s with dev := { d with brd := { d.brd with builds := d.brd.builds ++ [⟨p.val, cls.val,
          cycle + 96 + ceilDiv r.count 16 + ceilDiv k.rCap 8 - 1, false,
          ⟨cls.val, taken, order.filter fun e => !(taken.any fun q => q.1 == e), h, ofs.2.1, frameNum d p.val, false⟩, a⟩] } } })
      ∧ ∀ e : Fin 8192, e.val ∈ brdRange r →
        (∃ t, exec (.reamBuild p cls ⟨cycle, [(e, true, false)]⟩) s = .next t ∧ t.dev.brd.table_ = d.brd.table_ ∧ t.dev.brd.lost = []
          ∧ occurred d t.dev pBrd Reg.UNIT_EVENTS HdrEv.errCorr.bit (Reg.UNIT_EVT_CMD_DONE + 4 * HdrEv.errCorr.bit))
        ∧ (∃ t, exec (.reamBuild p cls ⟨cycle, [(e, true, true)]⟩) s = .next t ∧ t.dev.brd.table_ = d.brd.table_
          ∧ t.dev.brd.lost = [(e.val, (true, true, true))] ∧ occurred d t.dev pBrd Reg.BRD_EVENTS 4 (Reg.BRD_EVT_FULL + 4 * 4)
          ∧ ∀ b ∈ t.dev.brd.builds, b ∉ d.brd.builds → ∀ q ∈ b.ream.taken, q.1 ≠ e.val))
    ∧ ∀ b : BrdBuild, d.brd.builds.find? (fun b => b.part == p.val && b.cls == cls.val && !b.done) = some b →
      let now := cycle = b.due ∧ cycle ≤ cutCycle d p.val ∧ (partOf d p.val).cutTaken = false
      (¬ now → exec (.reamBuildComplete p cls cycle) s = .next s)
      ∧ (now → lands d b.addr ofs.2.1 →
        let rows := b.ream.rows
        ∃ t, exec (.reamBuildComplete p cls cycle) s = .next t
          ∧ readLe t.dev b.addr 4 = smGetD 0 d.brd.steps p.val % 2 ^ 32 ∧ readLe t.dev (b.addr + 4) 2 = rows % 65536
          ∧ readLe t.dev (b.addr + 6) 2 = b.ream.taken.length % 65536 ∧ readLe t.dev (b.addr + 8) 1 = r.slot % 256
          ∧ readLe t.dev (b.addr + 9) 1 = k.phase % 256 ∧ readLe t.dev (b.addr + 12) 2 = b.ream.frame % 65536
          ∧ (∀ n, n < k.rCap / k.tile → readLe t.dev (b.addr + 0x40 + 4 * n) 4 = min k.tile (rows - k.tile * n) % 2 ^ 32)
          ∧ (∀ (j e n m : Nat), b.ream.taken[j]? = some (e, n) → m < n →
            let row := ((b.ream.taken.take j).map Prod.snd).foldl (· + ·) 0 + m
            let z := b.addr + ofs.1 + 16 * row
            row < k.rCap → readLe t.dev z 2 = (e + 2 ^ 15) % 65536 ∧ readLe t.dev (z + 2) 2 = j % 65536
              ∧ readLe t.dev (z + 4) 4 = ((brdOf d e).position + m) % 2 ^ 32 ∧ readLe t.dev (z + 8) 4 = (brdOf d e).kvHandle % 2 ^ 32
              ∧ readLe t.dev (z + 12) 1 = b2n (m == 0) + 2 * b2n (m + 1 == n))
          ∧ (∀ row, rows ≤ row → row < k.rCap → readBytes t.dev (b.addr + ofs.1 + 16 * row) 16 = List.replicate 16 0)
          ∧ memBut b.addr ofs.2.1 d t.dev
          ∧ advanced d t.dev pBrd Reg.BRD_REAMS 1 ∧ advanced d t.dev pBrd Reg.BRD_ROWS rows
          ∧ t.dev.brd = { d.brd with
            free := momentOf d p.val (b.due + 1)
            builds := d.brd.builds.map fun q => if q.part = p.val ∧ q.cls = cls.val then { q with done := true } else q }
          ∧ (k.notifyEn = true → ∀ q, slotCell d p.val k.notifySlot = some q → Signalled d t.dev q true k.notifyTag cycle)
          ∧ (k.notifyEn = false → t.dev.cells = d.cells ∧ regsBut [(pBrd, Reg.BRD_REAMS), (pBrd, Reg.BRD_ROWS)] d t.dev)
          ∧ t = { s with dev := { d with
            regs := t.dev.regs, mem := t.dev.mem, pins := t.dev.pins, parts := t.dev.parts, cells := t.dev.cells, combs := t.dev.combs,
            brd := t.dev.brd } })

/-! ## The whole block -/

/-- A step runs the command at the front of the queue on the state with the rest of the queue. With an empty queue the block idles (the model's choice:
log entry 6). -/
def Obligations.StepRunsTheFrontCommand : Prop :=
  ∀ s : State,
    (∀ (c : Instr) (rest : List Instr), s.pending = c :: rest → step s = exec c { s with pending := rest })
    ∧ (s.pending = [] → step s = .next s)

/-- R12: a frame lasts 2^n µs, n being the 3-bit FRAME_EXP field and 3, from 3 to 9: with its decision taken, a frame that began at T ends with the tick at
T + 2^n µs. A write of 7 is refused and changes nothing. After reset every partition has n = 6, which gives 64 µs. -/
def Obligations.FramesLastTheirLength : Prop :=
  (∀ (s : State) (p : Fin 16),
    let d := s.dev
    let n := rdF d (pPart p.val) Reg.CTL_FRAME_ACTIVE 2 0 + 3
    let began := rdN d (pPart p.val) Reg.CTL_TICK_TIME
    n ≤ 9 → (partOf d p.val).cutTaken = true → (partOf d p.val).groupWait = false → d.hall = began → began % (1000 * 2 ^ n) = 0 →
      3 ≤ n ∧ ∃ t, exec (.tick p) s = .next t ∧ t.dev.hall = began + 1000 * 2 ^ n
        ∧ rdN t.dev (pPart p.val) Reg.CTL_TICK_TIME = (began + 1000 * 2 ^ n) % 2 ^ 64)
  ∧ (∀ (s : State) (p : Fin 16) (r : Requester) (v : W32), accessCode s.dev s.prop r (pPart p.val) Reg.CTL_FRAME_NEXT false true = 0 → v.toNat % 8 = 7 →
      exec (.frameSwitchArm p r v) s = .next s)
  ∧ ∀ p : Fin 16, rdF State.reset.dev (pPart p.val) Reg.CTL_FRAME_ACTIVE 2 0 + 3 = 6 ∧ rdF State.reset.dev (pPart p.val) Reg.CTL_FRAME_NEXT 2 0 + 3 = 6

/-- After reset (R231, R490 and the register tables): the queue is empty; the propolis table holds grant 0 alone, which gives the Hexvan requesters READ,
WRITE and ADMIN over every path, so that R491 holds of it; no partition is loaded, every context and every brood entry is FREE, SEC_POLICY is 2, and
memory and the register file are in canonical form. That a byte nothing has written reads 0 is the model's choice (log entry 4). -/
def Obligations.ResetLeavesTheBlockEmpty : Prop :=
  let s := State.reset
  s.pending = []
  ∧ s.prop.grants = [(0, ⟨0x1000, 0xF000, 0, 0x1FFF, true, true, false, true, false⟩)] ∧ s.prop.windows = [] ∧ s.prop.triggers = [] ∧ s.prop.hosts = []
  ∧ s.prop.keys = [] ∧ s.prop.revoked = [] ∧ s.prop.changes = [] ∧ s.prop.adminKept = true
  ∧ Memory.wf s.dev.mem = true ∧ Regs.wf s.dev.regs = true ∧ (∀ a, readByte s.dev a = 0)
  ∧ (∀ p : Fin 16, loaded s.dev p.val = false ∧ images s.dev p.val = [] ∧ frameNum s.dev p.val = 0) ∧ (∀ c, (ctxOf s.dev c).state = .free) ∧ (∀ e, (brdOf s.dev e).phase = 0)
  ∧ (∀ i : Fin 2, rdN s.dev (pSec i.val) Reg.SEC_POLICY = 2)

/-- R491: no accepted change of the propolis table leaves it without a grant with ADMIN: if the table in force, and the one in force once every accepted
change is made, each hold such a grant, they still do after any step. -/
def Obligations.AdminIsNeverLost : Prop :=
  ∀ s t : State, s.prop.adminKept = true → step s = .next t → t.prop.adminKept = true

/-- R490, R492, Table 19-8: the propolis table in force changes only at a tick, at a grid point, or with the device's power or reset. A tick makes the
changes of its partition's windows and triggers in the order in which they were accepted, so that of two for one entry the later wins, and closes those
that grant a dead node; a grid point makes the device-wide ones. Any other command adds at most one accepted change.
Model choices it uses: log entry 69 (DEDUCED). -/
def Obligations.PropolisChangesAtItsTimes : Prop :=
  ∀ (s t : State) (c : Instr) (rest : List Instr), s.pending = c :: rest → step s = .next t →
    let inForce := fun (pr : Propolis) => { pr with changes := [] }
    let power := c = .powerOnResetRelease ∨ c = .powerLoss ∨ ∃ x, c = .deviceReset x
    (power → t.prop = s.prop ∨ t.prop = Propolis.reset)
    ∧ (∀ p : Fin 16, c = .tick p →
      let due := fun (x : PropChange) => x.part == some p.val
      t.prop.grants = s.prop.grants ∧ t.prop.hosts = s.prop.hosts ∧ t.prop.keys = s.prop.keys ∧ t.prop.revoked = s.prop.revoked
        ∧ t.prop.changes = s.prop.changes.filter (fun x => !due x)
        ∧ ∃ closed : List PropChange, (∀ x ∈ closed, x.part = some p.val ∧ ∃ k, x = .window k p.val none ∨ x = .trigger k p.val none)
          ∧ inForce t.prop = closed.foldl changeTable ((s.prop.changes.filter due).foldl changeTable (inForce s.prop)))
    ∧ (c = .gridPoint → t.prop.windows = s.prop.windows ∧ t.prop.triggers = s.prop.triggers
        ∧ t.prop.changes = s.prop.changes.filter (fun x => x.part.isSome)
        ∧ inForce t.prop = (s.prop.changes.filter fun x => x.part.isNone).foldl changeTable (inForce s.prop))
    ∧ (¬ power → (∀ p, c ≠ .tick p) → c ≠ .gridPoint → inForce t.prop = inForce s.prop ∧ ∃ l, t.prop.changes = s.prop.changes ++ l ∧ l.length ≤ 1)
end

