-- ==== Sys2Proof/Laws/Fields.lean ====
section
/-! SUPPORT. Laws of register fields: setting a field, reading it back, and reading another. -/

namespace Sys2Proof.Machine

/-- A number as what lies above a field, the field, and what lies below. -/
theorem field_split (v lo w : Nat) :
    v = v / 2 ^ (lo + w) * 2 ^ (lo + w) + v / 2 ^ lo % 2 ^ w * 2 ^ lo + v % 2 ^ lo := by
  have h1 := Nat.div_add_mod v (2 ^ lo)
  have h2 := Nat.div_add_mod (v / 2 ^ lo) (2 ^ w)
  rw [Nat.div_div_eq_div_mul, ← Nat.pow_add] at h2
  have h3 : 2 ^ lo * (v / 2 ^ lo) = v / 2 ^ (lo + w) * 2 ^ (lo + w) + v / 2 ^ lo % 2 ^ w * 2 ^ lo := by
    conv => lhs; rw [← h2]
    rw [Nat.mul_add, ← Nat.mul_assoc, ← Nat.pow_add, Nat.mul_comm (2 ^ (lo + w)), Nat.mul_comm (2 ^ lo)]
  omega

/-- The number that a set field leaves. -/
theorem setFld_toNat (v : W64) {hi lo : Nat} (n : Nat) (h1 : lo ≤ hi) (h2 : hi < 64) :
    (setFld v hi lo n).toNat = v.toNat / 2 ^ (hi + 1) * 2 ^ (hi + 1) + n % 2 ^ (hi + 1 - lo) * 2 ^ lo + v.toNat % 2 ^ lo := by
  have hs := field_split v.toNat lo (hi + 1 - lo)
  rw [show lo + (hi + 1 - lo) = hi + 1 by omega] at hs
  have hn : n % 2 ^ (hi + 1 - lo) < 2 ^ (hi + 1 - lo) := Nat.mod_lt _ (Nat.two_pow_pos _)
  have hr : v.toNat % 2 ^ lo < 2 ^ lo := Nat.mod_lt _ (Nat.two_pow_pos _)
  have hv := v.isLt
  have hp : 2 ^ (hi + 1 - lo) * 2 ^ lo = 2 ^ (hi + 1) := by rw [← Nat.pow_add]; congr 1; omega
  have hq : 2 ^ (63 - hi) * 2 ^ (hi + 1) = 2 ^ 64 := by rw [← Nat.pow_add]; congr 1; omega
  have hm : n % 2 ^ (hi + 1 - lo) * 2 ^ lo + 2 ^ lo ≤ 2 ^ (hi + 1) := by
    have := Nat.mul_le_mul_right (2 ^ lo) (Nat.succ_le_of_lt hn)
    rw [hp, Nat.succ_mul] at this; exact this
  have ha : v.toNat / 2 ^ (hi + 1) + 1 ≤ 2 ^ (63 - hi) := by
    have : v.toNat / 2 ^ (hi + 1) < 2 ^ (63 - hi) := by
      rw [Nat.div_lt_iff_lt_mul (Nat.two_pow_pos _), hq]; exact hv
    omega
  have hb := Nat.mul_le_mul_right (2 ^ (hi + 1)) ha
  rw [hq, Nat.succ_mul] at hb
  unfold setFld fld nbits
  rw [BitVec.toNat_ofNat]
  rw [Nat.mod_eq_of_lt]
  · omega
  · omega

theorem nbits_below {v v' h lo : Nat} (hh : h < lo) (e : v % 2 ^ lo = v' % 2 ^ lo) (l : Nat) : nbits v h l = nbits v' h l := by
  have key : ∀ x : Nat, nbits x h l = x % 2 ^ (h + 1) / 2 ^ l % 2 ^ (h + 1 - l) := by
    intro x
    unfold nbits
    by_cases hl : l ≤ h + 1
    · have : 2 ^ (h + 1) = 2 ^ l * 2 ^ (h + 1 - l) := by rw [← Nat.pow_add]; congr 1; omega
      rw [this, Nat.mod_mul_right_div_self, Nat.mod_mod]
    · have : h + 1 - l = 0 := by omega
      simp [this, Nat.mod_one]
  have : v % 2 ^ (h + 1) = v' % 2 ^ (h + 1) := by
    have d : 2 ^ (h + 1) ∣ 2 ^ lo := Nat.pow_dvd_pow 2 (by omega)
    rw [← Nat.mod_mod_of_dvd v d, ← Nat.mod_mod_of_dvd v' d, e]
  rw [key, key, this]

theorem nbits_above {v v' t l : Nat} (hl : t ≤ l) (e : v / 2 ^ t = v' / 2 ^ t) (h : Nat) : nbits v h l = nbits v' h l := by
  unfold nbits
  have : 2 ^ l = 2 ^ t * 2 ^ (l - t) := by rw [← Nat.pow_add]; congr 1; omega
  rw [this, ← Nat.div_div_eq_div_mul, ← Nat.div_div_eq_div_mul, e]

/-- Reading back a field that was set. -/
theorem fld_setFld_self (v : W64) {hi lo : Nat} (n : Nat) (h1 : lo ≤ hi) (h2 : hi < 64) :
    fld (setFld v hi lo n) hi lo = n % 2 ^ (hi + 1 - lo) := by
  unfold fld
  rw [setFld_toNat v n h1 h2]
  unfold nbits
  have hr : v.toNat % 2 ^ lo < 2 ^ lo := Nat.mod_lt _ (Nat.two_pow_pos _)
  have e : v.toNat / 2 ^ (hi + 1) * 2 ^ (hi + 1) + n % 2 ^ (hi + 1 - lo) * 2 ^ lo + v.toNat % 2 ^ lo
      = v.toNat % 2 ^ lo + 2 ^ lo * (v.toNat / 2 ^ (hi + 1) * 2 ^ (hi + 1 - lo) + n % 2 ^ (hi + 1 - lo)) := by
    have hp : 2 ^ (hi + 1) = 2 ^ (hi + 1 - lo) * 2 ^ lo := by rw [← Nat.pow_add]; congr 1; omega
    rw [hp, ← Nat.mul_assoc, ← Nat.add_mul, Nat.mul_comm (2 ^ lo), Nat.add_comm]
  rw [e, Nat.add_mul_div_left _ _ (Nat.two_pow_pos _), Nat.div_eq_of_lt hr, Nat.zero_add, Nat.add_comm, Nat.add_mul_mod_self_right,
    Nat.mod_mod]

/-- A set field leaves the fields below and above it alone. -/
theorem fld_setFld_ne (v : W64) {hi lo h l : Nat} (n : Nat) (h1 : lo ≤ hi) (h2 : hi < 64) (h3 : h < lo ∨ hi < l) :
    fld (setFld v hi lo n) h l = fld v h l := by
  unfold fld
  rw [setFld_toNat v n h1 h2]
  have hr : v.toNat % 2 ^ lo < 2 ^ lo := Nat.mod_lt _ (Nat.two_pow_pos _)
  have hn : n % 2 ^ (hi + 1 - lo) < 2 ^ (hi + 1 - lo) := Nat.mod_lt _ (Nat.two_pow_pos _)
  have hp : 2 ^ (hi + 1 - lo) * 2 ^ lo = 2 ^ (hi + 1) := by rw [← Nat.pow_add]; congr 1; omega
  rcases h3 with h3 | h3
  · apply nbits_below h3
    have e : v.toNat / 2 ^ (hi + 1) * 2 ^ (hi + 1) + n % 2 ^ (hi + 1 - lo) * 2 ^ lo + v.toNat % 2 ^ lo
        = v.toNat % 2 ^ lo + 2 ^ lo * (v.toNat / 2 ^ (hi + 1) * 2 ^ (hi + 1 - lo) + n % 2 ^ (hi + 1 - lo)) := by
      rw [← hp, ← Nat.mul_assoc, ← Nat.add_mul, Nat.mul_comm (2 ^ lo), Nat.add_comm]
    rw [e, Nat.add_mul_mod_self_left, Nat.mod_mod]
  · apply nbits_above (t := hi + 1) (by omega)
    have hm : n % 2 ^ (hi + 1 - lo) * 2 ^ lo + 2 ^ lo ≤ 2 ^ (hi + 1) := by
      have := Nat.mul_le_mul_right (2 ^ lo) (Nat.succ_le_of_lt hn)
      rw [hp, Nat.succ_mul] at this; exact this
    rw [Nat.add_assoc, Nat.add_comm, Nat.add_mul_div_right _ _ (Nat.two_pow_pos _), Nat.div_eq_of_lt (by omega), Nat.zero_add]

/-- A bit is a field of one bit. -/
theorem bitAt_eq (v i : Nat) : bitAt v i = (nbits v i i == 1) := by
  unfold bitAt nbits
  rw [show i + 1 - i = 1 by omega, Nat.pow_one]

end Sys2Proof.Machine
end

