-- ==== Sys2Proof/Laws/Maps.lean ====
section
/-! SUPPORT. Laws of sparse data: a read after a write gives what was written, a write leaves every other key alone, and the canonical
form is kept by every operation. -/

namespace Sys2Proof.Machine

variable {β : Type}

@[simp] theorem smGet_put_self (m : SMap β) (k : Nat) (v : β) : smGet (smPut m k v) k = some v := by
  induction m with
  | nil => simp [smPut, smGet]
  | cons e m ih =>
    obtain ⟨k', v'⟩ := e
    unfold smPut
    split
    · simp [smGet]
    · split
      · simp [smGet]
      · have : k' ≠ k := by omega
        simp [smGet, this, ih]

theorem smGet_put_ne (m : SMap β) {j k : Nat} (v : β) (h : j ≠ k) : smGet (smPut m k v) j = smGet m j := by
  induction m with
  | nil => simp [smPut, smGet, Ne.symm h]
  | cons e m ih =>
    obtain ⟨k', v'⟩ := e
    unfold smPut
    split
    · simp [smGet, Ne.symm h]
    · split
      · subst_vars; simp [smGet, Ne.symm h]
      · simp only [smGet]; rw [ih]

@[simp] theorem smGet_del_self (m : SMap β) (k : Nat) : smGet (smDel m k) k = none := by
  induction m with
  | nil => rfl
  | cons e m ih =>
    obtain ⟨k', v'⟩ := e
    unfold smDel
    split
    · exact ih
    · simp_all [smGet]

theorem smGet_del_ne (m : SMap β) {j k : Nat} (h : j ≠ k) : smGet (smDel m k) j = smGet m j := by
  induction m with
  | nil => rfl
  | cons e m ih =>
    obtain ⟨k', v'⟩ := e
    unfold smDel
    split
    · subst_vars; simp [smGet, Ne.symm h, ih]
    · simp only [smGet]; rw [ih]

section
variable [DecidableEq β]

@[simp] theorem smGetD_putD_self (d : β) (m : SMap β) (k : Nat) (v : β) : smGetD d (smPutD d m k v) k = v := by
  unfold smGetD smPutD
  split
  · subst_vars; simp
  · simp

theorem smGetD_putD_ne (d : β) (m : SMap β) {j k : Nat} (v : β) (h : j ≠ k) : smGetD d (smPutD d m k v) j = smGetD d m j := by
  unfold smGetD smPutD
  split
  · rw [smGet_del_ne m h]
  · rw [smGet_put_ne m v h]

/-- An unlisted key reads the same under another default of the written key. -/
theorem smGet_putD_ne (d : β) (m : SMap β) {j k : Nat} (v : β) (h : j ≠ k) : smGet (smPutD d m k v) j = smGet m j := by
  unfold smPutD
  split
  · rw [smGet_del_ne m h]
  · rw [smGet_put_ne m v h]

@[simp] theorem smGetD_modD_self (d : β) (m : SMap β) (k : Nat) (f : β → β) : smGetD d (smModD d m k f) k = f (smGetD d m k) := by
  simp [smModD]

theorem smGetD_modD_ne (d : β) (m : SMap β) {j k : Nat} (f : β → β) (h : j ≠ k) : smGetD d (smModD d m k f) j = smGetD d m j :=
  smGetD_putD_ne d m _ h
end

/-! ## The canonical form -/

theorem smSortedFrom_weaken {m : SMap β} {a b : Nat} (h : smSortedFrom b m = true) (hab : a ≤ b) : smSortedFrom a m = true := by
  cases m with
  | nil => rfl
  | cons e m =>
    obtain ⟨k, v⟩ := e
    simp only [smSortedFrom, Bool.and_eq_true, decide_eq_true_eq] at h ⊢
    exact ⟨by omega, h.2⟩

theorem smSortedFrom_put {m : SMap β} {lo k : Nat} {v : β} (h : smSortedFrom lo m = true) (hk : lo ≤ k) :
    smSortedFrom lo (smPut m k v) = true := by
  induction m generalizing lo with
  | nil => simp [smPut, smSortedFrom, hk]
  | cons e m ih =>
    obtain ⟨k', v'⟩ := e
    simp only [smSortedFrom, Bool.and_eq_true, decide_eq_true_eq] at h
    unfold smPut
    split
    · next hlt => simp only [smSortedFrom, Bool.and_eq_true, decide_eq_true_eq]; exact ⟨hk, by omega, h.2⟩
    · split
      · next heq => subst heq; simp [smSortedFrom, hk, h.2]
      · simp only [smSortedFrom, Bool.and_eq_true, decide_eq_true_eq]
        exact ⟨h.1, ih h.2 (by omega)⟩

theorem smSortedFrom_filter {m : SMap β} {lo : Nat} (p : Nat × β → Bool) (h : smSortedFrom lo m = true) :
    smSortedFrom lo (m.filter p) = true := by
  induction m generalizing lo with
  | nil => rfl
  | cons e m ih =>
    obtain ⟨k, v⟩ := e
    simp only [smSortedFrom, Bool.and_eq_true, decide_eq_true_eq] at h
    simp only [List.filter_cons]
    split
    · simp only [smSortedFrom, Bool.and_eq_true, decide_eq_true_eq]; exact ⟨h.1, ih h.2⟩
    · exact smSortedFrom_weaken (ih h.2) (by omega)

theorem smDel_eq_filter (m : SMap β) (k : Nat) : smDel m k = m.filter fun e => e.1 != k := by
  induction m with
  | nil => rfl
  | cons e m ih =>
    obtain ⟨k', v'⟩ := e
    unfold smDel
    by_cases hk : k' = k <;> simp [hk, ih]

theorem smPut_all {m : SMap β} {p : Nat × β → Bool} {k : Nat} {v : β} (h : m.all p = true) (hv : p (k, v) = true) :
    (smPut m k v).all p = true := by
  induction m with
  | nil => simp [smPut, hv]
  | cons e m ih =>
    obtain ⟨k', v'⟩ := e
    simp only [List.all_cons, Bool.and_eq_true] at h
    unfold smPut
    split
    · simp [hv, h.1, h.2]
    · split
      · simp [hv, h.2]
      · simp only [List.all_cons, h.1, ih h.2, Bool.and_self]

section
variable [DecidableEq β] {d : Nat → β}

/-- Taking entries out keeps the canonical form. -/
theorem smWf_filter {m : SMap β} (p : Nat × β → Bool) (h : smWf d m = true) : smWf d (m.filter p) = true := by
  unfold smWf at h ⊢
  simp only [Bool.and_eq_true] at h ⊢
  refine ⟨smSortedFrom_filter p h.1, ?_⟩
  rw [List.all_eq_true] at h ⊢
  intro e he
  exact h.2 e ((List.mem_filter.mp he).1)

theorem smWf_del {m : SMap β} (k : Nat) (h : smWf d m = true) : smWf d (smDel m k) = true := by
  rw [smDel_eq_filter]; exact smWf_filter _ h

/-- Setting a value keeps the canonical form. -/
theorem smWf_putD {m : SMap β} (k : Nat) (v : β) (h : smWf d m = true) : smWf d (smPutD (d k) m k v) = true := by
  unfold smPutD
  split
  · exact smWf_del k h
  · next hv =>
    unfold smWf at h ⊢
    simp only [Bool.and_eq_true] at h ⊢
    exact ⟨smSortedFrom_put h.1 (Nat.zero_le _), smPut_all h.2 (by simpa using hv)⟩

theorem smWf_modD {m : SMap β} (k : Nat) (f : β → β) (h : smWf d m = true) : smWf d (smModD (d k) m k f) = true :=
  smWf_putD k _ h
end

end Sys2Proof.Machine
end

