-- ==== Sys2Proof/Laws/Regs.lean ====
section
/-! SUPPORT. Laws of the register file: reading back a register, a field or a bit that was written, and reading another; and what an
event and a count change. -/

namespace Sys2Proof.Machine

/-- The key of a register tells page and offset apart. -/
theorem key_ne {u o u' o' : Nat} (h : o < 4096) (h' : o' < 4096) (hne : u ≠ u' ∨ o ≠ o') : u * 4096 + o ≠ u' * 4096 + o' := by omega

@[simp] theorem rd_wr_self (d : Dev) (u o : Nat) (v : W64) : rd (wr d u o v) u o = v := by
  unfold rd wr
  exact smGetD_putD_self (resetVal u o) d.regs (u * 4096 + o) v

theorem rd_wr_ne (d : Dev) {u o u' o' : Nat} (v : W64) (h : u' * 4096 + o' ≠ u * 4096 + o) : rd (wr d u o v) u' o' = rd d u' o' := by
  unfold rd wr
  simp only
  rw [smGet_putD_ne (resetVal u o) d.regs v h]

/-- Reading any register after a write. -/
theorem rd_wr (d : Dev) (u o u' o' : Nat) (v : W64) (h : o < 4096) (h' : o' < 4096) :
    rd (wr d u o v) u' o' = if u' = u ∧ o' = o then v else rd d u' o' := by
  split
  · next e => obtain ⟨rfl, rfl⟩ := e; exact rd_wr_self d _ _ v
  · next e => exact rd_wr_ne d v (by omega)

@[simp] theorem rdN_wrN_self (d : Dev) (u o n : Nat) : rdN (wrN d u o n) u o = n % 2 ^ 64 := by
  simp [rdN, wrN, BitVec.toNat_ofNat]

theorem rdN_wrN_ne (d : Dev) {u o u' o' : Nat} (n : Nat) (h : u' * 4096 + o' ≠ u * 4096 + o) :
    rdN (wrN d u o n) u' o' = rdN d u' o' := by
  unfold rdN wrN; rw [rd_wr_ne d _ h]

theorem rdN_wrF_ne (d : Dev) {u o u' o' : Nat} (hi lo n : Nat) (h : u' * 4096 + o' ≠ u * 4096 + o) :
    rdN (wrF d u o hi lo n) u' o' = rdN d u' o' := by
  unfold rdN wrF; rw [rd_wr_ne d _ h]

theorem rdF_wrF_self (d : Dev) (u o : Nat) {hi lo : Nat} (n : Nat) (h1 : lo ≤ hi) (h2 : hi < 64) :
    rdF (wrF d u o hi lo n) u o hi lo = n % 2 ^ (hi + 1 - lo) := by
  unfold rdF wrF; rw [rd_wr_self, fld_setFld_self _ _ h1 h2]

theorem rdF_wrF_field (d : Dev) (u o : Nat) {hi lo h l : Nat} (n : Nat) (h1 : lo ≤ hi) (h2 : hi < 64) (h3 : h < lo ∨ hi < l) :
    rdF (wrF d u o hi lo n) u o h l = rdF d u o h l := by
  unfold rdF wrF; rw [rd_wr_self, fld_setFld_ne _ _ h1 h2 h3]

theorem rdF_wr_ne (d : Dev) {u o u' o' : Nat} (v : W64) (hi lo : Nat) (h : u' * 4096 + o' ≠ u * 4096 + o) :
    rdF (wr d u o v) u' o' hi lo = rdF d u' o' hi lo := by
  unfold rdF; rw [rd_wr_ne d _ h]

/-- A bit is a field of one bit. -/
theorem rdB_eq (d : Dev) (u o i : Nat) : rdB d u o i = (rdF d u o i i == 1) := bitAt_eq _ _

theorem rdB_wrF_self (d : Dev) (u o : Nat) {i : Nat} (n : Nat) (h : i < 64) : rdB (wrF d u o i i n) u o i = (n % 2 == 1) := by
  rw [rdB_eq, rdF_wrF_self d u o n (Nat.le_refl i) h, show i + 1 - i = 1 by omega, Nat.pow_one]

theorem rdB_wrF_bit (d : Dev) (u o : Nat) {i j : Nat} (n : Nat) (h : i < 64) (hne : j ≠ i) :
    rdB (wrF d u o i i n) u o j = rdB d u o j := by
  rw [rdB_eq, rdB_eq, rdF_wrF_field d u o n (Nat.le_refl i) h (by omega)]

/-- A write, a count and an event change registers alone. -/
def OnlyRegs (d d' : Dev) : Prop := d' = { d with regs := d'.regs }

theorem OnlyRegs.refl (d : Dev) : OnlyRegs d d := rfl

theorem OnlyRegs.trans {d e f : Dev} (h : OnlyRegs d e) (k : OnlyRegs e f) : OnlyRegs d f := by
  unfold OnlyRegs at *; rw [k, h]

theorem wr_onlyRegs (d : Dev) (u o : Nat) (v : W64) : OnlyRegs d (wr d u o v) := rfl

theorem wrN_onlyRegs (d : Dev) (u o n : Nat) : OnlyRegs d (wrN d u o n) := rfl

theorem wrF_onlyRegs (d : Dev) (u o hi lo n : Nat) : OnlyRegs d (wrF d u o hi lo n) := rfl

theorem bump_onlyRegs (d : Dev) (u o n : Nat) : OnlyRegs d (bump d u o n) := by unfold bump; split <;> rfl

theorem event_onlyRegs (d : Dev) (u e b c : Nat) : OnlyRegs d (event d u e b c) :=
  (wrF_onlyRegs d u e b b 1).trans (bump_onlyRegs _ _ _ _)

/-- A count that advances: modulo its width. -/
theorem rdN_bump_self (d : Dev) (u o n : Nat) :
    rdN (bump d u o n) u o = (rdN d u o + n) % (if isWide u o then 2 ^ 64 else 2 ^ 32) := by
  unfold bump
  split
  · rw [rdN_wrN_self]; simp
  · rw [rdN_wrN_self]; exact Nat.mod_eq_of_lt (Nat.lt_of_lt_of_le (Nat.mod_lt _ (by decide)) (by decide))

theorem rdN_bump_ne (d : Dev) {u o u' o' : Nat} (n : Nat) (h : u' * 4096 + o' ≠ u * 4096 + o) :
    rdN (bump d u o n) u' o' = rdN d u' o' := by
  unfold bump; split <;> exact rdN_wrN_ne d _ h

theorem rd_bump_ne (d : Dev) {u o u' o' : Nat} (n : Nat) (h : u' * 4096 + o' ≠ u * 4096 + o) : rd (bump d u o n) u' o' = rd d u' o' := by
  unfold bump; split <;> exact rd_wr_ne d _ h

theorem rdF_bump_ne (d : Dev) {u o u' o' : Nat} (n hi lo : Nat) (h : u' * 4096 + o' ≠ u * 4096 + o) :
    rdF (bump d u o n) u' o' hi lo = rdF d u' o' hi lo := by
  unfold rdF; rw [rd_bump_ne d n h]

theorem rdB_bump_ne (d : Dev) {u o u' o' : Nat} (n i : Nat) (h : u' * 4096 + o' ≠ u * 4096 + o) :
    rdB (bump d u o n) u' o' i = rdB d u' o' i := by
  unfold rdB; rw [rdN_bump_ne d n h]

/-- An event sets its bit. -/
theorem rdB_event (d : Dev) (u e c : Nat) {b : Nat} (hb : b < 64) (h : u * 4096 + e ≠ u * 4096 + c) : rdB (event d u e b c) u e b = true := by
  unfold event
  rw [rdB_bump_ne _ _ _ h, rdB_wrF_self d u e 1 hb]; rfl

/-- An event advances its count. -/
theorem rdN_event_count (d : Dev) (u e b c : Nat) (h : u * 4096 + c ≠ u * 4096 + e) :
    rdN (event d u e b c) u c = (rdN d u c + 1) % (if isWide u c then 2 ^ 64 else 2 ^ 32) := by
  unfold event
  rw [rdN_bump_self, rdN_wrF_ne d b b 1 h]

/-- An event leaves every other register alone. -/
theorem rd_event_ne (d : Dev) (u e b c : Nat) {u' o' : Nat} (h1 : u' * 4096 + o' ≠ u * 4096 + e) (h2 : u' * 4096 + o' ≠ u * 4096 + c) :
    rd (event d u e b c) u' o' = rd d u' o' := by
  unfold event
  rw [rd_bump_ne _ _ h2]; exact rd_wr_ne d _ h1

/-! ## Health events -/

theorem rd_hltSync (d : Dev) {u o : Nat} (h : u * 4096 + o ≠ Reg.CTL_HLT_SUMMARY) : rd (hltSync d) u o = rd d u o := by
  unfold hltSync
  dsimp only
  split <;> exact rd_wr_ne d _ (by simpa using h)

/-- A class event writes the device page alone. -/
theorem rd_classEvent (d : Dev) {c : Nat} (u f : Nat) {u' o' : Nat} (hc : c ≤ 6) (hu : 4096 ≤ u' * 4096 + o') :
    rd (classEvent d c u f) u' o' = rd d u' o' := by
  unfold classEvent
  rw [rd_hltSync _ (by simp only [Reg.CTL_HLT_SUMMARY]; omega)]
  unfold wrN
  rw [rd_wr_ne _ _ (by simp only [pDev, Reg.CTL_HLT_LAST]; omega),
    rd_event_ne _ _ _ _ _ (by simp only [pDev, Reg.CTL_HLT_EVENTS]; omega) (by simp only [pDev, Reg.CTL_EVT_CLASS]; omega)]

/-- A header event writes the header of its unit and the device page. -/
theorem rd_hdrEvent (d : Dev) (u : Nat) (e : HdrEv) {u' o' : Nat} (hu : 4096 ≤ u' * 4096 + o')
    (h : u' * 4096 + o' < u * 4096 + 0x20 ∨ u * 4096 + 0x48 ≤ u' * 4096 + o') : rd (hdrEvent d u e) u' o' = rd d u' o' := by
  have hb : e.bit ≤ 5 := by cases e <;> decide
  have hev : rd (event d u Reg.UNIT_EVENTS e.bit (Reg.UNIT_EVT_CMD_DONE + 4 * e.bit)) u' o' = rd d u' o' :=
    rd_event_ne _ _ _ _ _ (by simp only [Reg.UNIT_EVENTS]; omega) (by simp only [Reg.UNIT_EVT_CMD_DONE]; omega)
  unfold hdrEvent
  dsimp only
  split
  · rw [rd_classEvent _ _ _ (by decide) hu, hev]
  · exact hev

theorem rd_noted (d : Dev) (g u : Nat) {u' o' : Nat} (hu : 4096 ≤ u' * 4096 + o')
    (h : u' * 4096 + o' < u * 4096 + 0x20 ∨ u * 4096 + 0x48 ≤ u' * 4096 + o') : rd (noted d g u) u' o' = rd d u' o' := by
  unfold noted
  split
  · exact rd_hdrEvent d u _ hu h
  · rfl

end Sys2Proof.Machine
end

