-- ==== Sys2Proof/Laws/State.lean ====
section
/-! SUPPORT. Laws of the state: what each field of the device is after each of the updates of Machine/Ops.lean (one lemma per field per
update), and what a cell, comb, partition or context is after one is changed. -/

namespace Sys2Proof.Machine

/-! ## wr -/

@[simp] theorem wr_fuses (d : Dev) (u o : Nat) (v : W64) : (wr d u o v).fuses = d.fuses := rfl
@[simp] theorem wr_powered (d : Dev) (u o : Nat) (v : W64) : (wr d u o v).powered = d.powered := rfl
@[simp] theorem wr_pins (d : Dev) (u o : Nat) (v : W64) : (wr d u o v).pins = d.pins := rfl
@[simp] theorem wr_hall (d : Dev) (u o : Nat) (v : W64) : (wr d u o v).hall = d.hall := rfl
@[simp] theorem wr_mem (d : Dev) (u o : Nat) (v : W64) : (wr d u o v).mem = d.mem := rfl
@[simp] theorem wr_marks (d : Dev) (u o : Nat) (v : W64) : (wr d u o v).marks = d.marks := rfl
@[simp] theorem wr_acc (d : Dev) (u o : Nat) (v : W64) : (wr d u o v).acc = d.acc := rfl
@[simp] theorem wr_cells (d : Dev) (u o : Nat) (v : W64) : (wr d u o v).cells = d.cells := rfl
@[simp] theorem wr_combs (d : Dev) (u o : Nat) (v : W64) : (wr d u o v).combs = d.combs := rfl
@[simp] theorem wr_vat (d : Dev) (u o : Nat) (v : W64) : (wr d u o v).vat = d.vat := rfl
@[simp] theorem wr_parts (d : Dev) (u o : Nat) (v : W64) : (wr d u o v).parts = d.parts := rfl
@[simp] theorem wr_ctxs (d : Dev) (u o : Nat) (v : W64) : (wr d u o v).ctxs = d.ctxs := rfl
@[simp] theorem wr_rmt (d : Dev) (u o : Nat) (v : W64) : (wr d u o v).rmt = d.rmt := rfl
@[simp] theorem wr_fab (d : Dev) (u o : Nat) (v : W64) : (wr d u o v).fab = d.fab := rfl
@[simp] theorem wr_tier (d : Dev) (u o : Nat) (v : W64) : (wr d u o v).tier = d.tier := rfl
@[simp] theorem wr_pwr (d : Dev) (u o : Nat) (v : W64) : (wr d u o v).pwr = d.pwr := rfl
@[simp] theorem wr_runs (d : Dev) (u o : Nat) (v : W64) : (wr d u o v).runs = d.runs := rfl
@[simp] theorem wr_cellMap (d : Dev) (u o : Nat) (v : W64) : (wr d u o v).cellMap = d.cellMap := rfl
@[simp] theorem wr_combMap (d : Dev) (u o : Nat) (v : W64) : (wr d u o v).combMap = d.combMap := rfl
@[simp] theorem wr_host (d : Dev) (u o : Nat) (v : W64) : (wr d u o v).host = d.host := rfl
@[simp] theorem wr_cpx (d : Dev) (u o : Nat) (v : W64) : (wr d u o v).cpx = d.cpx := rfl
@[simp] theorem wr_sec (d : Dev) (u o : Nat) (v : W64) : (wr d u o v).sec = d.sec := rfl
@[simp] theorem wr_wgl (d : Dev) (u o : Nat) (v : W64) : (wr d u o v).wgl = d.wgl := rfl
@[simp] theorem wr_swm (d : Dev) (u o : Nat) (v : W64) : (wr d u o v).swm = d.swm := rfl
@[simp] theorem wr_groups (d : Dev) (u o : Nat) (v : W64) : (wr d u o v).groups = d.groups := rfl
@[simp] theorem wr_col (d : Dev) (u o : Nat) (v : W64) : (wr d u o v).col = d.col := rfl
@[simp] theorem wr_brd (d : Dev) (u o : Nat) (v : W64) : (wr d u o v).brd = d.brd := rfl
@[simp] theorem wr_bup (d : Dev) (u o : Nat) (v : W64) : (wr d u o v).bup = d.bup := rfl
@[simp] theorem wr_tim (d : Dev) (u o : Nat) (v : W64) : (wr d u o v).tim = d.tim := rfl
@[simp] theorem wr_ls (d : Dev) (u o : Nat) (v : W64) : (wr d u o v).ls = d.ls := rfl
@[simp] theorem wr_freeSeq (d : Dev) (u o : Nat) (v : W64) : (wr d u o v).freeSeq = d.freeSeq := rfl

/-! ## wrN -/

@[simp] theorem wrN_fuses (d : Dev) (u o n : Nat) : (wrN d u o n).fuses = d.fuses := rfl
@[simp] theorem wrN_powered (d : Dev) (u o n : Nat) : (wrN d u o n).powered = d.powered := rfl
@[simp] theorem wrN_pins (d : Dev) (u o n : Nat) : (wrN d u o n).pins = d.pins := rfl
@[simp] theorem wrN_hall (d : Dev) (u o n : Nat) : (wrN d u o n).hall = d.hall := rfl
@[simp] theorem wrN_mem (d : Dev) (u o n : Nat) : (wrN d u o n).mem = d.mem := rfl
@[simp] theorem wrN_marks (d : Dev) (u o n : Nat) : (wrN d u o n).marks = d.marks := rfl
@[simp] theorem wrN_acc (d : Dev) (u o n : Nat) : (wrN d u o n).acc = d.acc := rfl
@[simp] theorem wrN_cells (d : Dev) (u o n : Nat) : (wrN d u o n).cells = d.cells := rfl
@[simp] theorem wrN_combs (d : Dev) (u o n : Nat) : (wrN d u o n).combs = d.combs := rfl
@[simp] theorem wrN_vat (d : Dev) (u o n : Nat) : (wrN d u o n).vat = d.vat := rfl
@[simp] theorem wrN_parts (d : Dev) (u o n : Nat) : (wrN d u o n).parts = d.parts := rfl
@[simp] theorem wrN_ctxs (d : Dev) (u o n : Nat) : (wrN d u o n).ctxs = d.ctxs := rfl
@[simp] theorem wrN_rmt (d : Dev) (u o n : Nat) : (wrN d u o n).rmt = d.rmt := rfl
@[simp] theorem wrN_fab (d : Dev) (u o n : Nat) : (wrN d u o n).fab = d.fab := rfl
@[simp] theorem wrN_tier (d : Dev) (u o n : Nat) : (wrN d u o n).tier = d.tier := rfl
@[simp] theorem wrN_pwr (d : Dev) (u o n : Nat) : (wrN d u o n).pwr = d.pwr := rfl
@[simp] theorem wrN_runs (d : Dev) (u o n : Nat) : (wrN d u o n).runs = d.runs := rfl
@[simp] theorem wrN_cellMap (d : Dev) (u o n : Nat) : (wrN d u o n).cellMap = d.cellMap := rfl
@[simp] theorem wrN_combMap (d : Dev) (u o n : Nat) : (wrN d u o n).combMap = d.combMap := rfl
@[simp] theorem wrN_host (d : Dev) (u o n : Nat) : (wrN d u o n).host = d.host := rfl
@[simp] theorem wrN_cpx (d : Dev) (u o n : Nat) : (wrN d u o n).cpx = d.cpx := rfl
@[simp] theorem wrN_sec (d : Dev) (u o n : Nat) : (wrN d u o n).sec = d.sec := rfl
@[simp] theorem wrN_wgl (d : Dev) (u o n : Nat) : (wrN d u o n).wgl = d.wgl := rfl
@[simp] theorem wrN_swm (d : Dev) (u o n : Nat) : (wrN d u o n).swm = d.swm := rfl
@[simp] theorem wrN_groups (d : Dev) (u o n : Nat) : (wrN d u o n).groups = d.groups := rfl
@[simp] theorem wrN_col (d : Dev) (u o n : Nat) : (wrN d u o n).col = d.col := rfl
@[simp] theorem wrN_brd (d : Dev) (u o n : Nat) : (wrN d u o n).brd = d.brd := rfl
@[simp] theorem wrN_bup (d : Dev) (u o n : Nat) : (wrN d u o n).bup = d.bup := rfl
@[simp] theorem wrN_tim (d : Dev) (u o n : Nat) : (wrN d u o n).tim = d.tim := rfl
@[simp] theorem wrN_ls (d : Dev) (u o n : Nat) : (wrN d u o n).ls = d.ls := rfl
@[simp] theorem wrN_freeSeq (d : Dev) (u o n : Nat) : (wrN d u o n).freeSeq = d.freeSeq := rfl

/-! ## wrF -/

@[simp] theorem wrF_fuses (d : Dev) (u o hi lo n : Nat) : (wrF d u o hi lo n).fuses = d.fuses := rfl
@[simp] theorem wrF_powered (d : Dev) (u o hi lo n : Nat) : (wrF d u o hi lo n).powered = d.powered := rfl
@[simp] theorem wrF_pins (d : Dev) (u o hi lo n : Nat) : (wrF d u o hi lo n).pins = d.pins := rfl
@[simp] theorem wrF_hall (d : Dev) (u o hi lo n : Nat) : (wrF d u o hi lo n).hall = d.hall := rfl
@[simp] theorem wrF_mem (d : Dev) (u o hi lo n : Nat) : (wrF d u o hi lo n).mem = d.mem := rfl
@[simp] theorem wrF_marks (d : Dev) (u o hi lo n : Nat) : (wrF d u o hi lo n).marks = d.marks := rfl
@[simp] theorem wrF_acc (d : Dev) (u o hi lo n : Nat) : (wrF d u o hi lo n).acc = d.acc := rfl
@[simp] theorem wrF_cells (d : Dev) (u o hi lo n : Nat) : (wrF d u o hi lo n).cells = d.cells := rfl
@[simp] theorem wrF_combs (d : Dev) (u o hi lo n : Nat) : (wrF d u o hi lo n).combs = d.combs := rfl
@[simp] theorem wrF_vat (d : Dev) (u o hi lo n : Nat) : (wrF d u o hi lo n).vat = d.vat := rfl
@[simp] theorem wrF_parts (d : Dev) (u o hi lo n : Nat) : (wrF d u o hi lo n).parts = d.parts := rfl
@[simp] theorem wrF_ctxs (d : Dev) (u o hi lo n : Nat) : (wrF d u o hi lo n).ctxs = d.ctxs := rfl
@[simp] theorem wrF_rmt (d : Dev) (u o hi lo n : Nat) : (wrF d u o hi lo n).rmt = d.rmt := rfl
@[simp] theorem wrF_fab (d : Dev) (u o hi lo n : Nat) : (wrF d u o hi lo n).fab = d.fab := rfl
@[simp] theorem wrF_tier (d : Dev) (u o hi lo n : Nat) : (wrF d u o hi lo n).tier = d.tier := rfl
@[simp] theorem wrF_pwr (d : Dev) (u o hi lo n : Nat) : (wrF d u o hi lo n).pwr = d.pwr := rfl
@[simp] theorem wrF_runs (d : Dev) (u o hi lo n : Nat) : (wrF d u o hi lo n).runs = d.runs := rfl
@[simp] theorem wrF_cellMap (d : Dev) (u o hi lo n : Nat) : (wrF d u o hi lo n).cellMap = d.cellMap := rfl
@[simp] theorem wrF_combMap (d : Dev) (u o hi lo n : Nat) : (wrF d u o hi lo n).combMap = d.combMap := rfl
@[simp] theorem wrF_host (d : Dev) (u o hi lo n : Nat) : (wrF d u o hi lo n).host = d.host := rfl
@[simp] theorem wrF_cpx (d : Dev) (u o hi lo n : Nat) : (wrF d u o hi lo n).cpx = d.cpx := rfl
@[simp] theorem wrF_sec (d : Dev) (u o hi lo n : Nat) : (wrF d u o hi lo n).sec = d.sec := rfl
@[simp] theorem wrF_wgl (d : Dev) (u o hi lo n : Nat) : (wrF d u o hi lo n).wgl = d.wgl := rfl
@[simp] theorem wrF_swm (d : Dev) (u o hi lo n : Nat) : (wrF d u o hi lo n).swm = d.swm := rfl
@[simp] theorem wrF_groups (d : Dev) (u o hi lo n : Nat) : (wrF d u o hi lo n).groups = d.groups := rfl
@[simp] theorem wrF_col (d : Dev) (u o hi lo n : Nat) : (wrF d u o hi lo n).col = d.col := rfl
@[simp] theorem wrF_brd (d : Dev) (u o hi lo n : Nat) : (wrF d u o hi lo n).brd = d.brd := rfl
@[simp] theorem wrF_bup (d : Dev) (u o hi lo n : Nat) : (wrF d u o hi lo n).bup = d.bup := rfl
@[simp] theorem wrF_tim (d : Dev) (u o hi lo n : Nat) : (wrF d u o hi lo n).tim = d.tim := rfl
@[simp] theorem wrF_ls (d : Dev) (u o hi lo n : Nat) : (wrF d u o hi lo n).ls = d.ls := rfl
@[simp] theorem wrF_freeSeq (d : Dev) (u o hi lo n : Nat) : (wrF d u o hi lo n).freeSeq = d.freeSeq := rfl

/-! ## modCell -/

@[simp] theorem modCell_fuses (d : Dev) (c : Nat) (g : CellSt → CellSt) : (modCell d c g).fuses = d.fuses := rfl
@[simp] theorem modCell_powered (d : Dev) (c : Nat) (g : CellSt → CellSt) : (modCell d c g).powered = d.powered := rfl
@[simp] theorem modCell_pins (d : Dev) (c : Nat) (g : CellSt → CellSt) : (modCell d c g).pins = d.pins := rfl
@[simp] theorem modCell_hall (d : Dev) (c : Nat) (g : CellSt → CellSt) : (modCell d c g).hall = d.hall := rfl
@[simp] theorem modCell_regs (d : Dev) (c : Nat) (g : CellSt → CellSt) : (modCell d c g).regs = d.regs := rfl
@[simp] theorem modCell_mem (d : Dev) (c : Nat) (g : CellSt → CellSt) : (modCell d c g).mem = d.mem := rfl
@[simp] theorem modCell_marks (d : Dev) (c : Nat) (g : CellSt → CellSt) : (modCell d c g).marks = d.marks := rfl
@[simp] theorem modCell_acc (d : Dev) (c : Nat) (g : CellSt → CellSt) : (modCell d c g).acc = d.acc := rfl
@[simp] theorem modCell_combs (d : Dev) (c : Nat) (g : CellSt → CellSt) : (modCell d c g).combs = d.combs := rfl
@[simp] theorem modCell_vat (d : Dev) (c : Nat) (g : CellSt → CellSt) : (modCell d c g).vat = d.vat := rfl
@[simp] theorem modCell_parts (d : Dev) (c : Nat) (g : CellSt → CellSt) : (modCell d c g).parts = d.parts := rfl
@[simp] theorem modCell_ctxs (d : Dev) (c : Nat) (g : CellSt → CellSt) : (modCell d c g).ctxs = d.ctxs := rfl
@[simp] theorem modCell_rmt (d : Dev) (c : Nat) (g : CellSt → CellSt) : (modCell d c g).rmt = d.rmt := rfl
@[simp] theorem modCell_fab (d : Dev) (c : Nat) (g : CellSt → CellSt) : (modCell d c g).fab = d.fab := rfl
@[simp] theorem modCell_tier (d : Dev) (c : Nat) (g : CellSt → CellSt) : (modCell d c g).tier = d.tier := rfl
@[simp] theorem modCell_pwr (d : Dev) (c : Nat) (g : CellSt → CellSt) : (modCell d c g).pwr = d.pwr := rfl
@[simp] theorem modCell_runs (d : Dev) (c : Nat) (g : CellSt → CellSt) : (modCell d c g).runs = d.runs := rfl
@[simp] theorem modCell_cellMap (d : Dev) (c : Nat) (g : CellSt → CellSt) : (modCell d c g).cellMap = d.cellMap := rfl
@[simp] theorem modCell_combMap (d : Dev) (c : Nat) (g : CellSt → CellSt) : (modCell d c g).combMap = d.combMap := rfl
@[simp] theorem modCell_host (d : Dev) (c : Nat) (g : CellSt → CellSt) : (modCell d c g).host = d.host := rfl
@[simp] theorem modCell_cpx (d : Dev) (c : Nat) (g : CellSt → CellSt) : (modCell d c g).cpx = d.cpx := rfl
@[simp] theorem modCell_sec (d : Dev) (c : Nat) (g : CellSt → CellSt) : (modCell d c g).sec = d.sec := rfl
@[simp] theorem modCell_wgl (d : Dev) (c : Nat) (g : CellSt → CellSt) : (modCell d c g).wgl = d.wgl := rfl
@[simp] theorem modCell_swm (d : Dev) (c : Nat) (g : CellSt → CellSt) : (modCell d c g).swm = d.swm := rfl
@[simp] theorem modCell_groups (d : Dev) (c : Nat) (g : CellSt → CellSt) : (modCell d c g).groups = d.groups := rfl
@[simp] theorem modCell_col (d : Dev) (c : Nat) (g : CellSt → CellSt) : (modCell d c g).col = d.col := rfl
@[simp] theorem modCell_brd (d : Dev) (c : Nat) (g : CellSt → CellSt) : (modCell d c g).brd = d.brd := rfl
@[simp] theorem modCell_bup (d : Dev) (c : Nat) (g : CellSt → CellSt) : (modCell d c g).bup = d.bup := rfl
@[simp] theorem modCell_tim (d : Dev) (c : Nat) (g : CellSt → CellSt) : (modCell d c g).tim = d.tim := rfl
@[simp] theorem modCell_ls (d : Dev) (c : Nat) (g : CellSt → CellSt) : (modCell d c g).ls = d.ls := rfl
@[simp] theorem modCell_freeSeq (d : Dev) (c : Nat) (g : CellSt → CellSt) : (modCell d c g).freeSeq = d.freeSeq := rfl

/-! ## modComb -/

@[simp] theorem modComb_fuses (d : Dev) (k : Nat) (g : CombSt → CombSt) : (modComb d k g).fuses = d.fuses := rfl
@[simp] theorem modComb_powered (d : Dev) (k : Nat) (g : CombSt → CombSt) : (modComb d k g).powered = d.powered := rfl
@[simp] theorem modComb_pins (d : Dev) (k : Nat) (g : CombSt → CombSt) : (modComb d k g).pins = d.pins := rfl
@[simp] theorem modComb_hall (d : Dev) (k : Nat) (g : CombSt → CombSt) : (modComb d k g).hall = d.hall := rfl
@[simp] theorem modComb_regs (d : Dev) (k : Nat) (g : CombSt → CombSt) : (modComb d k g).regs = d.regs := rfl
@[simp] theorem modComb_mem (d : Dev) (k : Nat) (g : CombSt → CombSt) : (modComb d k g).mem = d.mem := rfl
@[simp] theorem modComb_marks (d : Dev) (k : Nat) (g : CombSt → CombSt) : (modComb d k g).marks = d.marks := rfl
@[simp] theorem modComb_acc (d : Dev) (k : Nat) (g : CombSt → CombSt) : (modComb d k g).acc = d.acc := rfl
@[simp] theorem modComb_cells (d : Dev) (k : Nat) (g : CombSt → CombSt) : (modComb d k g).cells = d.cells := rfl
@[simp] theorem modComb_vat (d : Dev) (k : Nat) (g : CombSt → CombSt) : (modComb d k g).vat = d.vat := rfl
@[simp] theorem modComb_parts (d : Dev) (k : Nat) (g : CombSt → CombSt) : (modComb d k g).parts = d.parts := rfl
@[simp] theorem modComb_ctxs (d : Dev) (k : Nat) (g : CombSt → CombSt) : (modComb d k g).ctxs = d.ctxs := rfl
@[simp] theorem modComb_rmt (d : Dev) (k : Nat) (g : CombSt → CombSt) : (modComb d k g).rmt = d.rmt := rfl
@[simp] theorem modComb_fab (d : Dev) (k : Nat) (g : CombSt → CombSt) : (modComb d k g).fab = d.fab := rfl
@[simp] theorem modComb_tier (d : Dev) (k : Nat) (g : CombSt → CombSt) : (modComb d k g).tier = d.tier := rfl
@[simp] theorem modComb_pwr (d : Dev) (k : Nat) (g : CombSt → CombSt) : (modComb d k g).pwr = d.pwr := rfl
@[simp] theorem modComb_runs (d : Dev) (k : Nat) (g : CombSt → CombSt) : (modComb d k g).runs = d.runs := rfl
@[simp] theorem modComb_cellMap (d : Dev) (k : Nat) (g : CombSt → CombSt) : (modComb d k g).cellMap = d.cellMap := rfl
@[simp] theorem modComb_combMap (d : Dev) (k : Nat) (g : CombSt → CombSt) : (modComb d k g).combMap = d.combMap := rfl
@[simp] theorem modComb_host (d : Dev) (k : Nat) (g : CombSt → CombSt) : (modComb d k g).host = d.host := rfl
@[simp] theorem modComb_cpx (d : Dev) (k : Nat) (g : CombSt → CombSt) : (modComb d k g).cpx = d.cpx := rfl
@[simp] theorem modComb_sec (d : Dev) (k : Nat) (g : CombSt → CombSt) : (modComb d k g).sec = d.sec := rfl
@[simp] theorem modComb_wgl (d : Dev) (k : Nat) (g : CombSt → CombSt) : (modComb d k g).wgl = d.wgl := rfl
@[simp] theorem modComb_swm (d : Dev) (k : Nat) (g : CombSt → CombSt) : (modComb d k g).swm = d.swm := rfl
@[simp] theorem modComb_groups (d : Dev) (k : Nat) (g : CombSt → CombSt) : (modComb d k g).groups = d.groups := rfl
@[simp] theorem modComb_col (d : Dev) (k : Nat) (g : CombSt → CombSt) : (modComb d k g).col = d.col := rfl
@[simp] theorem modComb_brd (d : Dev) (k : Nat) (g : CombSt → CombSt) : (modComb d k g).brd = d.brd := rfl
@[simp] theorem modComb_bup (d : Dev) (k : Nat) (g : CombSt → CombSt) : (modComb d k g).bup = d.bup := rfl
@[simp] theorem modComb_tim (d : Dev) (k : Nat) (g : CombSt → CombSt) : (modComb d k g).tim = d.tim := rfl
@[simp] theorem modComb_ls (d : Dev) (k : Nat) (g : CombSt → CombSt) : (modComb d k g).ls = d.ls := rfl
@[simp] theorem modComb_freeSeq (d : Dev) (k : Nat) (g : CombSt → CombSt) : (modComb d k g).freeSeq = d.freeSeq := rfl

/-! ## modPart -/

@[simp] theorem modPart_fuses (d : Dev) (p : Nat) (g : PartSt → PartSt) : (modPart d p g).fuses = d.fuses := rfl
@[simp] theorem modPart_powered (d : Dev) (p : Nat) (g : PartSt → PartSt) : (modPart d p g).powered = d.powered := rfl
@[simp] theorem modPart_pins (d : Dev) (p : Nat) (g : PartSt → PartSt) : (modPart d p g).pins = d.pins := rfl
@[simp] theorem modPart_hall (d : Dev) (p : Nat) (g : PartSt → PartSt) : (modPart d p g).hall = d.hall := rfl
@[simp] theorem modPart_regs (d : Dev) (p : Nat) (g : PartSt → PartSt) : (modPart d p g).regs = d.regs := rfl
@[simp] theorem modPart_mem (d : Dev) (p : Nat) (g : PartSt → PartSt) : (modPart d p g).mem = d.mem := rfl
@[simp] theorem modPart_marks (d : Dev) (p : Nat) (g : PartSt → PartSt) : (modPart d p g).marks = d.marks := rfl
@[simp] theorem modPart_acc (d : Dev) (p : Nat) (g : PartSt → PartSt) : (modPart d p g).acc = d.acc := rfl
@[simp] theorem modPart_cells (d : Dev) (p : Nat) (g : PartSt → PartSt) : (modPart d p g).cells = d.cells := rfl
@[simp] theorem modPart_combs (d : Dev) (p : Nat) (g : PartSt → PartSt) : (modPart d p g).combs = d.combs := rfl
@[simp] theorem modPart_vat (d : Dev) (p : Nat) (g : PartSt → PartSt) : (modPart d p g).vat = d.vat := rfl
@[simp] theorem modPart_ctxs (d : Dev) (p : Nat) (g : PartSt → PartSt) : (modPart d p g).ctxs = d.ctxs := rfl
@[simp] theorem modPart_rmt (d : Dev) (p : Nat) (g : PartSt → PartSt) : (modPart d p g).rmt = d.rmt := rfl
@[simp] theorem modPart_fab (d : Dev) (p : Nat) (g : PartSt → PartSt) : (modPart d p g).fab = d.fab := rfl
@[simp] theorem modPart_tier (d : Dev) (p : Nat) (g : PartSt → PartSt) : (modPart d p g).tier = d.tier := rfl
@[simp] theorem modPart_pwr (d : Dev) (p : Nat) (g : PartSt → PartSt) : (modPart d p g).pwr = d.pwr := rfl
@[simp] theorem modPart_runs (d : Dev) (p : Nat) (g : PartSt → PartSt) : (modPart d p g).runs = d.runs := rfl
@[simp] theorem modPart_cellMap (d : Dev) (p : Nat) (g : PartSt → PartSt) : (modPart d p g).cellMap = d.cellMap := rfl
@[simp] theorem modPart_combMap (d : Dev) (p : Nat) (g : PartSt → PartSt) : (modPart d p g).combMap = d.combMap := rfl
@[simp] theorem modPart_host (d : Dev) (p : Nat) (g : PartSt → PartSt) : (modPart d p g).host = d.host := rfl
@[simp] theorem modPart_cpx (d : Dev) (p : Nat) (g : PartSt → PartSt) : (modPart d p g).cpx = d.cpx := rfl
@[simp] theorem modPart_sec (d : Dev) (p : Nat) (g : PartSt → PartSt) : (modPart d p g).sec = d.sec := rfl
@[simp] theorem modPart_wgl (d : Dev) (p : Nat) (g : PartSt → PartSt) : (modPart d p g).wgl = d.wgl := rfl
@[simp] theorem modPart_swm (d : Dev) (p : Nat) (g : PartSt → PartSt) : (modPart d p g).swm = d.swm := rfl
@[simp] theorem modPart_groups (d : Dev) (p : Nat) (g : PartSt → PartSt) : (modPart d p g).groups = d.groups := rfl
@[simp] theorem modPart_col (d : Dev) (p : Nat) (g : PartSt → PartSt) : (modPart d p g).col = d.col := rfl
@[simp] theorem modPart_brd (d : Dev) (p : Nat) (g : PartSt → PartSt) : (modPart d p g).brd = d.brd := rfl
@[simp] theorem modPart_bup (d : Dev) (p : Nat) (g : PartSt → PartSt) : (modPart d p g).bup = d.bup := rfl
@[simp] theorem modPart_tim (d : Dev) (p : Nat) (g : PartSt → PartSt) : (modPart d p g).tim = d.tim := rfl
@[simp] theorem modPart_ls (d : Dev) (p : Nat) (g : PartSt → PartSt) : (modPart d p g).ls = d.ls := rfl
@[simp] theorem modPart_freeSeq (d : Dev) (p : Nat) (g : PartSt → PartSt) : (modPart d p g).freeSeq = d.freeSeq := rfl

/-! ## modCtx -/

@[simp] theorem modCtx_fuses (d : Dev) (c : Nat) (g : Ctx → Ctx) : (modCtx d c g).fuses = d.fuses := rfl
@[simp] theorem modCtx_powered (d : Dev) (c : Nat) (g : Ctx → Ctx) : (modCtx d c g).powered = d.powered := rfl
@[simp] theorem modCtx_pins (d : Dev) (c : Nat) (g : Ctx → Ctx) : (modCtx d c g).pins = d.pins := rfl
@[simp] theorem modCtx_hall (d : Dev) (c : Nat) (g : Ctx → Ctx) : (modCtx d c g).hall = d.hall := rfl
@[simp] theorem modCtx_regs (d : Dev) (c : Nat) (g : Ctx → Ctx) : (modCtx d c g).regs = d.regs := rfl
@[simp] theorem modCtx_mem (d : Dev) (c : Nat) (g : Ctx → Ctx) : (modCtx d c g).mem = d.mem := rfl
@[simp] theorem modCtx_marks (d : Dev) (c : Nat) (g : Ctx → Ctx) : (modCtx d c g).marks = d.marks := rfl
@[simp] theorem modCtx_acc (d : Dev) (c : Nat) (g : Ctx → Ctx) : (modCtx d c g).acc = d.acc := rfl
@[simp] theorem modCtx_cells (d : Dev) (c : Nat) (g : Ctx → Ctx) : (modCtx d c g).cells = d.cells := rfl
@[simp] theorem modCtx_combs (d : Dev) (c : Nat) (g : Ctx → Ctx) : (modCtx d c g).combs = d.combs := rfl
@[simp] theorem modCtx_vat (d : Dev) (c : Nat) (g : Ctx → Ctx) : (modCtx d c g).vat = d.vat := rfl
@[simp] theorem modCtx_parts (d : Dev) (c : Nat) (g : Ctx → Ctx) : (modCtx d c g).parts = d.parts := rfl
@[simp] theorem modCtx_rmt (d : Dev) (c : Nat) (g : Ctx → Ctx) : (modCtx d c g).rmt = d.rmt := rfl
@[simp] theorem modCtx_fab (d : Dev) (c : Nat) (g : Ctx → Ctx) : (modCtx d c g).fab = d.fab := rfl
@[simp] theorem modCtx_tier (d : Dev) (c : Nat) (g : Ctx → Ctx) : (modCtx d c g).tier = d.tier := rfl
@[simp] theorem modCtx_pwr (d : Dev) (c : Nat) (g : Ctx → Ctx) : (modCtx d c g).pwr = d.pwr := rfl
@[simp] theorem modCtx_runs (d : Dev) (c : Nat) (g : Ctx → Ctx) : (modCtx d c g).runs = d.runs := rfl
@[simp] theorem modCtx_cellMap (d : Dev) (c : Nat) (g : Ctx → Ctx) : (modCtx d c g).cellMap = d.cellMap := rfl
@[simp] theorem modCtx_combMap (d : Dev) (c : Nat) (g : Ctx → Ctx) : (modCtx d c g).combMap = d.combMap := rfl
@[simp] theorem modCtx_host (d : Dev) (c : Nat) (g : Ctx → Ctx) : (modCtx d c g).host = d.host := rfl
@[simp] theorem modCtx_cpx (d : Dev) (c : Nat) (g : Ctx → Ctx) : (modCtx d c g).cpx = d.cpx := rfl
@[simp] theorem modCtx_sec (d : Dev) (c : Nat) (g : Ctx → Ctx) : (modCtx d c g).sec = d.sec := rfl
@[simp] theorem modCtx_wgl (d : Dev) (c : Nat) (g : Ctx → Ctx) : (modCtx d c g).wgl = d.wgl := rfl
@[simp] theorem modCtx_swm (d : Dev) (c : Nat) (g : Ctx → Ctx) : (modCtx d c g).swm = d.swm := rfl
@[simp] theorem modCtx_groups (d : Dev) (c : Nat) (g : Ctx → Ctx) : (modCtx d c g).groups = d.groups := rfl
@[simp] theorem modCtx_col (d : Dev) (c : Nat) (g : Ctx → Ctx) : (modCtx d c g).col = d.col := rfl
@[simp] theorem modCtx_brd (d : Dev) (c : Nat) (g : Ctx → Ctx) : (modCtx d c g).brd = d.brd := rfl
@[simp] theorem modCtx_bup (d : Dev) (c : Nat) (g : Ctx → Ctx) : (modCtx d c g).bup = d.bup := rfl
@[simp] theorem modCtx_tim (d : Dev) (c : Nat) (g : Ctx → Ctx) : (modCtx d c g).tim = d.tim := rfl
@[simp] theorem modCtx_ls (d : Dev) (c : Nat) (g : Ctx → Ctx) : (modCtx d c g).ls = d.ls := rfl
@[simp] theorem modCtx_freeSeq (d : Dev) (c : Nat) (g : Ctx → Ctx) : (modCtx d c g).freeSeq = d.freeSeq := rfl

/-! ## drawFree -/

@[simp] theorem drawFree_fuses (d : Dev) : (drawFree d).fuses = d.fuses := rfl
@[simp] theorem drawFree_powered (d : Dev) : (drawFree d).powered = d.powered := rfl
@[simp] theorem drawFree_pins (d : Dev) : (drawFree d).pins = d.pins := rfl
@[simp] theorem drawFree_hall (d : Dev) : (drawFree d).hall = d.hall := rfl
@[simp] theorem drawFree_regs (d : Dev) : (drawFree d).regs = d.regs := rfl
@[simp] theorem drawFree_mem (d : Dev) : (drawFree d).mem = d.mem := rfl
@[simp] theorem drawFree_marks (d : Dev) : (drawFree d).marks = d.marks := rfl
@[simp] theorem drawFree_acc (d : Dev) : (drawFree d).acc = d.acc := rfl
@[simp] theorem drawFree_cells (d : Dev) : (drawFree d).cells = d.cells := rfl
@[simp] theorem drawFree_combs (d : Dev) : (drawFree d).combs = d.combs := rfl
@[simp] theorem drawFree_vat (d : Dev) : (drawFree d).vat = d.vat := rfl
@[simp] theorem drawFree_parts (d : Dev) : (drawFree d).parts = d.parts := rfl
@[simp] theorem drawFree_ctxs (d : Dev) : (drawFree d).ctxs = d.ctxs := rfl
@[simp] theorem drawFree_rmt (d : Dev) : (drawFree d).rmt = d.rmt := rfl
@[simp] theorem drawFree_fab (d : Dev) : (drawFree d).fab = d.fab := rfl
@[simp] theorem drawFree_tier (d : Dev) : (drawFree d).tier = d.tier := rfl
@[simp] theorem drawFree_pwr (d : Dev) : (drawFree d).pwr = d.pwr := rfl
@[simp] theorem drawFree_runs (d : Dev) : (drawFree d).runs = d.runs := rfl
@[simp] theorem drawFree_cellMap (d : Dev) : (drawFree d).cellMap = d.cellMap := rfl
@[simp] theorem drawFree_combMap (d : Dev) : (drawFree d).combMap = d.combMap := rfl
@[simp] theorem drawFree_host (d : Dev) : (drawFree d).host = d.host := rfl
@[simp] theorem drawFree_cpx (d : Dev) : (drawFree d).cpx = d.cpx := rfl
@[simp] theorem drawFree_sec (d : Dev) : (drawFree d).sec = d.sec := rfl
@[simp] theorem drawFree_wgl (d : Dev) : (drawFree d).wgl = d.wgl := rfl
@[simp] theorem drawFree_swm (d : Dev) : (drawFree d).swm = d.swm := rfl
@[simp] theorem drawFree_groups (d : Dev) : (drawFree d).groups = d.groups := rfl
@[simp] theorem drawFree_col (d : Dev) : (drawFree d).col = d.col := rfl
@[simp] theorem drawFree_brd (d : Dev) : (drawFree d).brd = d.brd := rfl
@[simp] theorem drawFree_bup (d : Dev) : (drawFree d).bup = d.bup := rfl
@[simp] theorem drawFree_tim (d : Dev) : (drawFree d).tim = d.tim := rfl
@[simp] theorem drawFree_ls (d : Dev) : (drawFree d).ls = d.ls := rfl

@[simp] theorem drawFree_freeSeq (d : Dev) : (drawFree d).freeSeq = d.freeSeq + 1 := rfl

/-! ## Cells, combs, partitions and contexts -/

@[simp] theorem cellOf_modCell_self (d : Dev) (i : Nat) (f : CellSt → CellSt) : cellOf (modCell d i f) i = f (cellOf d i) := by
  unfold cellOf modCell; exact smGetD_modD_self _ _ _ _

theorem cellOf_modCell_ne (d : Dev) {i j : Nat} (f : CellSt → CellSt) (h : j ≠ i) : cellOf (modCell d i f) j = cellOf d j := by
  unfold cellOf modCell; exact smGetD_modD_ne _ _ _ h

@[simp] theorem cellOf_wr (d : Dev) (u o : Nat) (v : W64) (i : Nat) : cellOf (wr d u o v) i = cellOf d i := rfl
@[simp] theorem cellOf_wrN (d : Dev) (u o n : Nat) (i : Nat) : cellOf (wrN d u o n) i = cellOf d i := rfl
@[simp] theorem cellOf_wrF (d : Dev) (u o hi lo n : Nat) (i : Nat) : cellOf (wrF d u o hi lo n) i = cellOf d i := rfl
@[simp] theorem cellOf_modComb (d : Dev) (k : Nat) (f : CombSt → CombSt) (i : Nat) : cellOf (modComb d k f) i = cellOf d i := rfl
@[simp] theorem cellOf_modPart (d : Dev) (k : Nat) (f : PartSt → PartSt) (i : Nat) : cellOf (modPart d k f) i = cellOf d i := rfl
@[simp] theorem cellOf_modCtx (d : Dev) (k : Nat) (f : Ctx → Ctx) (i : Nat) : cellOf (modCtx d k f) i = cellOf d i := rfl

@[simp] theorem combOf_modComb_self (d : Dev) (i : Nat) (f : CombSt → CombSt) : combOf (modComb d i f) i = f (combOf d i) := by
  unfold combOf modComb; exact smGetD_modD_self _ _ _ _

theorem combOf_modComb_ne (d : Dev) {i j : Nat} (f : CombSt → CombSt) (h : j ≠ i) : combOf (modComb d i f) j = combOf d j := by
  unfold combOf modComb; exact smGetD_modD_ne _ _ _ h

@[simp] theorem combOf_wr (d : Dev) (u o : Nat) (v : W64) (i : Nat) : combOf (wr d u o v) i = combOf d i := rfl
@[simp] theorem combOf_wrN (d : Dev) (u o n : Nat) (i : Nat) : combOf (wrN d u o n) i = combOf d i := rfl
@[simp] theorem combOf_wrF (d : Dev) (u o hi lo n : Nat) (i : Nat) : combOf (wrF d u o hi lo n) i = combOf d i := rfl
@[simp] theorem combOf_modCell (d : Dev) (k : Nat) (f : CellSt → CellSt) (i : Nat) : combOf (modCell d k f) i = combOf d i := rfl
@[simp] theorem combOf_modPart (d : Dev) (k : Nat) (f : PartSt → PartSt) (i : Nat) : combOf (modPart d k f) i = combOf d i := rfl
@[simp] theorem combOf_modCtx (d : Dev) (k : Nat) (f : Ctx → Ctx) (i : Nat) : combOf (modCtx d k f) i = combOf d i := rfl

@[simp] theorem partOf_modPart_self (d : Dev) (i : Nat) (f : PartSt → PartSt) : partOf (modPart d i f) i = f (partOf d i) := by
  unfold partOf modPart; exact smGetD_modD_self _ _ _ _

theorem partOf_modPart_ne (d : Dev) {i j : Nat} (f : PartSt → PartSt) (h : j ≠ i) : partOf (modPart d i f) j = partOf d j := by
  unfold partOf modPart; exact smGetD_modD_ne _ _ _ h

@[simp] theorem partOf_wr (d : Dev) (u o : Nat) (v : W64) (i : Nat) : partOf (wr d u o v) i = partOf d i := rfl
@[simp] theorem partOf_wrN (d : Dev) (u o n : Nat) (i : Nat) : partOf (wrN d u o n) i = partOf d i := rfl
@[simp] theorem partOf_wrF (d : Dev) (u o hi lo n : Nat) (i : Nat) : partOf (wrF d u o hi lo n) i = partOf d i := rfl
@[simp] theorem partOf_modCell (d : Dev) (k : Nat) (f : CellSt → CellSt) (i : Nat) : partOf (modCell d k f) i = partOf d i := rfl
@[simp] theorem partOf_modComb (d : Dev) (k : Nat) (f : CombSt → CombSt) (i : Nat) : partOf (modComb d k f) i = partOf d i := rfl
@[simp] theorem partOf_modCtx (d : Dev) (k : Nat) (f : Ctx → Ctx) (i : Nat) : partOf (modCtx d k f) i = partOf d i := rfl

@[simp] theorem ctxOf_modCtx_self (d : Dev) (i : Nat) (f : Ctx → Ctx) : ctxOf (modCtx d i f) i = f (ctxOf d i) := by
  unfold ctxOf modCtx; exact smGetD_modD_self _ _ _ _

theorem ctxOf_modCtx_ne (d : Dev) {i j : Nat} (f : Ctx → Ctx) (h : j ≠ i) : ctxOf (modCtx d i f) j = ctxOf d j := by
  unfold ctxOf modCtx; exact smGetD_modD_ne _ _ _ h

@[simp] theorem ctxOf_wr (d : Dev) (u o : Nat) (v : W64) (i : Nat) : ctxOf (wr d u o v) i = ctxOf d i := rfl
@[simp] theorem ctxOf_wrN (d : Dev) (u o n : Nat) (i : Nat) : ctxOf (wrN d u o n) i = ctxOf d i := rfl
@[simp] theorem ctxOf_wrF (d : Dev) (u o hi lo n : Nat) (i : Nat) : ctxOf (wrF d u o hi lo n) i = ctxOf d i := rfl
@[simp] theorem ctxOf_modCell (d : Dev) (k : Nat) (f : CellSt → CellSt) (i : Nat) : ctxOf (modCell d k f) i = ctxOf d i := rfl
@[simp] theorem ctxOf_modComb (d : Dev) (k : Nat) (f : CombSt → CombSt) (i : Nat) : ctxOf (modComb d k f) i = ctxOf d i := rfl
@[simp] theorem ctxOf_modPart (d : Dev) (k : Nat) (f : PartSt → PartSt) (i : Nat) : ctxOf (modPart d k f) i = ctxOf d i := rfl

/-! ## Registers beside the other updates -/

@[simp] theorem rd_modCell (d : Dev) (k : Nat) (f : CellSt → CellSt) (u o : Nat) : rd (modCell d k f) u o = rd d u o := rfl
@[simp] theorem rdN_modCell (d : Dev) (k : Nat) (f : CellSt → CellSt) (u o : Nat) : rdN (modCell d k f) u o = rdN d u o := rfl
@[simp] theorem rdF_modCell (d : Dev) (k : Nat) (f : CellSt → CellSt) (u o hi lo : Nat) : rdF (modCell d k f) u o hi lo = rdF d u o hi lo := rfl
@[simp] theorem rdB_modCell (d : Dev) (k : Nat) (f : CellSt → CellSt) (u o i : Nat) : rdB (modCell d k f) u o i = rdB d u o i := rfl
@[simp] theorem rd_modComb (d : Dev) (k : Nat) (f : CombSt → CombSt) (u o : Nat) : rd (modComb d k f) u o = rd d u o := rfl
@[simp] theorem rdN_modComb (d : Dev) (k : Nat) (f : CombSt → CombSt) (u o : Nat) : rdN (modComb d k f) u o = rdN d u o := rfl
@[simp] theorem rdF_modComb (d : Dev) (k : Nat) (f : CombSt → CombSt) (u o hi lo : Nat) : rdF (modComb d k f) u o hi lo = rdF d u o hi lo := rfl
@[simp] theorem rdB_modComb (d : Dev) (k : Nat) (f : CombSt → CombSt) (u o i : Nat) : rdB (modComb d k f) u o i = rdB d u o i := rfl
@[simp] theorem rd_modPart (d : Dev) (k : Nat) (f : PartSt → PartSt) (u o : Nat) : rd (modPart d k f) u o = rd d u o := rfl
@[simp] theorem rdN_modPart (d : Dev) (k : Nat) (f : PartSt → PartSt) (u o : Nat) : rdN (modPart d k f) u o = rdN d u o := rfl
@[simp] theorem rdF_modPart (d : Dev) (k : Nat) (f : PartSt → PartSt) (u o hi lo : Nat) : rdF (modPart d k f) u o hi lo = rdF d u o hi lo := rfl
@[simp] theorem rdB_modPart (d : Dev) (k : Nat) (f : PartSt → PartSt) (u o i : Nat) : rdB (modPart d k f) u o i = rdB d u o i := rfl
@[simp] theorem rd_modCtx (d : Dev) (k : Nat) (f : Ctx → Ctx) (u o : Nat) : rd (modCtx d k f) u o = rd d u o := rfl
@[simp] theorem rdN_modCtx (d : Dev) (k : Nat) (f : Ctx → Ctx) (u o : Nat) : rdN (modCtx d k f) u o = rdN d u o := rfl
@[simp] theorem rdF_modCtx (d : Dev) (k : Nat) (f : Ctx → Ctx) (u o hi lo : Nat) : rdF (modCtx d k f) u o hi lo = rdF d u o hi lo := rfl
@[simp] theorem rdB_modCtx (d : Dev) (k : Nat) (f : Ctx → Ctx) (u o i : Nat) : rdB (modCtx d k f) u o i = rdB d u o i := rfl

end Sys2Proof.Machine
end

