-- ==== Sys2Proof/Laws/Mem.lean ====
section
/-! SUPPORT. Laws of data space: a byte that was written reads back, every other byte stands, and writing keeps the canonical form of
memory. -/

namespace Sys2Proof.Machine

theorem putBytes_get_ne (m : SMap Byte) (bs : List Byte) {a b : Nat} (h : b < a ∨ a + bs.length ≤ b) :
    smGetD 0 (putBytes m a bs) b = smGetD 0 m b := by
  induction bs generalizing m a with
  | nil => rfl
  | cons x bs ih =>
    simp only [putBytes, List.length_cons] at *
    rw [ih _ (by omega), smGetD_putD_ne 0 m x (by omega)]

theorem putBytes_get (m : SMap Byte) (bs : List Byte) {a i : Nat} (h : i < bs.length) :
    smGetD 0 (putBytes m a bs) (a + i) = bs[i] := by
  induction bs generalizing m a i with
  | nil => cases h
  | cons x bs ih =>
    cases i with
    | zero => simp only [putBytes, Nat.add_zero]; rw [putBytes_get_ne _ _ (by omega)]; simp
    | succ i =>
      simp only [putBytes]
      rw [show a + (i + 1) = a + 1 + i by omega, ih _ (by simpa using h)]
      rfl

/-- Writing keeps memory canonical. -/
theorem putBytes_wf {m : SMap Byte} (a : Nat) (bs : List Byte) (h : Memory.wf m = true) : Memory.wf (putBytes m a bs) = true := by
  induction bs generalizing m a with
  | nil => exact h
  | cons x bs ih => exact ih (a + 1) (smWf_putD a x h)

/-- Forgetting bytes keeps memory canonical. -/
theorem filter_wf {m : SMap Byte} (p : Nat × Byte → Bool) (h : Memory.wf m = true) : Memory.wf (m.filter p) = true := smWf_filter p h

/-- Dropping a mark leaves memory alone. -/
@[simp] theorem dropMark_mem (d : Dev) (k : Nat) : (dropMark d k).mem = d.mem := by
  unfold dropMark
  split
  · rfl
  · dsimp only; split <;> rfl

theorem foldl_mem {α : Type} (f : Dev → α → Dev) (hf : ∀ d x, (f d x).mem = d.mem) (l : List α) (d : Dev) : (l.foldl f d).mem = d.mem := by
  induction l generalizing d with
  | nil => rfl
  | cons x l ih => rw [List.foldl_cons, ih, hf]

@[simp] theorem dropMarks_mem (d : Dev) (a n : Nat) : (dropMarks d a n).mem = d.mem := by
  unfold dropMarks; exact foldl_mem (fun d (e : Nat × Mark) => dropMark d e.1) (fun d e => dropMark_mem d e.1) _ d

@[simp] theorem writeBytes_mem (d : Dev) (a : Nat) (bs : List Byte) : (writeBytes d a bs).mem = putBytes d.mem a bs := by
  unfold writeBytes; rw [dropMarks_mem]

/-- A byte written to data space reads back. -/
theorem readByte_writeBytes (d : Dev) (a : Nat) (bs : List Byte) {i : Nat} (h : i < bs.length) :
    readByte (writeBytes d a bs) (a + i) = bs[i] := by
  unfold readByte; rw [writeBytes_mem]; exact putBytes_get _ _ h

/-- A write leaves every other byte of data space alone. -/
theorem readByte_writeBytes_ne (d : Dev) (bs : List Byte) {a b : Nat} (h : b < a ∨ a + bs.length ≤ b) :
    readByte (writeBytes d a bs) b = readByte d b := by
  unfold readByte; rw [writeBytes_mem]; exact putBytes_get_ne _ _ h

/-- A write keeps memory canonical. -/
theorem writeBytes_wf (d : Dev) (a : Nat) (bs : List Byte) (h : Memory.wf d.mem = true) : Memory.wf (writeBytes d a bs).mem = true := by
  rw [writeBytes_mem]; exact putBytes_wf a bs h

/-- Reading back a whole write. -/
theorem readBytes_writeBytes (d : Dev) (a : Nat) (bs : List Byte) : readBytes (writeBytes d a bs) a bs.length = bs := by
  apply List.ext_getElem
  · simp [readBytes]
  · intro i h1 h2
    simp only [readBytes, List.getElem_map, List.getElem_range]
    exact readByte_writeBytes d a bs h2

/-- A read of bytes that a write does not touch. -/
theorem readBytes_writeBytes_ne (d : Dev) (bs : List Byte) {a b n : Nat} (h : b + n ≤ a ∨ a + bs.length ≤ b) :
    readBytes (writeBytes d a bs) b n = readBytes d b n := by
  apply List.ext_getElem
  · simp [readBytes]
  · intro i h1 h2
    have hi : i < n := by simpa [readBytes] using h2
    simp only [readBytes, List.getElem_map, List.getElem_range]
    exact readByte_writeBytes_ne d bs (by omega)

/-! ## What else a write to data space changes -/

/-- Dropping a mark changes marks and, for an injection, a register of the device page. -/
theorem dropMark_only (d : Dev) (k : Nat) : dropMark d k = { d with marks := (dropMark d k).marks, regs := (dropMark d k).regs } := by
  unfold dropMark
  split
  · rfl
  · dsimp only; split <;> rfl

theorem rd_dropMark (d : Dev) (k : Nat) {u o : Nat} (h : 4096 ≤ u * 4096 + o) : rd (dropMark d k) u o = rd d u o := by
  unfold dropMark
  split
  · rfl
  · dsimp only
    split
    · exact rd_wr_ne _ _ (by simp only [pDev, Reg.CTL_INJ_STATUS]; omega)
    · rfl

/-- A relation that a fold of steps keeps. -/
theorem foldl_rel {α β : Type} (R : α → α → Prop) (hr : ∀ x, R x x) (ht : ∀ {x y z}, R x y → R y z → R x z) (f : α → β → α)
    (hf : ∀ x b, R x (f x b)) (l : List β) (x : α) : R x (l.foldl f x) := by
  induction l generalizing x with
  | nil => exact hr x
  | cons b l ih => exact ht (hf x b) (ih (f x b))

/-- A write to data space changes memory, marks and registers of the device page. -/
def OnlyMem (d e : Dev) : Prop := e = { d with mem := e.mem, marks := e.marks, regs := e.regs } ∧ ∀ u o, 4096 ≤ u * 4096 + o → rd e u o = rd d u o

theorem OnlyMem.trans {d e f : Dev} (h : OnlyMem d e) (k : OnlyMem e f) : OnlyMem d f := by
  obtain ⟨h1, h2⟩ := h; obtain ⟨k1, k2⟩ := k
  exact ⟨by rw [k1, h1], fun u o hu => (k2 u o hu).trans (h2 u o hu)⟩

theorem OnlyMem.refl (d : Dev) : OnlyMem d d := ⟨rfl, fun _ _ _ => rfl⟩

theorem writeBytes_onlyMem (d : Dev) (a : Nat) (bs : List Byte) : OnlyMem d (writeBytes d a bs) := by
  have h1 : OnlyMem d { d with mem := putBytes d.mem a bs } := ⟨rfl, fun _ _ _ => rfl⟩
  refine h1.trans ?_
  unfold writeBytes dropMarks
  exact foldl_rel OnlyMem OnlyMem.refl OnlyMem.trans (fun x (b : Nat × Mark) => dropMark x b.1)
    (fun x b => ⟨(dropMark_only x b.1).trans (by rw [dropMark_mem]), fun u o h => rd_dropMark x _ h⟩) _ _

theorem OnlyMem.cells {d e : Dev} (h : OnlyMem d e) : e.cells = d.cells := by rw [h.1]

theorem OnlyMem.parts {d e : Dev} (h : OnlyMem d e) : e.parts = d.parts := by rw [h.1]

theorem OnlyMem.vat {d e : Dev} (h : OnlyMem d e) : e.vat = d.vat := by rw [h.1]

theorem noteWrite_mem (d : Dev) (p u r a n : Nat) : (noteWrite d p u r a n).mem = d.mem := by unfold noteWrite; split <;> rfl

theorem noteWrite_cells (d : Dev) (p u r a n : Nat) : (noteWrite d p u r a n).cells = d.cells := by unfold noteWrite; split <;> rfl

theorem noteWrite_regs (d : Dev) (p u r a n : Nat) : (noteWrite d p u r a n).regs = d.regs := by unfold noteWrite; split <;> rfl

theorem keepOld_mem (d : Dev) (p a : Nat) (l : List Byte) : (keepOld d p a l).mem = d.mem := by unfold keepOld; split <;> rfl

theorem keepOld_cells (d : Dev) (p a : Nat) (l : List Byte) : (keepOld d p a l).cells = d.cells := by unfold keepOld; split <;> rfl

theorem keepOld_regs (d : Dev) (p a : Nat) (l : List Byte) : (keepOld d p a l).regs = d.regs := by unfold keepOld; split <;> rfl

theorem keepOld_only (d : Dev) (p a : Nat) (l : List Byte) : keepOld d p a l = { d with parts := (keepOld d p a l).parts } := by
  unfold keepOld; split <;> rfl

/-- What a cell's write leaves: the cells, and every register past the device page. -/
theorem cellWrite_mem (d : Dev) (c r a : Nat) (bs : List Byte) : (cellWrite d c r a bs).mem = putBytes d.mem a bs := by
  unfold cellWrite; rw [keepOld_mem, noteWrite_mem, writeBytes_mem]

theorem cellWrite_cells (d : Dev) (c r a : Nat) (bs : List Byte) : (cellWrite d c r a bs).cells = d.cells := by
  unfold cellWrite; rw [keepOld_cells, noteWrite_cells, (writeBytes_onlyMem d a bs).cells]

theorem rd_cellWrite (d : Dev) (c r a : Nat) (bs : List Byte) {u o : Nat} (h : 4096 ≤ u * 4096 + o) :
    rd (cellWrite d c r a bs) u o = rd d u o := by
  have : rd (cellWrite d c r a bs) u o = rd (writeBytes d a bs) u o := by unfold cellWrite rd; rw [keepOld_regs, noteWrite_regs]
  rw [this, (writeBytes_onlyMem d a bs).2 u o h]

/-- A cell's write changes memory, marks, registers of the device page, and what lock-step notes. -/
theorem noteWrite_only (d : Dev) (p u r a n : Nat) : noteWrite d p u r a n = { d with parts := (noteWrite d p u r a n).parts } := by
  unfold noteWrite; split <;> rfl

theorem cellWrite_only (d : Dev) (c r a : Nat) (bs : List Byte) : cellWrite d c r a bs =
    { d with
      mem := (writeBytes d a bs).mem
      marks := (writeBytes d a bs).marks
      regs := (writeBytes d a bs).regs
      parts := (cellWrite d c r a bs).parts } := by
  unfold cellWrite
  rw [keepOld_only, noteWrite_only]
  rw [(writeBytes_onlyMem d a bs).1]

theorem readBytes_congr {d e : Dev} (h : e.mem = d.mem) (a n : Nat) : readBytes e a n = readBytes d a n := by
  unfold readBytes readByte; rw [h]

theorem readBytes_cellWrite (d : Dev) (c r a : Nat) (bs : List Byte) : readBytes (cellWrite d c r a bs) a bs.length = bs := by
  rw [readBytes_congr (d := writeBytes d a bs) (by rw [cellWrite_mem, writeBytes_mem]), readBytes_writeBytes]

theorem memBut_cellWrite (d : Dev) (c r a : Nat) (bs : List Byte) : memBut a bs.length d (cellWrite d c r a bs) := fun b hb => by
  unfold readByte; rw [cellWrite_mem]; exact putBytes_get_ne _ _ hb

@[simp] theorem readBytes_length (d : Dev) (a n : Nat) : (readBytes d a n).length = n := by simp [readBytes]

end Sys2Proof.Machine
end

