-- ==== Sys2Proof/Laws/Cell.lean ====
section
/-! SUPPORT. Laws of the cell's front end: what a stream, a tag and an issued record are after each operation. -/

namespace Sys2Proof.Machine

@[simp] theorem modCell_cells_regs (d : Dev) (c : Nat) (g : CellSt → CellSt) : (modCell d c g).regs = d.regs := rfl

@[simp] theorem strmOf_mod_self (x : CellSt) (q : Nat) (g : Strm → Strm) :
    strmOf { x with streams := smModD Strm.init x.streams q g } q = g (strmOf x q) := by
  unfold strmOf; exact smGetD_modD_self _ _ _ _

theorem strmOf_mod_ne (x : CellSt) {q r : Nat} (g : Strm → Strm) (h : r ≠ q) :
    strmOf { x with streams := smModD Strm.init x.streams q g } r = strmOf x r := by
  unfold strmOf; exact smGetD_modD_ne _ _ _ h

/-- A cell after one of its streams is changed. -/
theorem cellOf_modStrm_self (d : Dev) (c q : Nat) (g : Strm → Strm) :
    cellOf (modStrm d c q g) c = { cellOf d c with streams := smModD Strm.init (cellOf d c).streams q g } := by
  unfold modStrm; rw [cellOf_modCell_self]

theorem cellOf_modStrm_ne (d : Dev) {c k : Nat} (q : Nat) (g : Strm → Strm) (h : k ≠ c) : cellOf (modStrm d c q g) k = cellOf d k := by
  unfold modStrm; exact cellOf_modCell_ne d _ h

/-- A change of registers, cells and pins alone. -/
def OnlyCells (d e : Dev) : Prop := e = { d with regs := e.regs, cells := e.cells, pins := e.pins }

theorem OnlyCells.refl (d : Dev) : OnlyCells d d := rfl

theorem OnlyCells.trans {d e f : Dev} (h : OnlyCells d e) (k : OnlyCells e f) : OnlyCells d f := by
  unfold OnlyCells at *; rw [k, h]

theorem OnlyRegs.onlyCells {d e : Dev} (h : OnlyRegs d e) : OnlyCells d e := by
  unfold OnlyRegs at h; unfold OnlyCells; rw [h]

theorem modCell_onlyCells (d : Dev) (c : Nat) (g : CellSt → CellSt) : OnlyCells d (modCell d c g) := rfl

/-- The health summary follows the registers that it copies. -/
theorem pins_onlyCells (d : Dev) (p : Pins) : OnlyCells d { d with pins := p } := rfl

theorem hltSync_onlyCells (d : Dev) : OnlyCells d (hltSync d) := by
  unfold hltSync
  dsimp only
  split
  · exact (wrN_onlyRegs _ _ _ _).onlyCells
  · exact (wrN_onlyRegs _ _ _ _).onlyCells.trans (pins_onlyCells _ _)

theorem hltSync_cells (d : Dev) : (hltSync d).cells = d.cells := by unfold hltSync; dsimp only; split <;> simp only [wrN_cells]

theorem classEvent_onlyCells (d : Dev) (c u f : Nat) : OnlyCells d (classEvent d c u f) := by
  unfold classEvent
  exact ((event_onlyRegs _ _ _ _ _).onlyCells.trans (wrN_onlyRegs _ _ _ _).onlyCells).trans (hltSync_onlyCells _)

theorem OnlyRegs.cells {d e : Dev} (h : OnlyRegs d e) : e.cells = d.cells := by unfold OnlyRegs at h; rw [h]

theorem classEvent_cells (d : Dev) (c u f : Nat) : (classEvent d c u f).cells = d.cells := by
  unfold classEvent; rw [hltSync_cells, wrN_cells, (event_onlyRegs _ _ _ _ _).cells]

theorem hdrEvent_onlyCells (d : Dev) (u : Nat) (e : HdrEv) : OnlyCells d (hdrEvent d u e) := by
  unfold hdrEvent; dsimp only; split
  · exact (event_onlyRegs _ _ _ _ _).onlyCells.trans (classEvent_onlyCells _ _ _ _)
  · exact (event_onlyRegs _ _ _ _ _).onlyCells

theorem hdrEvent_cells (d : Dev) (u : Nat) (e : HdrEv) : (hdrEvent d u e).cells = d.cells := by
  unfold hdrEvent; dsimp only; split
  · rw [classEvent_cells, (event_onlyRegs _ _ _ _ _).cells]
  · exact (event_onlyRegs _ _ _ _ _).cells

theorem noted_onlyCells (d : Dev) (g u : Nat) : OnlyCells d (noted d g u) := by
  unfold noted; split
  · exact hdrEvent_onlyCells _ _ _
  · rfl

theorem noted_cells (d : Dev) (g u : Nat) : (noted d g u).cells = d.cells := by
  unfold noted; split
  · exact hdrEvent_cells _ _ _
  · rfl

theorem eventG_onlyCells (d : Dev) (g u e b c : Nat) : OnlyCells d (eventG d g u e b c) :=
  (event_onlyRegs _ _ _ _ _).onlyCells.trans (noted_onlyCells _ _ _)

theorem eventG_cells (d : Dev) (g u e b c : Nat) : (eventG d g u e b c).cells = d.cells := by
  unfold eventG; rw [noted_cells, (event_onlyRegs _ _ _ _ _).cells]

theorem advTag_onlyCells (d : Dev) (c t cycle why : Nat) : OnlyCells d (advTag d c t cycle why) := by
  unfold advTag; dsimp only; split
  · exact modCell_onlyCells _ _ _
  · exact eventG_onlyCells _ _ _ _ _ _

/-! ## Owners of combs and cells -/

/-- Two register files agree on every partition's shape. -/
def SameShapes (d e : Dev) : Prop := ∀ p, p < 16 → rd e (pPart p) Reg.CTL_PART_COMBS = rd d (pPart p) Reg.CTL_PART_COMBS

theorem SameShapes.refl (d : Dev) : SameShapes d d := fun _ _ => rfl

theorem SameShapes.trans {d e f : Dev} (h : SameShapes d e) (k : SameShapes e f) : SameShapes d f := fun p hp => (k p hp).trans (h p hp)

theorem SameShapes.of_regs {d e : Dev} (h : e.regs = d.regs) : SameShapes d e := fun p _ => by unfold rd; rw [h]

theorem SameShapes.partCombs {d e : Dev} (h : SameShapes d e) {p : Nat} (hp : p < 16) : partCombs e p = partCombs d p := by
  unfold Machine.partCombs rdN; rw [h p hp]

theorem find?_congr {α : Type} {f g : α → Bool} {l : List α} (h : ∀ x ∈ l, f x = g x) : l.find? f = l.find? g := by
  induction l with
  | nil => rfl
  | cons x l ih =>
    simp only [List.find?_cons, h x (List.mem_cons_self)]
    split
    · rfl
    · exact ih fun y hy => h y (List.mem_cons_of_mem _ hy)

theorem SameShapes.combOwner {d e : Dev} (h : SameShapes d e) (k : Nat) : combOwner e k = combOwner d k := by
  unfold Machine.combOwner
  exact find?_congr fun p hp => by rw [h.partCombs (List.mem_range.mp hp)]

theorem SameShapes.cellPart {d e : Dev} (h : SameShapes d e) (c : Nat) : cellPart e c = cellPart d c := by
  unfold Machine.cellPart; rw [h.combOwner]

/-- A write to a page other than a partition's, or to another register, leaves the shapes. -/
theorem wr_sameShapes (d : Dev) (u o : Nat) (v : W64) (h : ∀ p, p < 16 → pPart p * 4096 + Reg.CTL_PART_COMBS ≠ u * 4096 + o) :
    SameShapes d (wr d u o v) := fun p hp => rd_wr_ne d v (h p hp)

theorem bump_sameShapes (d : Dev) (u o n : Nat) (h : ∀ p, p < 16 → pPart p * 4096 + Reg.CTL_PART_COMBS ≠ u * 4096 + o) :
    SameShapes d (bump d u o n) := fun p hp => rd_bump_ne d n (h p hp)

/-- The owner of a cell lies below 16. -/
theorem cellPart_lt (d : Dev) (c : Nat) : cellPart d c < 16 := by
  unfold cellPart combOwner
  cases h : (List.range 16).find? fun p => (partCombs d p).contains (c / 8) with
  | none => simp
  | some p => simpa using List.mem_range.mp (List.mem_of_find?_eq_some h)

/-! ## A cell that reaches a cycle -/

/-- A cell that has reached a cycle with every record in flight started. -/
def reached (d : Dev) (c t : Nat) : Dev := modCell d c fun x => { x with now := max x.now t }

/-- Nothing starts in a cell whose records in flight have all started. -/
theorem advanceCell_started (d : Dev) (c t : Nat) (h : ∀ f ∈ (cellOf d c).inflight, f.started = true) : advanceCell d c t = reached d c t := by
  have : (cellOf d c).inflight.filter (fun f => !f.started) = [] := by
    rw [List.filter_eq_nil_iff]; intro f hf; simp [h f hf]
  unfold advanceCell; rw [this]; rfl

theorem cellOf_reached_self (d : Dev) (c t : Nat) : cellOf (reached d c t) c = { cellOf d c with now := max (cellOf d c).now t } := by
  unfold reached; rw [cellOf_modCell_self]

theorem cellOf_reached_ne (d : Dev) {c k : Nat} (t : Nat) (h : k ≠ c) : cellOf (reached d c t) k = cellOf d k := cellOf_modCell_ne d _ h

theorem reached_onlyCells (d : Dev) (c t : Nat) : OnlyCells d (reached d c t) := modCell_onlyCells _ _ _

/-! ## The issue of a record -/

theorem issueAt_of_canIssue {d : Dev} {a : RecAt} {h : RecHdr} {b : RecBody} (hc : canIssue d a h b) : issueAt d a h b = .at (issueCycle d a h) := by
  obtain ⟨h1, h2, h3, h4, -⟩ := hc
  obtain ⟨r, hr⟩ := Option.isSome_iff_exists.mp h3
  unfold issueCycle at h4 ⊢
  unfold issueAt
  simp only [h1, h2, hr, ne_eq, not_true_eq_false, decide_false, Bool.not_true, Bool.or_false, Bool.false_eq_true, if_false, Option.getD_some] at h4 ⊢
  rw [if_neg (by omega)]

/-- Nothing waits in a queue of a cell whose records in flight have all started. -/
theorem queued_started {x : CellSt} (h : ∀ f ∈ x.inflight, f.started = true) (r : Res) : queued x r = 0 := by
  have : x.inflight.filter (fun f => decide (f.body.res = some r) && !f.started) = [] := by
    rw [List.filter_eq_nil_iff]; intro f hf; simp [h f hf]
  unfold queued; rw [this]; rfl

theorem roomFor_of_canIssue {d : Dev} {a : RecAt} {h : RecHdr} {b : RecBody} (hc : canIssue d a h b) : roomFor (cellOf d a.cell.val) b = true := by
  obtain ⟨-, -, -, -, -, hs, hn, -⟩ := hc
  unfold roomFor
  cases hb : b.res with
  | none => rfl
  | some r =>
    simp only [queued_started hs, Bool.and_eq_true, Bool.or_eq_true, decide_eq_true_eq, Bool.not_eq_true', decide_eq_false_iff_not]
    refine ⟨by decide, ?_⟩
    by_cases e : r = .net
    · refine Or.inr ?_
      have : (cellOf d a.cell.val).inflight.filter (fun f => f.body.isRemote && !f.started) = [] := by
        rw [List.filter_eq_nil_iff]; intro f hf; simp [hs f hf]
      unfold outstanding; rw [this]
      exact hn (by rw [hb, e])
    · exact Or.inl e

theorem frontOpen_reached (d : Dev) (c t : Nat) : frontOpen (reached d c t) c = frontOpen d c := by
  unfold frontOpen; rw [cellOf_reached_self]; rfl

theorem couldIssue_now (x : CellSt) (n s t : Nat) : couldIssue { x with now := n } s t = couldIssue x s t := rfl

theorem canTake_of_canIssue {d : Dev} {a : RecAt} {h : RecHdr} {b : RecBody} (hc : canIssue d a h b) :
    canTake (reached d a.cell.val (issueCycle d a h)) a h b (issueCycle d a h) = .at (issueCycle d a h) := by
  have hroom := roomFor_of_canIssue hc
  obtain ⟨h1, h2, -, -, h5, -⟩ := hc
  unfold canTake
  rw [frontOpen_reached, cellOf_reached_self, h1]
  dsimp only
  have hn : nextOf { cellOf d a.cell.val with now := max (cellOf d a.cell.val).now (issueCycle d a h) } a.stream.val = some (h, b) := h2
  have hl : ((List.range a.stream.val).any fun s => couldIssue (cellOf d a.cell.val) s (issueCycle d a h)) = false := by
    rw [List.any_eq_false]; intro q hq; rw [h5 q (List.mem_range.mp hq)]; simp
  have hr : roomFor { cellOf d a.cell.val with now := max (cellOf d a.cell.val).now (issueCycle d a h) } b = true := hroom
  simp only [couldIssue_now, hn, hl, hr, ne_eq, not_true_eq_false, decide_false, Bool.not_true, Bool.or_false, Bool.false_eq_true, if_false, if_true]

/-- A record that can issue, asks for no buffer and passes its checks takes effect in its issue cycle. -/
theorem doRec_of_canIssue {d : Dev} {a : RecAt} {h : RecHdr} {b : RecBody} (hc : canIssue d a h b) (hv : b.res ≠ some .vatq)
    (he : recErr (reached d a.cell.val (issueCycle d a h)) a.cell.val b = none) :
    doRec d a h b = takeRec (reached d a.cell.val (issueCycle d a h)) a h b (issueCycle d a h) := by
  have hs : ∀ f ∈ (cellOf d a.cell.val).inflight, f.started = true := hc.2.2.2.2.2.1
  unfold doRec
  rw [issueAt_of_canIssue hc]
  dsimp only
  rw [if_neg hv, advanceCell_started _ _ _ hs, canTake_of_canIssue hc]
  dsimp only
  rw [he]

/-- A stream after it has issued a record. -/
def issuedStrm (g : Tag) (h : RecHdr) (sched t : Nat) (s : Strm) : Strm :=
  trail g h.wait sched t { s with state := .running, recs := s.recs + 1, since := none }

/-- The device after a record has issued in a cycle, with no trace. -/
def issuedDev (d : Dev) (a : RecAt) (t : Nat) : Dev :=
  modStrm (modCell (bump d (pCell a.cell.val) Reg.CEL_RECORDS_ISSUED 1) a.cell.val fun x => { x with lastIssue := t + 1 })
    a.cell.val a.stream.val fun s => { s with state := .running, recs := s.recs + 1, since := none }

theorem issuedDev_regs (d : Dev) (a : RecAt) (t : Nat) : (issuedDev d a t).regs = (bump d (pCell a.cell.val) Reg.CEL_RECORDS_ISSUED 1).regs := rfl

theorem rd_issuedDev (d : Dev) (a : RecAt) (t : Nat) {u o : Nat} (h : u * 4096 + o ≠ pCell a.cell.val * 4096 + Reg.CEL_RECORDS_ISSUED) :
    rd (issuedDev d a t) u o = rd d u o := by
  have : rd (issuedDev d a t) u o = rd (bump d (pCell a.cell.val) Reg.CEL_RECORDS_ISSUED 1) u o := by unfold rd; rw [issuedDev_regs]
  rw [this, rd_bump_ne d 1 h]

theorem issuedDev_sameShapes (d : Dev) (a : RecAt) (t : Nat) : SameShapes d (issuedDev d a t) := fun p hp => by
  rw [rd_issuedDev]
  simp only [pPart, pCell, Reg.CEL_RECORDS_ISSUED, Reg.CTL_PART_COMBS]; omega

/-- With no trace running, an issue is the counts and the stream. -/
theorem markIssued_noTrace {d : Dev} {a : RecAt} (h : RecHdr) (t : Nat) (hq : rdB d (pPart (cellPart d a.cell.val)) Reg.CTL_TRACE_STATUS 2 = false) :
    markIssued d a h t = issuedDev d a t := by
  have hp : cellPart (issuedDev d a t) a.cell.val = cellPart d a.cell.val := (issuedDev_sameShapes d a t).cellPart _
  have hr : rdB (issuedDev d a t) (pPart (cellPart d a.cell.val)) Reg.CTL_TRACE_STATUS 2 = false := by
    unfold rdB rdN at *
    rw [rd_issuedDev]
    · exact hq
    · have := cellPart_lt d a.cell.val
      simp only [pPart, pCell, Reg.CEL_RECORDS_ISSUED, Reg.CTL_TRACE_STATUS]; omega
  show traceRec (issuedDev d a t) a h t = issuedDev d a t
  unfold traceRec
  dsimp only
  rw [hp]
  unfold traceBytes
  simp only [hr, Bool.not_false, if_true]

theorem issuedDev_onlyCells (d : Dev) (a : RecAt) (t : Nat) : OnlyCells d (issuedDev d a t) := by
  unfold issuedDev modStrm
  exact ((bump_onlyRegs _ _ _ _).onlyCells.trans (modCell_onlyCells _ _ _)).trans (modCell_onlyCells _ _ _)

theorem cellOf_issuedDev_self (d : Dev) (a : RecAt) (t : Nat) : cellOf (issuedDev d a t) a.cell.val =
    { cellOf d a.cell.val with
      lastIssue := t + 1
      streams := smModD Strm.init (cellOf d a.cell.val).streams a.stream.val fun s =>
        { s with state := .running, recs := s.recs + 1, since := none } } := by
  unfold issuedDev
  rw [cellOf_modStrm_self, cellOf_modCell_self]
  have : cellOf (bump d (pCell a.cell.val) Reg.CEL_RECORDS_ISSUED 1) a.cell.val = cellOf d a.cell.val := by
    unfold cellOf; rw [(bump_onlyRegs _ _ _ _).cells]
  rw [this]

theorem cellOf_issuedDev_ne (d : Dev) (a : RecAt) (t : Nat) {k : Nat} (h : k ≠ a.cell.val) : cellOf (issuedDev d a t) k = cellOf d k := by
  unfold issuedDev
  rw [cellOf_modStrm_ne _ _ _ h, cellOf_modCell_ne _ _ h]
  unfold cellOf; rw [(bump_onlyRegs _ _ _ _).cells]

/-- The page of a logical cell. -/
theorem pageKind_cell (c : Fin 256) : pageKind (pCell c.val) = .cell := by
  have h1 : pCell c.val / 1024 = 3 := by have := c.isLt; unfold pCell; omega
  have h2 : pCell c.val % 1024 < 256 := by have := c.isLt; unfold pCell; omega
  unfold pageKind; rw [h1]; simp [h2]

/-! ## Tags (R103) -/

theorem cellOf_of_cells {d e : Dev} (h : e.cells = d.cells) (c : Nat) : cellOf e c = cellOf d c := by unfold cellOf; rw [h]

theorem cellOf_advTag_ne (d : Dev) {c k : Nat} (t cycle why : Nat) (h : k ≠ c) : cellOf (advTag d c t cycle why) k = cellOf d k := by
  unfold advTag; dsimp only; split
  · exact cellOf_modCell_ne d _ h
  · exact cellOf_of_cells (eventG_cells _ _ _ _ _ _) k

/-- An advance changes a cell's tags alone. -/
theorem cellOf_advTag_self (d : Dev) (c t cycle why : Nat) :
    cellOf (advTag d c t cycle why) c = { cellOf d c with tags := (cellOf (advTag d c t cycle why) c).tags } := by
  unfold advTag; dsimp only; split
  · rw [cellOf_modCell_self]
  · rw [cellOf_of_cells (eventG_cells _ _ _ _ _ _) c]

theorem tagOf_advTag_self (d : Dev) (c t cycle why : Nat) : tagOf (cellOf (advTag d c t cycle why) c) t =
    if (tagOf (cellOf d c) t).count < 65535 then (tagOf (cellOf d c) t).up cycle why else tagOf (cellOf d c) t := by
  unfold advTag; dsimp only; split
  · rw [cellOf_modCell_self]; simp only [tagOf, smGetD_putD_self]
  · rw [cellOf_of_cells (eventG_cells _ _ _ _ _ _) c]

theorem tagOf_advTag_ne (d : Dev) (c : Nat) {t q : Nat} (cycle why : Nat) (h : q ≠ t) :
    tagOf (cellOf (advTag d c t cycle why) c) q = tagOf (cellOf d c) q := by
  unfold advTag; dsimp only; split
  · rw [cellOf_modCell_self]; simp only [tagOf, smGetD_putD_ne _ _ _ h]
  · rw [cellOf_of_cells (eventG_cells _ _ _ _ _ _) c]

/-- An advance writes no register of a page but the header, TAG_SAT and its count, and the device page. -/
theorem rd_advTag (d : Dev) (c t cycle why : Nat) {u o : Nat} (hu : 4096 ≤ u * 4096 + o)
    (h : u * 4096 + o < pCell c * 4096 + 0x20 ∨ pCell c * 4096 + 0x48 ≤ u * 4096 + o)
    (h1 : u * 4096 + o ≠ pCell c * 4096 + Reg.CEL_FE_EVENTS) (h2 : u * 4096 + o ≠ pCell c * 4096 + Reg.CEL_EVT_TAG_SAT) :
    rd (advTag d c t cycle why) u o = rd d u o := by
  unfold advTag; dsimp only; split
  · rfl
  · unfold eventG; rw [rd_noted _ _ _ hu h, rd_event_ne _ _ _ _ _ h1 h2]

theorem tagSat_advTag (d : Dev) (c t cycle why : Nat) (h : 65535 ≤ (tagOf (cellOf d c) t).count) :
    rdB (advTag d c t cycle why) (pCell c) Reg.CEL_FE_EVENTS 1 = true := by
  unfold advTag; dsimp only; rw [if_neg (by omega)]
  unfold eventG rdB rdN
  rw [rd_noted _ _ _ (by simp only [pCell]; omega) (by simp only [Reg.CEL_FE_EVENTS]; omega)]
  have := rdB_event d (pCell c) Reg.CEL_FE_EVENTS Reg.CEL_EVT_TAG_SAT (b := 1) (by decide) (by simp only [Reg.CEL_FE_EVENTS, Reg.CEL_EVT_TAG_SAT]; omega)
  unfold rdB rdN at this; exact this

theorem advTag_signalled (d : Dev) (c t cycle why : Nat) : Signalled d (advTag d c t cycle why) c true t cycle := by
  refine ⟨?_, fun _ hs => ?_, fun _ hs => tagSat_advTag d c t cycle why hs, fun q hq => tagOf_advTag_ne d c cycle why hq⟩
  · rw [tagOf_advTag_self]
    split
    · next e => simp [e, Tag.up]
    · next e => simp [e]
  · rw [tagOf_advTag_self, if_pos hs]; rfl

theorem signalled_refl (d : Dev) (c t cycle : Nat) : Signalled d d c false t cycle :=
  ⟨by simp, fun h => by simp at h, fun h => by simp at h, fun _ _ => rfl⟩

theorem Signalled.of_tags {d e f : Dev} {c : Nat} {b : Bool} {t cycle : Nat} (h : (cellOf e c).tags = (cellOf d c).tags)
    (k : Signalled e f c b t cycle) : Signalled d f c b t cycle := by
  have ht : ∀ q, tagOf (cellOf e c) q = tagOf (cellOf d c) q := fun q => by unfold tagOf; rw [h]
  unfold Signalled at *; simp only [ht] at k; exact k

/-- A record's signal, when it completes at once. -/
theorem sigNow_signalled (d : Dev) (a : RecAt) (h : RecHdr) (t : Nat) : Signalled d (sigNow d a h t) a.cell.val h.sig h.sigTag.val t := by
  unfold sigNow
  cases h.sig with
  | false => exact signalled_refl _ _ _ _
  | true => exact advTag_signalled _ _ _ _ _

theorem sigNow_onlyCells (d : Dev) (a : RecAt) (h : RecHdr) (t : Nat) : OnlyCells d (sigNow d a h t) := by
  unfold sigNow; split
  · exact advTag_onlyCells _ _ _ _ _
  · exact OnlyCells.refl _

theorem sigNow_cell (d : Dev) (a : RecAt) (h : RecHdr) (t : Nat) :
    cellOf (sigNow d a h t) a.cell.val = { cellOf d a.cell.val with tags := (cellOf (sigNow d a h t) a.cell.val).tags } := by
  unfold sigNow; split
  · exact cellOf_advTag_self _ _ _ _ _
  · rfl

/-! ## What an issue leaves as it was -/

/-- An issue stays one over a step that keeps the streams and counts of the cells. -/
theorem Issued.keep {d e f : Dev} {a : RecAt} {h : RecHdr} {st : StrmState} (hi : Issued d e a h st)
    (hs : ∀ k, (cellOf f k).streams = (cellOf e k).streams) (hl : (cellOf f a.cell.val).lastIssue = (cellOf e a.cell.val).lastIssue)
    (hc : cellsBut a.cell.val e f)
    (hr : rd f (pCell a.cell.val) Reg.CEL_RECORDS_ISSUED = rd e (pCell a.cell.val) Reg.CEL_RECORDS_ISSUED) : Issued d f a h st := by
  obtain ⟨h1, h2, h3, h4, h5, h6⟩ := hi
  have hs' : ∀ q, strmOf (cellOf f a.cell.val) q = strmOf (cellOf e a.cell.val) q := fun q => by unfold strmOf; rw [hs]
  refine ⟨by rw [hs', h1], by rw [hs', h2], fun q hq => by rw [hs', h3 q hq], by rw [hl, h4], ?_, fun k hk => (hc k hk).trans (h6 k hk)⟩
  unfold rdN at *; rw [hr]; exact h5

/-- An issue stays one over a signal of its cell. -/
theorem Issued.signal {d e : Dev} {a : RecAt} {h : RecHdr} {st : StrmState} (t cycle why : Nat) (hi : Issued d e a h st) :
    Issued d (advTag e a.cell.val t cycle why) a h st := by
  refine hi.keep (fun k => ?_) ?_ (fun k hk => cellOf_advTag_ne _ _ _ _ hk) (rd_advTag _ _ _ _ _ ?_ ?_ ?_ ?_)
  · by_cases hk : k = a.cell.val
    · subst hk; rw [cellOf_advTag_self]
    · rw [cellOf_advTag_ne _ _ _ _ hk]
  · rw [cellOf_advTag_self]
  · simp only [pCell]; omega
  · simp only [Reg.CEL_RECORDS_ISSUED]; omega
  · simp only [Reg.CEL_RECORDS_ISSUED, Reg.CEL_FE_EVENTS]; omega
  · simp only [Reg.CEL_RECORDS_ISSUED, Reg.CEL_EVT_TAG_SAT]; omega

theorem Issued.write {d e : Dev} {a : RecAt} {h : RecHdr} {st : StrmState} (hi : Issued d e a h st) (c r ad : Nat) (bs : List Byte) :
    Issued d (cellWrite e c r ad bs) a h st := by
  refine hi.keep (fun k => ?_) ?_ (fun k _ => ?_) (rd_cellWrite _ _ _ _ _ ?_)
  · rw [cellOf_of_cells (cellWrite_cells _ _ _ _ _)]
  · rw [cellOf_of_cells (cellWrite_cells _ _ _ _ _)]
  · rw [cellOf_of_cells (cellWrite_cells _ _ _ _ _)]
  · simp only [pCell]; omega

theorem quiet_of {s : State} {e : Dev} (h : OnlyCells s.dev e) : ({ s with dev := e } : State) = { s with dev := { s.dev with regs := e.regs, cells := e.cells, pins := e.pins } } := by
  unfold OnlyCells at h; rw [← h]

theorem next_of {i : Instr} {s : State} (e : Dev) (he : exec i s = .next { s with dev := e }) {P : State → Prop} (hp : P { s with dev := e }) :
    ∃ t, exec i s = .next t ∧ P t := ⟨_, he, hp⟩

/-! ## Transfers -/

theorem marksIn_congr {d e : Dev} (h : e.marks = d.marks) (a n : Nat) : marksIn e a n = marksIn d a n := by unfold marksIn; rw [h]

theorem heal_clean (d : Dev) (a n v : Nat) (h : marksIn d a n = []) : heal d a n v = d := by unfold heal; rw [h]; rfl

/-- A transfer that meets no marked word is read as it stands. -/
theorem scanStores_clean (d : Dev) (p v : Nat) (rs : List (Nat × Nat)) (h : ∀ e ∈ rs, marksIn d e.1 e.2 = []) :
    scanStores d p v rs = (d, 0, false) := by
  have hh : rs.foldl (fun d e => heal d e.1 e.2 v) d = d := by
    induction rs with
    | nil => rfl
    | cons e l ih =>
      rw [List.foldl_cons, heal_clean d e.1 e.2 v (h e List.mem_cons_self)]
      exact ih fun x hx => h x (List.mem_cons_of_mem _ hx)
  have : (rs.flatMap fun e => markedSectors d e.1 e.2) = [] := by
    rw [List.flatMap_eq_nil_iff]
    intro e he
    unfold markedSectors; rw [h e he]; rfl
  unfold scanStores
  dsimp only
  rw [hh, this]
  rfl

theorem repeat_get (l : List Byte) (n i : Nat) (hi : i < n) : ((repeatBytes l n).drop (l.length * i)).take l.length = l := by
  induction n generalizing i with
  | zero => omega
  | succ n ih =>
    unfold repeatBytes
    cases i with
    | zero => simp
    | succ i =>
      rw [show l.length * (i + 1) = l.length + l.length * i by rw [Nat.mul_succ]; omega, ← List.drop_drop, List.drop_left']
      · exact ih i (by omega)
      · rfl

theorem repeat_length (l : List Byte) (n : Nat) : (repeatBytes l n).length = l.length * n := by
  induction n with
  | zero => rfl
  | succ n ih => unfold repeatBytes; simp [ih, Nat.mul_succ]; omega

theorem leBytes_length (n v : Nat) : (leBytes n v).length = n := by
  induction n generalizing v with
  | zero => rfl
  | succ n ih => simp [leBytes, ih]

/-- A slice of what was written. -/
theorem readBytes_slice (d : Dev) (c r a : Nat) (bs : List Byte) (o n : Nat) (h : o + n ≤ bs.length) :
    readBytes (cellWrite d c r a bs) (a + o) n = (bs.drop o).take n := by
  apply List.ext_getElem
  · simp; omega
  · intro i h1 h2
    have hi : i < n := by simpa using h1
    simp only [readBytes, List.getElem_map, List.getElem_range, List.getElem_take, List.getElem_drop]
    unfold readByte; rw [cellWrite_mem, Nat.add_assoc]
    exact putBytes_get _ _ (by omega)

/-! ## Duty, and slices of what a record writes -/

theorem SameShapes.dutyEff {d e : Dev} (h : SameShapes d e) (hp : e.pwr = d.pwr) (hf : e.fuses = d.fuses)
    (hr : rd e pPwr Reg.PWR_STATUS = rd d pPwr Reg.PWR_STATUS) {p : Nat} (hlt : p < 16) : dutyEff e p = dutyEff d p := by
  have hr' : ∀ i, rdB e pPwr Reg.PWR_STATUS i = rdB d pPwr Reg.PWR_STATUS i := fun i => by unfold rdB rdN; rw [hr]
  unfold Machine.dutyEff
  rw [h.partCombs hlt, hp, hf]
  simp only [hr']

theorem activeEnd_full {duty : Nat} (h : 16 ≤ duty) (st n : Nat) : activeEnd duty st n = st + n - 1 := by
  unfold activeEnd
  split
  · next e => subst e; rfl
  · rw [if_pos (Or.inl h)]

theorem flatMap_slice {α β : Type} (f : α → List β) (w : Nat) (hf : ∀ x, (f x).length = w) (l : List α) (i : Nat) (hi : i < l.length) :
    ((l.flatMap f).drop (w * i)).take w = f l[i] := by
  induction l generalizing i with
  | nil => simp at hi
  | cons x l ih =>
    cases i with
    | zero => simp [← hf x]
    | succ i =>
      rw [List.flatMap_cons, show w * (i + 1) = (f x).length + w * i by rw [hf, Nat.mul_succ]; omega, ← List.drop_drop, List.drop_left']
      · exact ih i (by simpa using hi)
      · rfl

theorem flatMap_length' {α β : Type} (f : α → List β) (w : Nat) (hf : ∀ x, (f x).length = w) (l : List α) : (l.flatMap f).length = w * l.length := by
  induction l with
  | nil => rfl
  | cons x l ih => rw [List.flatMap_cons, List.length_append, ih, hf, List.length_cons, Nat.mul_succ]; omega

theorem readLe_congr {d e : Dev} (h : e.mem = d.mem) (a n : Nat) : readLe e a n = readLe d a n := by unfold readLe; rw [readBytes_congr h]

end Sys2Proof.Machine
end

