-- ==== Sys2Proof/Laws/Engine.lean ====
section
/-! SUPPORT. Laws of the array and the drains: what a pass and a drain leave of a device. -/

namespace Sys2Proof.Machine

/-! ## Passes -/

/-- What the array and the drains leave of a device outside accumulators: data space, marks, other cells, and, in their own cell, the streams, the
issue count and the records in flight. -/
structure Keeps (c : Nat) (d e : Dev) : Prop where
  mem : e.mem = d.mem
  marks : e.marks = d.marks
  acc : e.acc = d.acc
  other : ∀ k, k ≠ c → cellOf e k = cellOf d k
  streams : (cellOf e c).streams = (cellOf d c).streams
  lastIssue : (cellOf e c).lastIssue = (cellOf d c).lastIssue
  inflight : (cellOf e c).inflight = (cellOf d c).inflight
  issued : rd e (pCell c) Reg.CEL_RECORDS_ISSUED = rd d (pCell c) Reg.CEL_RECORDS_ISSUED

theorem Keeps.refl (c : Nat) (d : Dev) : Keeps c d d := ⟨rfl, rfl, rfl, fun _ _ => rfl, rfl, rfl, rfl, rfl⟩

theorem Keeps.trans {c : Nat} {d e f : Dev} (h : Keeps c d e) (k : Keeps c e f) : Keeps c d f :=
  ⟨k.mem.trans h.mem, k.marks.trans h.marks, k.acc.trans h.acc, fun q hq => (k.other q hq).trans (h.other q hq), k.streams.trans h.streams,
    k.lastIssue.trans h.lastIssue, k.inflight.trans h.inflight, k.issued.trans h.issued⟩

theorem bump_keeps (c : Nat) (d : Dev) (u o n : Nat) (h : pCell c * 4096 + Reg.CEL_RECORDS_ISSUED ≠ u * 4096 + o) : Keeps c d (bump d u o n) := by
  have h0 := bump_onlyRegs d u o n
  unfold OnlyRegs at h0
  have hc := cellOf_of_cells (OnlyRegs.cells (bump_onlyRegs d u o n))
  exact ⟨by rw [h0], by rw [h0], by rw [h0], fun k _ => hc k, by rw [hc], by rw [hc], by rw [hc], rd_bump_ne d n h⟩

theorem event_keeps (c : Nat) (d : Dev) (u o b k : Nat) (h : pCell c * 4096 + Reg.CEL_RECORDS_ISSUED ≠ u * 4096 + o)
    (h' : pCell c * 4096 + Reg.CEL_RECORDS_ISSUED ≠ u * 4096 + k) : Keeps c d (event d u o b k) := by
  have h0 := event_onlyRegs d u o b k
  unfold OnlyRegs at h0
  have hc := cellOf_of_cells (OnlyRegs.cells (event_onlyRegs d u o b k))
  exact ⟨by rw [h0], by rw [h0], by rw [h0], fun k _ => hc k, by rw [hc], by rw [hc], by rw [hc], rd_event_ne _ _ _ _ _ h h'⟩

theorem noted_keeps (c : Nat) (d : Dev) (g : Nat) : Keeps c d (noted d g (pCell c)) := by
  have h0 := noted_onlyCells d g (pCell c)
  unfold OnlyCells at h0
  have hc := cellOf_of_cells (noted_cells d g (pCell c))
  refine ⟨by rw [h0], by rw [h0], by rw [h0], fun k _ => hc k, by rw [hc], by rw [hc], by rw [hc], rd_noted _ _ _ ?_ ?_⟩
  · simp only [pCell]; omega
  · simp only [pCell, Reg.CEL_RECORDS_ISSUED]; omega

theorem modPart_keeps (c : Nat) (d : Dev) (p : Nat) (g : PartSt → PartSt) : Keeps c d (modPart d p g) :=
  ⟨rfl, rfl, rfl, fun _ _ => rfl, rfl, rfl, rfl, rfl⟩

theorem disturb_keeps (c : Nat) (hc : c < 256) (d : Dev) (p : Nat) (cause ev cy sub : Nat) (hp : p < 16) : Keeps c d (disturb d p cause ev cy sub) := by
  unfold disturb
  refine ((bump_keeps c _ _ _ _ ?_).trans (bump_keeps c _ _ _ _ ?_)).trans (modPart_keeps _ _ _ _) <;>
  · simp only [pCell, pPart, Reg.CEL_RECORDS_ISSUED, Reg.CTL_DIST_EVENTS, Reg.CTL_DIST_CYCLES]; omega

theorem modCell_keeps (c : Nat) (d : Dev) (g : CellSt → CellSt) (h1 : ∀ x, (g x).streams = x.streams) (h2 : ∀ x, (g x).lastIssue = x.lastIssue)
    (h3 : ∀ x, (g x).inflight = x.inflight) : Keeps c d (modCell d c g) :=
  ⟨rfl, rfl, rfl, fun _ hk => cellOf_modCell_ne d g hk, by rw [cellOf_modCell_self, h1], by rw [cellOf_modCell_self, h2], by rw [cellOf_modCell_self, h3], rfl⟩

theorem Issued.keeps {d e f : Dev} {a : RecAt} {h : RecHdr} {st : StrmState} (hi : Issued d e a h st) (k : Keeps a.cell.val e f) : Issued d f a h st := by
  refine Issued.keep hi (fun q => ?_) k.lastIssue (fun q hq => k.other q hq) k.issued
  by_cases hq : q = a.cell.val
  · rw [hq]; exact k.streams
  · rw [k.other q hq]

/-! accumulators -/

theorem foldl_putD_ne (rs : List (Nat × AccRes)) (m : SMap W32) (k : Nat) (h : ∀ e ∈ rs, e.1 ≠ k) :
    smGetD 0 (rs.foldl (fun m e => smPutD 0 m e.1 e.2.acc) m) k = smGetD 0 m k := by
  induction rs generalizing m with
  | nil => rfl
  | cons e rs ih =>
    rw [List.foldl_cons, ih _ (fun x hx => h x (List.mem_cons_of_mem _ hx)), smGetD_putD_ne]
    exact (h e List.mem_cons_self).symm

theorem foldl_putD_get (rs : List (Nat × AccRes)) (m : SMap W32) (hn : (rs.map Prod.fst).Nodup) (e : Nat × AccRes) (he : e ∈ rs) :
    smGetD 0 (rs.foldl (fun m e => smPutD 0 m e.1 e.2.acc) m) e.1 = e.2.acc := by
  induction rs generalizing m with
  | nil => simp at he
  | cons x rs ih =>
    rw [List.map_cons, List.nodup_cons] at hn
    rw [List.foldl_cons]
    rcases List.mem_cons.mp he with rfl | he
    · rw [foldl_putD_ne, smGetD_putD_self]
      intro y hy hxy
      exact hn.1 (hxy ▸ List.mem_map_of_mem hy)
    · exact ih _ hn.2 he

theorem bankOf_putBank_self (d : Dev) (c b : Nat) (rs : List (Nat × AccRes)) :
    bankOf (putBank d c b rs) c b = rs.foldl (fun m e => smPutD 0 m e.1 e.2.acc) (bankOf d c b) := by
  unfold bankOf putBank; simp only [smGetD_putD_self]; rfl

theorem putBank_acc_ne (d : Dev) (c b : Nat) (rs : List (Nat × AccRes)) {k : Nat} (h : k ≠ c * 2 + b) :
    smGetD [] (putBank d c b rs).acc k = smGetD [] d.acc k := by
  unfold putBank; exact smGetD_putD_ne _ _ _ h

theorem mem_tileRun (t : Tile) (isInt clear : Bool) (bank : SMap W32) {i j : Nat} (hi : i < t.rows.length) (hj : j < 128) :
    ((t.r0 + i) * 128 + j, tileElem t isInt (if clear then 0 else smGetD 0 bank ((t.r0 + i) * 128 + j)) i j) ∈ tileRun t isInt clear bank := by
  unfold tileRun
  rw [List.mem_flatMap]
  exact ⟨i, List.mem_range.mpr hi, List.mem_map.mpr ⟨j, List.mem_range.mpr hj, rfl⟩⟩

theorem flatMap_range_mul (n w : Nat) : ((List.range n).flatMap fun i => (List.range w).map (i * w + ·)) = List.range (n * w) := by
  induction n with
  | zero => simp
  | succ n ih => rw [List.range_succ (n := n), List.flatMap_append, ih, Nat.succ_mul, List.range_add]; simp

theorem key_tileRun (t : Tile) (isInt clear : Bool) (bank : SMap W32) :
    (tileRun t isInt clear bank).map Prod.fst = (List.range (t.rows.length * 128)).map (t.r0 * 128 + ·) := by
  unfold tileRun
  rw [List.map_flatMap, ← flatMap_range_mul, List.map_flatMap]
  congr 1
  funext i
  simp only [List.map_map]
  apply List.map_congr_left
  intro j _
  simp only [Function.comp]
  rw [Nat.add_mul, Nat.add_assoc]

theorem passEvents_keeps (d : Dev) (c : Nat) (rs : List (Nat × AccRes)) : Keeps c d (passEvents d c rs) := by
  have one : ∀ (d : Dev) (bit cnt k : Nat), 0x300 ≤ cnt → cnt < 4096 →
      Keeps c d (if k = 0 then d else noted (bump (wrF d (pCell c) Reg.CAL_EVENTS bit bit 1) (pCell c) cnt k) 0 (pCell c)) := by
    intro d bit cnt k hc _
    split
    · exact Keeps.refl _ _
    · refine Keeps.trans (e := wrF d (pCell c) Reg.CAL_EVENTS bit bit 1) ?_ (Keeps.trans (bump_keeps c _ _ _ _ ?_) (noted_keeps _ _ _))
      · exact ⟨rfl, rfl, rfl, fun _ _ => rfl, rfl, rfl, rfl, rd_wr_ne _ _ (by simp only [Reg.CAL_EVENTS, Reg.CEL_RECORDS_ISSUED]; omega)⟩
      · simp only [Reg.CEL_RECORDS_ISSUED]; omega
  unfold passEvents
  exact ((one _ _ _ _ (by decide) (by decide)).trans (one _ _ _ _ (by decide) (by decide))).trans (one _ _ _ _ (by decide) (by decide))

theorem runTiles_keeps (d : Dev) (c b : Nat) (isInt clear : Bool) (n : Nat) (ts : List Tile) :
    let e := (runTiles d c b isInt clear n ts).1
    Keeps c { d with acc := e.acc } e := by
  intro e
  have := passEvents_keeps (putBank d c b (ts.flatMap fun t => tileRun t isInt clear (bankOf d c b))) c (ts.flatMap fun t => tileRun t isInt clear (bankOf d c b))
  exact ⟨this.mem, this.marks, rfl, this.other, this.streams, this.lastIssue, this.inflight, this.issued⟩

theorem runTiles_acc (d : Dev) (c b : Nat) (isInt clear : Bool) (n : Nat) (ts : List Tile) :
    (runTiles d c b isInt clear n ts).1.acc = (putBank d c b (ts.flatMap fun t => tileRun t isInt clear (bankOf d c b))).acc :=
  (passEvents_keeps (putBank d c b (ts.flatMap fun t => tileRun t isInt clear (bankOf d c b))) c _).acc

theorem bankOf_of_acc {d e : Dev} (h : e.acc = d.acc) (c b : Nat) : bankOf e c b = bankOf d c b := by unfold bankOf; rw [h]

/-- The accumulators of a tile after its pass. -/
theorem runTiles_get (d : Dev) (c b : Nat) (isInt clear : Bool) (n : Nat) (ts : List Tile)
    (hn : ((ts.flatMap fun t => tileRun t isInt clear (bankOf d c b)).map Prod.fst).Nodup) (t : Tile) (ht : t ∈ ts) {i j : Nat}
    (hi : i < t.rows.length) (hj : j < 128) :
    smGetD 0 (bankOf (runTiles d c b isInt clear n ts).1 c b) ((t.r0 + i) * 128 + j)
      = (tileElem t isInt (if clear then 0 else smGetD 0 (bankOf d c b) ((t.r0 + i) * 128 + j)) i j).acc := by
  rw [bankOf_of_acc (runTiles_acc _ _ _ _ _ _ _), bankOf_putBank_self]
  exact foldl_putD_get _ _ hn _ (List.mem_flatMap.mpr ⟨t, ht, mem_tileRun t isInt clear _ hi hj⟩)

theorem runTiles_other (d : Dev) (c b : Nat) (isInt clear : Bool) (n : Nat) (ts : List Tile) {k : Nat} (h : k ≠ c * 2 + b) :
    smGetD [] (runTiles d c b isInt clear n ts).1.acc k = smGetD [] d.acc k := by
  rw [runTiles_acc, putBank_acc_ne _ _ _ _ h]

/-! passes without marks -/

theorem markedSectors_clean {d : Dev} (h : d.marks = []) (a n : Nat) : markedSectors d a n = [] := by
  unfold markedSectors marksIn; rw [h]; split <;> rfl

theorem marksIn_clean {d : Dev} (h : d.marks = []) (a n : Nat) : marksIn d a n = [] := by
  unfold marksIn; rw [h]; split <;> rfl

theorem segCorrs_clean {d : Dev} (h : d.marks = []) (c : Nat) (x : PassOps) (s : SparseP) (w live k : Nat) : segCorrs d c x s w live k = [] := by
  unfold segCorrs wordCorrs laneBitCorrs vectorCorrs
  simp [markedSectors_clean h]

theorem passCorrs_clean {d : Dev} (h : d.marks = []) (c addr : Nat) (x : PassOps) (live : Nat) : passCorrs d c addr x live = [] := by
  have hs : ∀ s w l, segCorrs d c x s w l = fun _ => [] := fun s w l => funext fun k => segCorrs_clean h c x s w l k
  have hf : ∀ l : List Nat, l.flatMap (fun _ => ([] : List Corr)) = [] := fun l => by simp [List.flatMap_eq_nil_iff]
  unfold passCorrs wordCorrs operandCorrs scaleCorrs
  simp [markedSectors_clean h, corrSort, hs, hf]

theorem quarterCorrs_clean {d : Dev} (h : d.marks = []) (c : Nat) (x : SplitOps) (q : Nat) : quarterCorrs d c x q = [] := by
  unfold quarterCorrs wordCorrs operandCorrs scaleCorrs
  simp [markedSectors_clean h]

theorem liveRows_snd (d : Dev) (c addr top : Nat) (en : Bool) :
    (liveRows d c addr top en).2 = if en then min top (readLe d (cellAddr c addr) 4) else top := by
  unfold liveRows
  cases en
  · simp
  · simp only [Bool.not_true, Bool.false_eq_true, if_false, if_true]; split <;> simp <;> omega

theorem eventG_keeps (c : Nat) (d : Dev) (g o b k : Nat) (h : Reg.CEL_RECORDS_ISSUED ≠ o) (h' : Reg.CEL_RECORDS_ISSUED ≠ k) :
    Keeps c d (eventG d g (pCell c) o b k) :=
  (event_keeps c d _ _ _ _ (by omega) (by omega)).trans (noted_keeps _ _ _)

theorem liveRows_keeps (d : Dev) (c addr top : Nat) (en : Bool) : Keeps c d (liveRows d c addr top en).1 := by
  unfold liveRows
  split
  · exact Keeps.refl _ _
  · dsimp only; split
    · exact eventG_keeps c d _ _ _ _ (by decide) (by decide)
    · exact Keeps.refl _ _

theorem sparseEvent_keeps (d : Dev) (c bit cnt : Nat) (any : Bool) (h : Reg.CEL_RECORDS_ISSUED ≠ cnt) : Keeps c d (sparseEvent d c bit cnt any) := by
  unfold sparseEvent; split
  · exact eventG_keeps c d _ _ _ _ (by decide) h
  · exact Keeps.refl _ _

theorem wrN_sp (d : Dev) (c n : Nat) : Keeps c d (wrN d (pCell c) Reg.CEL_SP_LAST n) :=
  ⟨rfl, rfl, rfl, fun _ _ => rfl, rfl, rfl, rfl, rd_wr_ne _ _ (by simp only [Reg.CEL_SP_LAST, Reg.CEL_RECORDS_ISSUED]; omega)⟩

theorem sparseCounts_keeps (d : Dev) (c r k f g : Nat) (x : PassOps) (s : SparseP) : Keeps c d (sparseCounts d c r k f g x s) := by
  have hb : ∀ d o n, Reg.CEL_RECORDS_ISSUED ≠ o → Keeps c d (bump d (pCell c) o n) := fun d o n h => bump_keeps c d _ _ _ (by omega)
  unfold sparseCounts
  dsimp only
  split <;> (try refine Keeps.trans ?_ (wrN_sp _ _ _))
  all_goals
    refine Keeps.trans ?_ (hb _ _ _ (by decide))
    refine Keeps.trans ?_ (sparseEvent_keeps _ _ _ _ _ (by decide))
    refine Keeps.trans ?_ (hb _ _ _ (by decide))
    refine Keeps.trans ?_ (sparseEvent_keeps _ _ _ _ _ (by decide))
    refine Keeps.trans ?_ (hb _ _ _ (by decide))
    refine Keeps.trans ?_ (sparseEvent_keeps _ _ _ _ _ (by decide))
    refine Keeps.trans ?_ (hb _ _ _ (by decide))
    refine Keeps.trans ?_ (sparseEvent_keeps _ _ _ _ _ (by decide))
    exact hb _ _ _ (by decide)

theorem events_keeps (c : Nat) (d : Dev) (o b k n : Nat) (h : Reg.CEL_RECORDS_ISSUED ≠ o) (h' : Reg.CEL_RECORDS_ISSUED ≠ k) :
    Keeps c d (events d (pCell c) o b k n) := by
  unfold events; split
  · exact Keeps.refl _ _
  · refine Keeps.trans (e := wrF d (pCell c) o b b 1) ?_ (bump_keeps c _ _ _ _ (by omega))
    exact ⟨rfl, rfl, rfl, fun _ _ => rfl, rfl, rfl, rfl, rd_wr_ne _ _ (by omega)⟩

theorem chargeLag_keeps (d : Dev) (c : Nat) (hc : c < 256) (p : Nat) (hp : p < 16) : Keeps c d (chargeLag d c p) := by
  unfold chargeLag
  refine Keeps.trans ?_ (modCell_keeps c _ _ (fun _ => rfl) (fun _ => rfl) (fun _ => rfl))
  refine Keeps.trans ?_ (bump_keeps c _ _ _ _ (by simp only [Reg.CEL_RECORDS_ISSUED, Reg.CTL_DIST_CYCLES, pCell, pPart]; omega))
  refine Keeps.trans ?_ (bump_keeps c _ _ _ _ (by simp only [Reg.CEL_RECORDS_ISSUED, Reg.CTL_DIST_CYCLES, pCell, pPart]; omega))
  exact bump_keeps c _ _ _ _ (by simp only [Reg.CEL_RECORDS_ISSUED, Reg.CEL_LAG_CYCLES]; omega)

/-- What a pass's settlement leaves beside its own record's times: data space, marks, accumulators, the other cells, the issue count, and every
stream but that of the record, which goes on in its state. -/
structure Settles (c s : Nat) (d e : Dev) : Prop where
  mem : e.mem = d.mem
  marks : e.marks = d.marks
  acc : e.acc = d.acc
  other : ∀ k, k ≠ c → cellOf e k = cellOf d k
  strm : ∀ q, q ≠ s → strmOf (cellOf e c) q = strmOf (cellOf d c) q
  state : (strmOf (cellOf e c) s).state = (strmOf (cellOf d c) s).state
  recs : (strmOf (cellOf e c) s).recs = (strmOf (cellOf d c) s).recs
  lastIssue : (cellOf e c).lastIssue = (cellOf d c).lastIssue
  issued : rd e (pCell c) Reg.CEL_RECORDS_ISSUED = rd d (pCell c) Reg.CEL_RECORDS_ISSUED

theorem Keeps.settles {c : Nat} {d e : Dev} (s : Nat) (h : Keeps c d e) : Settles c s d e := by
  have hs : ∀ q, strmOf (cellOf e c) q = strmOf (cellOf d c) q := fun q => by unfold strmOf; rw [h.streams]
  exact ⟨h.mem, h.marks, h.acc, h.other, fun q _ => hs q, by rw [hs], by rw [hs], h.lastIssue, h.issued⟩

theorem Settles.trans {c s : Nat} {d e f : Dev} (h : Settles c s d e) (k : Settles c s e f) : Settles c s d f :=
  ⟨k.mem.trans h.mem, k.marks.trans h.marks, k.acc.trans h.acc, fun q hq => (k.other q hq).trans (h.other q hq),
    fun q hq => (k.strm q hq).trans (h.strm q hq), k.state.trans h.state, k.recs.trans h.recs, k.lastIssue.trans h.lastIssue, k.issued.trans h.issued⟩

theorem modFl_settles (d : Dev) (c id s : Nat) (g : InFl → InFl) : Settles c s d (modFl d c id g) := by
  unfold modFl
  refine ⟨rfl, rfl, rfl, fun _ hk => cellOf_modCell_ne d _ hk, fun _ _ => ?_, ?_, ?_, ?_, rfl⟩ <;> (rw [cellOf_modCell_self]; try rfl)

theorem modStrm_settles (d : Dev) (c s : Nat) (g : Strm → Strm) (h1 : ∀ x, (g x).state = x.state) (h2 : ∀ x, (g x).recs = x.recs) :
    Settles c s d (modStrm d c s g) := by
  refine ⟨rfl, rfl, rfl, fun _ hk => cellOf_modStrm_ne d _ _ hk, fun _ hq => ?_, ?_, ?_, ?_, rfl⟩
  · rw [cellOf_modStrm_self, strmOf_mod_ne _ _ hq]
  · rw [cellOf_modStrm_self, strmOf_mod_self, h1]
  · rw [cellOf_modStrm_self, strmOf_mod_self, h2]
  · rw [cellOf_modStrm_self]

/-- A pass's settlement (R76, R82, R84, R500). -/
theorem settlePass_settles (d : Dev) (c : Nat) (hc : c < 256) (f : InFl) (q : PassRun) (gated : Nat) (lost : Bool) :
    Settles c f.stream.val d (settlePass d c f q gated lost) := by
  have hp := cellPart_lt d c
  unfold settlePass
  dsimp only
  refine Settles.trans ?_ (Keeps.settles _ (modCell_keeps c _ _ (fun x => by split <;> rfl) (fun x => by split <;> rfl)
    (fun x => by split <;> rfl)))
  refine Settles.trans ?_ (Keeps.settles _ (bump_keeps c _ _ _ _ (by simp only [Reg.CEL_RECORDS_ISSUED, Reg.CEL_GATED_STEPS]; omega)))
  refine Settles.trans ?_ (Keeps.settles _ (bump_keeps c _ _ _ _ (by simp only [Reg.CEL_RECORDS_ISSUED, Reg.CEL_STEP_COUNT]; omega)))
  refine Settles.trans ?_ (modStrm_settles _ _ _ _ (fun _ => rfl) (fun _ => rfl))
  refine Settles.trans (Keeps.settles _ ?_) (modFl_settles _ _ _ _ _)
  refine Keeps.trans ?_ (chargeLag_keeps _ c hc _ hp)
  refine Keeps.trans ?_ (modCell_keeps c _ _ (fun _ => rfl) (fun _ => rfl) (fun _ => rfl))
  split
  · exact Keeps.refl _ _
  · exact (events_keeps c _ _ _ _ _ (by decide) (by decide)).trans (disturb_keeps c hc _ _ _ _ _ _ hp)

theorem readByte_congr {d e : Dev} (h : e.mem = d.mem) (a : Nat) : readByte e a = readByte d a := by unfold readByte; rw [h]

theorem elemNum_congr {d e : Dev} (h : e.mem = d.mem) (f a i : Nat) : elemNum e f a i = elemNum d f a i := by
  unfold elemNum elemRaw; simp only [readByte_congr h, readLe_congr h]

theorem denseTile_congr {d e : Dev} (h : e.mem = d.mem) (r0 n l k af bf a b g sa sb : Nat) :
    denseTile e r0 n l k af bf a b g sa sb = denseTile d r0 n l k af bf a b g sa sb := by
  unfold denseTile scaleAt; simp only [elemNum_congr h, readByte_congr h, readLe_congr h]

theorem sparseP_congr {d e : Dev} (h : e.mem = d.mem) (c m : Nat) (p : BitVec 16) (b : Nat) : sparseP e c m p b = sparseP d c m p b := by
  unfold sparseP; simp only [readByte_congr h, readLe_congr h]

theorem sparseTile_congr {d e : Dev} (h : e.mem = d.mem) (c l k af bf a b g sa sb mb : Nat) (s : SparseP) :
    sparseTile e c l k af bf a b g sa sb mb s = sparseTile d c l k af bf a b g sa sb mb s := by
  unfold sparseTile aEffective bEffective aBits bKeep bBits scaleAt
  simp only [elemNum_congr h, readByte_congr h, readLe_congr h]

theorem quarter_congr {d e : Dev} (h : e.mem = d.mem) (c : Nat) (x : SplitOps) (q : Nat) : quarter e c x q = quarter d c x q := by
  unfold quarter; simp only [readLe_congr h]

theorem openChain_keeps (d : Dev) (c t0 : Nat) : Keeps c d (modCell d c fun y => openChain y t0) :=
  modCell_keeps c d _ (fun x => by unfold openChain; split <;> rfl) (fun x => by unfold openChain; split <;> rfl) (fun x => by unfold openChain; split <;> rfl)

/-- Keeping all but the accumulators. -/
def KeepsX (c : Nat) (d e : Dev) : Prop := Keeps c { d with acc := e.acc } e

theorem Keeps.x {c : Nat} {d e : Dev} (h : Keeps c d e) : KeepsX c d e := ⟨h.mem, h.marks, rfl, h.other, h.streams, h.lastIssue, h.inflight, h.issued⟩

theorem KeepsX.trans {c : Nat} {d e f : Dev} (h : KeepsX c d e) (k : KeepsX c e f) : KeepsX c d f :=
  ⟨k.mem.trans h.mem, k.marks.trans h.marks, rfl, fun q hq => (k.other q hq).trans (h.other q hq), k.streams.trans h.streams,
    k.lastIssue.trans h.lastIssue, k.inflight.trans h.inflight, k.issued.trans h.issued⟩

theorem denseTile_rows (d : Dev) (r0 n l k af bf a b g sa sb : Nat) : (denseTile d r0 n l k af bf a b g sa sb).rows.length = n := by
  unfold denseTile; simp

theorem sparseTile_rows (d : Dev) (c l k af bf a b g sa sb mb : Nat) (s : SparseP) : (sparseTile d c l k af bf a b g sa sb mb s).rows.length = 128 := by
  unfold sparseTile; simp

theorem nodup_map_add (n k : Nat) : ((List.range n).map (k + ·)).Nodup := by
  rw [List.nodup_iff_pairwise_ne, List.pairwise_map]
  exact List.nodup_range.imp fun h e => h (by omega)

/-- The tile that a PASS runs, on the data space it finds. -/
def passTileOf (d : Dev) (c : Nat) (x : PassOps) (b live : Nat) : Tile :=
  if x.sparseMode.val = 0
  then denseTile d 0 128 live (32 * x.u) x.aFmt.val x.bFmt.val (cellAddr c x.aBase) b x.group.val (cellAddr c x.aScaleBase) (cellAddr c x.bScaleBase)
  else sparseTile d c live (32 * x.u) x.aFmt.val x.bFmt.val x.aBase x.bBase x.group.val (cellAddr c x.aScaleBase) (cellAddr c x.bScaleBase) x.metaBase
    (sparseP d c x.sparseMode.val x.sparseParam x.metaBase)

theorem passTileOf_r0 (d : Dev) (c : Nat) (x : PassOps) (b live : Nat) : (passTileOf d c x b live).r0 = 0 ∧ (passTileOf d c x b live).rows.length = 128 := by
  unfold passTileOf; split
  · exact ⟨rfl, denseTile_rows _ _ _ _ _ _ _ _ _ _ _ _⟩
  · exact ⟨rfl, sparseTile_rows _ _ _ _ _ _ _ _ _ _ _ _ _⟩

theorem passTile_spec (d : Dev) (c rid addr : Nat) (x : PassOps) (live : Nat) :
    let e := (passTile d c rid addr x live).1
    let T := passTileOf d c x (passB c addr x) live
    KeepsX c d e ∧ (∀ k, k ≠ c * 2 + x.bank.val → smGetD [] e.acc k = smGetD [] d.acc k)
      ∧ ∀ i j, i < 128 → j < 128 → smGetD 0 (bankOf e c x.bank.val) (i * 128 + j)
          = (tileElem T (fmtIsInt x.aFmt.val) (if x.clear then 0 else smGetD 0 (bankOf d c x.bank.val) (i * 128 + j)) i j).acc := by
  intro e T
  have hT := passTileOf_r0 d c x (passB c addr x) live
  have run : ∀ n, let r := (runTiles d c x.bank.val (fmtIsInt x.aFmt.val) x.clear n [T]).1
      (∀ k, k ≠ c * 2 + x.bank.val → smGetD [] r.acc k = smGetD [] d.acc k)
      ∧ ∀ i j, i < 128 → j < 128 → smGetD 0 (bankOf r c x.bank.val) (i * 128 + j)
          = (tileElem T (fmtIsInt x.aFmt.val) (if x.clear then 0 else smGetD 0 (bankOf d c x.bank.val) (i * 128 + j)) i j).acc := by
    intro n r
    refine ⟨fun k hk => runTiles_other _ _ _ _ _ _ _ hk, fun i j hi hj => ?_⟩
    have := runTiles_get d c x.bank.val (fmtIsInt x.aFmt.val) x.clear n [T] (by
      simp only [List.flatMap_cons, List.flatMap_nil, List.append_nil]
      rw [key_tileRun]; exact nodup_map_add _ _) T List.mem_cons_self (i := i) (j := j) (by rw [hT.2]; exact hi) hj
    rw [hT.1, Nat.zero_add] at this
    exact this
  by_cases hs : x.sparseMode.val = 0
  · have he : e = (runTiles d c x.bank.val (fmtIsInt x.aFmt.val) x.clear (32 * x.u) [T]).1 := by
      show (passTile d c rid addr x live).1 = _
      unfold passTile; dsimp only; rw [if_pos hs]; simp only [T, passTileOf, if_pos hs]
    rw [he]
    exact ⟨runTiles_keeps _ _ _ _ _ _ _, run _⟩
  · have he : e = sparseCounts (runTiles d c x.bank.val (fmtIsInt x.aFmt.val) x.clear (32 * x.u) [T]).1 c rid (32 * x.u) x.aFmt.val x.group.val x
        (sparseP d c x.sparseMode.val x.sparseParam x.metaBase) := by
      show (passTile d c rid addr x live).1 = _
      unfold passTile; dsimp only; rw [if_neg hs]; simp only [T, passTileOf, if_neg hs]
    rw [he]
    have hk := sparseCounts_keeps (runTiles d c x.bank.val (fmtIsInt x.aFmt.val) x.clear (32 * x.u) [T]).1 c rid (32 * x.u) x.aFmt.val x.group.val x
        (sparseP d c x.sparseMode.val x.sparseParam x.metaBase)
    refine ⟨KeepsX.trans (runTiles_keeps d c x.bank.val (fmtIsInt x.aFmt.val) x.clear (32 * x.u) [T]) hk.x, fun k h => ?_, fun i j hi hj => ?_⟩
    · rw [hk.acc]; exact (run _).1 k h
    · rw [bankOf_of_acc hk.acc]; exact (run _).2 i j hi hj

/-- A PASS that meets no marked word runs its tile on what it finds, and settles. -/
theorem runPass_clean (d : Dev) (c : Nat) (f : InFl) (x : PassOps) (r : Nat) (hm : d.marks = []) (he : sparseErr d c x = none) :
    ∃ d1, Keeps c d d1 ∧ runPass d c f x r [] false =
      settlePass (passTile d1 c f.recId f.addr x (if x.liveEn then min 128 (readLe d (cellAddr c x.liveAddr) 4) else 128)).1 c f
        (passRun (cellOf d c) false x.bcast x.bank x.aFmt x.bFmt (32 * x.u) r)
        (passTile d1 c f.recId f.addr x (if x.liveEn then min 128 (readLe d (cellAddr c x.liveAddr) 4) else 128)).2 false := by
  have k0 := openChain_keeps d c r
  have hm0 : (modCell d c fun y => openChain y r).marks = [] := hm
  have hv := liveRows_snd (modCell d c fun y => openChain y r) c x.liveAddr 128 x.liveEn
  rw [readLe_congr k0.mem] at hv
  refine ⟨_, k0.trans (liveRows_keeps (modCell d c fun y => openChain y r) c x.liveAddr 128 x.liveEn), ?_⟩
  unfold runPass
  rw [he]
  dsimp only
  rw [passCorrs_clean hm0]
  simp only [List.foldl_nil, takeCorrs, Bool.or_self, Bool.false_eq_true, if_false]
  rw [hv]

/-- The four tiles of a PASS_SPLIT. -/
def splitTiles (d : Dev) (c : Nat) (x : SplitOps) : List Tile := (List.range 4).map fun q =>
  let e := quarter d c x q
  denseTile d (32 * q) 32 (if e.liveEn then min 32 (readLe d (cellAddr c e.live) 4) else 32) (32 * x.u) x.aFmt.val x.bFmt.val
    (cellAddr c e.a) (cellAddr c e.b) x.group.val (cellAddr c e.sa) (cellAddr c e.sb)

theorem quarterLives_spec (d : Dev) (c : Nat) (x : SplitOps) : Keeps c d (quarterLives d c x).1 ∧ ∀ q, q < 4 →
    (quarterLives d c x).2.getD q 32 = if (quarter d c x q).liveEn then min 32 (readLe d (cellAddr c (quarter d c x q).live) 4) else 32 := by
  have k0 := liveRows_keeps d c (quarter d c x 0).live 32 (quarter d c x 0).liveEn
  generalize h0 : liveRows d c (quarter d c x 0).live 32 (quarter d c x 0).liveEn = v0 at k0
  have k1 := liveRows_keeps v0.1 c (quarter v0.1 c x 1).live 32 (quarter v0.1 c x 1).liveEn
  generalize h1 : liveRows v0.1 c (quarter v0.1 c x 1).live 32 (quarter v0.1 c x 1).liveEn = v1 at k1
  have k2 := liveRows_keeps v1.1 c (quarter v1.1 c x 2).live 32 (quarter v1.1 c x 2).liveEn
  generalize h2 : liveRows v1.1 c (quarter v1.1 c x 2).live 32 (quarter v1.1 c x 2).liveEn = v2 at k2
  have k3 := liveRows_keeps v2.1 c (quarter v2.1 c x 3).live 32 (quarter v2.1 c x 3).liveEn
  generalize h3 : liveRows v2.1 c (quarter v2.1 c x 3).live 32 (quarter v2.1 c x 3).liveEn = v3 at k3
  have e : quarterLives d c x = (v3.1, [v0.2, v1.2, v2.2, v3.2]) := by
    unfold quarterLives
    rw [show List.range 4 = [0, 1, 2, 3] from rfl]
    simp only [List.foldl_cons, List.foldl_nil, h0, h1, h2, h3, List.nil_append, List.cons_append]
  rw [e]
  refine ⟨((k0.trans k1).trans k2).trans k3, fun q hq => ?_⟩
  have m1 := k0.mem
  have m2 := (k0.trans k1).mem
  have m3 := ((k0.trans k1).trans k2).mem
  match q, hq with
  | 0, _ => rw [← h0]; exact liveRows_snd _ _ _ _ _
  | 1, _ => rw [← h1]; simp only [List.getD_cons_succ, List.getD_cons_zero]; rw [liveRows_snd, quarter_congr m1, readLe_congr m1]
  | 2, _ => rw [← h2]; simp only [List.getD_cons_succ, List.getD_cons_zero]; rw [liveRows_snd, quarter_congr m2, readLe_congr m2]
  | 3, _ => rw [← h3]; simp only [List.getD_cons_succ, List.getD_cons_zero]; rw [liveRows_snd, quarter_congr m3, readLe_congr m3]

theorem splitTiles_nodup (d : Dev) (c : Nat) (x : SplitOps) (isInt clear : Bool) (bank : SMap W32) :
    (((splitTiles d c x).flatMap fun t => tileRun t isInt clear bank).map Prod.fst).Nodup := by
  have : ((splitTiles d c x).flatMap fun t => tileRun t isInt clear bank).map Prod.fst = (List.range 4).flatMap fun i => (List.range 4096).map (i * 4096 + ·) := by
    unfold splitTiles
    rw [List.map_flatMap, List.flatMap_map]
    refine congrArg (fun g => List.flatMap g (List.range 4)) (funext fun q => ?_)
    rw [key_tileRun, denseTile_rows]
    apply List.map_congr_left
    intro j _
    show 32 * q * 128 + j = q * 4096 + j
    omega
  rw [this, flatMap_range_mul]; exact List.nodup_range

/-- A PASS_SPLIT that meets no marked word runs its four tiles on what it finds, and settles. -/
theorem runSplit_clean (d : Dev) (c : Nat) (f : InFl) (x : SplitOps) (r : Nat) (hm : d.marks = []) :
    ∃ d1, Keeps c d d1 ∧ runSplit d c f x r =
      settlePass (runTiles d1 c x.bank.val (fmtIsInt x.aFmt.val) x.clear (32 * x.u) (splitTiles d c x)).1 c f
        (passRun (cellOf d c) true false x.bank x.aFmt x.bFmt (32 * x.u) r)
        (runTiles d1 c x.bank.val (fmtIsInt x.aFmt.val) x.clear (32 * x.u) (splitTiles d c x)).2 false := by
  have k0 := openChain_keeps d c r
  have hm0 : (modCell d c fun y => openChain y r).marks = [] := hm
  obtain ⟨k1', hv⟩ := quarterLives_spec (modCell d c fun y => openChain y r) c x
  have k1 := k0.trans k1'
  generalize hq : quarterLives (modCell d c fun y => openChain y r) c x = v at k1 k1' hv
  have ht : ((List.range 4).map fun q =>
      let e := quarter v.1 c x q
      denseTile v.1 (32 * q) 32 (v.2.getD q 32) (32 * x.u) x.aFmt.val x.bFmt.val (cellAddr c e.a) (cellAddr c e.b) x.group.val
        (cellAddr c e.sa) (cellAddr c e.sb)) = splitTiles d c x := by
    unfold splitTiles
    apply List.map_congr_left
    intro q hq
    simp only [quarter_congr k1.mem, denseTile_congr k1.mem]
    rw [hv q (List.mem_range.mp hq), quarter_congr k0.mem, readLe_congr k0.mem]
  have hcorr : corrSort (((List.range 4).flatMap fun q =>
    wordCorrs (modCell d c fun y => openChain y r) (cellAddr c (x.tableBase + 32 * q)) 32 0 (laneRun (32 * q) 32 ++ laneRun 128 128))
    ++ (List.range 4).flatMap (quarterCorrs (modCell d c fun y => openChain y r) c x)) = [] := by
    have : quarterCorrs (modCell d c fun y => openChain y r) c x = fun _ => [] := funext fun q => quarterCorrs_clean hm0 c x q
    rw [this]
    simp only [wordCorrs, markedSectors_clean hm0, List.map_nil]
    rfl
  refine ⟨v.1, k1, ?_⟩
  unfold runSplit
  dsimp only
  rw [hcorr]
  simp only [takeCorrs, Bool.false_eq_true, if_false]
  rw [hq]
  have := ht
  dsimp only at this
  rw [this]

/-- A record that joins those in flight with an id that is new, and gets its times: it is the last one. -/
theorem getLast?_map_append (l : List InFl) (f : InFl) (g : InFl → InFl) : ((l ++ [f]).map g).getLast? = some (g f) := by simp

theorem cellsBut_of {c : Nat} {d e : Dev} (h : ∀ k, k ≠ c → cellOf e k = cellOf d k) : cellsBut c d e := h

/-- An issue stays one over the settlement of its pass. -/
theorem Issued.settles {d e f : Dev} {a : RecAt} {h : RecHdr} {st : StrmState} (hi : Issued d e a h st) (k : Settles a.cell.val a.stream.val e f) :
    Issued d f a h st := by
  obtain ⟨h1, h2, h3, h4, h5, h6⟩ := hi
  refine ⟨k.state.trans h1, k.recs.trans h2, fun q hq => (k.strm q hq).trans (h3 q hq), k.lastIssue.trans h4, ?_, fun q hq => (k.other q hq).trans (h6 q hq)⟩
  unfold rdN at *; rw [k.issued]; exact h5

/-! ## Drains -/

theorem drainBytes_congr {d e : Dev} (h : e.acc = d.acc) (c b : Nat) (i r : Bool) (f : Nat) (g : CalCfg) (st : Bool) (k : W64) (sl : Nat) :
    drainBytes e c b i r f g st k sl = drainBytes d c b i r f g st k sl := by
  unfold drainBytes drainRow; simp only [bankOf_of_acc h]

theorem calCfg_congr {d e : Dev} (h : e.mem = d.mem) (c n : Nat) : calCfg e c n = calCfg d c n := by
  unfold calCfg; simp only [readByte_congr h, readLe_congr h, readBytes_congr h]

theorem eventsG_keeps (c : Nat) (d : Dev) (g o b k n : Nat) (h : Reg.CEL_RECORDS_ISSUED ≠ o) (h' : Reg.CEL_RECORDS_ISSUED ≠ k) :
    Keeps c d (eventsG d g (pCell c) o b k n) := by
  unfold eventsG; split
  · exact Keeps.refl _ _
  · refine Keeps.trans ?_ (noted_keeps _ _ _)
    refine Keeps.trans (e := wrF d (pCell c) o b b 1) ?_ (bump_keeps c _ _ _ _ (by omega))
    exact ⟨rfl, rfl, rfl, fun _ _ => rfl, rfl, rfl, rfl, rd_wr_ne _ _ (by omega)⟩

/-- Keeping all but data space and marks. -/
def KeepsM (c : Nat) (d e : Dev) : Prop := Keeps c { d with mem := e.mem, marks := e.marks } e

theorem Keeps.m {c : Nat} {d e : Dev} (h : Keeps c d e) : KeepsM c d e := ⟨rfl, rfl, h.acc, h.other, h.streams, h.lastIssue, h.inflight, h.issued⟩

theorem KeepsM.trans {c : Nat} {d e f : Dev} (h : KeepsM c d e) (k : KeepsM c e f) : KeepsM c d f :=
  ⟨rfl, rfl, k.acc.trans h.acc, fun q hq => (k.other q hq).trans (h.other q hq), k.streams.trans h.streams,
    k.lastIssue.trans h.lastIssue, k.inflight.trans h.inflight, k.issued.trans h.issued⟩

theorem cellWrite_keepsM (d : Dev) (c k r a : Nat) (bs : List Byte) : KeepsM c d (cellWrite d k r a bs) := by
  have hc := cellOf_of_cells (cellWrite_cells d k r a bs)
  exact ⟨rfl, rfl, by rw [cellWrite_only], fun q _ => hc q, by rw [hc]; rfl, by rw [hc]; rfl, by rw [hc]; rfl, rd_cellWrite _ _ _ _ _ (by simp only [pCell, Reg.CEL_RECORDS_ISSUED]; omega)⟩

theorem Issued.keepsM {d e f : Dev} {a : RecAt} {h : RecHdr} {st : StrmState} (hi : Issued d e a h st) (k : KeepsM a.cell.val e f) : Issued d f a h st := by
  refine Issued.keep hi (fun q => ?_) k.lastIssue (fun q hq => k.other q hq) k.issued
  by_cases hq : q = a.cell.val
  · rw [hq]; exact k.streams
  · rw [show cellOf f q = cellOf e q from k.other q hq]

/-- A drain that nothing delays charges nothing. -/
theorem drainLate_zero (d : Dev) (c p : Nat) : drainLate d c p 0 = d := rfl

/-- The read-modify-writes of a drain that meets no marked sector. -/
theorem drainCorrs_nil (p a w v : Nat) (d : Dev) : drainCorrs p a w v [] [] d = (d, 0, false) := rfl

/-- A Calender entry's sector without a mark reads as it stands. -/
theorem calRead_clean {d : Dev} (h : d.marks = []) (c p v : Nat) (x : DrainOps) : calRead d c p v x = (d, false) := by
  unfold calRead; split
  · rfl
  · dsimp only; rw [heal_clean _ _ _ _ (marksIn_clean h _ _), markedSectors_clean h]; rfl

/-! ## After an issue -/

theorem issuedDev_rd (d : Dev) (a : RecAt) (t : Nat) {u o : Nat} (h : o < 4096) (h2 : u ≠ pCell a.cell.val ∨ o ≠ Reg.CEL_RECORDS_ISSUED) :
    rd (issuedDev d a t) u o = rd d u o :=
  rd_issuedDev d a t (by simp only [Reg.CEL_RECORDS_ISSUED] at *; omega)

/-! ## Remote operations that leave -/

/-- A step of the fabric, or of what a partition has sent: nothing else changes, and the ring keeps its racks. -/
def OnlyFab (d e : Dev) : Prop := e = { d with fab := { e.fab with racks := d.fab.racks }, parts := e.parts }

theorem OnlyFab.trans {d e f : Dev} (h : OnlyFab d e) (k : OnlyFab e f) : OnlyFab d f := by unfold OnlyFab at *; rw [k, h]

theorem schedClass_onlyFab (d : Dev) (p c st n cy b : Nat) : OnlyFab d (schedClass d p c st n cy b).1 ∧ (schedClass d p c st n cy b).1.fab = d.fab := by
  unfold schedClass
  split
  · exact ⟨rfl, rfl⟩
  · dsimp only; split
    · exact ⟨rfl, rfl⟩
    · exact ⟨rfl, rfl⟩

theorem placeNode_mk {pod node unit : Nat} (h1 : node < 2048) (h2 : unit < 8192) : placeNode (mkPlace pod node unit) = node := by
  unfold placeNode mkPlace; omega

theorem placePod_mk {pod node unit : Nat} (h0 : pod < 256) (h1 : node < 2048) (h2 : unit < 8192) : placePod (mkPlace pod node unit) = pod := by
  unfold placePod mkPlace; omega

theorem myPod_lt (d : Dev) : myPod d < 256 := by unfold myPod placePod; exact Nat.mod_lt _ (by decide)

/-- A counted packet for a device of the pod waits at its engine. -/
theorem sendPkt_local (d : Dev) (p : Pkt) (ho : placePod p.dest = myPod d) (hn : nodeNames d (placeNode p.dest) = true) (hc : typeCounted p.type = true) :
    OnlyFab d (sendPkt d p) ∧ ∃ q, (sendPkt d p).fab.local_ = d.fab.local_ ++ [q] ∧ q.inPort = none
      ∧ q.pkt = { p with pair := pairNext d p.spart (placeNode p.dest) p.frame % 65536 } := by
  unfold sendPkt
  simp only [ho, hn, hc]
  simp only [ne_eq, not_true_eq_false, decide_false, Bool.false_eq_true, if_false, Bool.not_true, if_true]
  exact ⟨rfl, _, rfl, rfl, rfl⟩

theorem OnlyFab.myPlace {d e : Dev} (h : OnlyFab d e) : myPlace e = myPlace d := by unfold OnlyFab at h; rw [h]; rfl
theorem OnlyFab.myPod {d e : Dev} (h : OnlyFab d e) : myPod e = myPod d := by unfold Machine.myPod; rw [h.myPlace]
theorem OnlyFab.nodeNames {d e : Dev} (h : OnlyFab d e) (n : Nat) : nodeNames e n = nodeNames d n := by
  unfold OnlyFab at h; unfold Machine.nodeNames nRacks; rw [h]

theorem commitPart_lt (d : Dev) (p n : Nat) : commitPart d p n < 16 := by
  unfold commitPart
  split
  · decide
  · next i sl _ =>
    cases h : i.commitMap.find? fun e => e.slice == sl && !e.source && e.peer.node == n with
    | none => simp
    | some e => simp

/-- What a remote operation puts into the fabric. -/
theorem sendRemote_spec (d : Dev) (c stream opId type node off cycle : Nat) (payload : List Byte) (hn : node < 2048) (hd : nodeNames d node = true)
    (ht : type < 5) :
    let e := sendRemote d c stream opId type node off cycle payload
    OnlyFab d e ∧ ∃ l, e.fab.local_ = d.fab.local_ ++ l
        ∧ (l.map fun q => (q.pkt.addr, q.pkt.payload)) = (if type = 2 then splitPayload payload else [(0, payload)]).map (fun e => (off + e.1, e.2))
        ∧ ∀ q ∈ l, q.inPort = none ∧ q.pkt.type = type ∧ q.pkt.frame = frameNum d (cellPart d c) ∧ q.pkt.src = myPlace d + pCell c
            ∧ q.pkt.dest = mkPlace (myPod d) node (pPart (commitPart d (cellPart d c) node)) := by
  intro e
  have hdp := commitPart_lt d (cellPart d c) node
  have key : ∀ (L : List (Nat × List Byte)) (D : Dev), OnlyFab d D →
      let e := L.foldl (fun d' e =>
        let s := schedClass d' (cellPart d c) c stream node cycle e.2.length
        sendPkt s.1 (mkPkt s.1 s.2.1 type false (mkPlace (myPod d') node (pPart (commitPart d (cellPart d c) node))) (pCell c) (commitPart d (cellPart d c) node) (cellPart d c) (frameNum d (cellPart d c)) (off + e.1)
          (c + 256 * opId) s.2.2 e.2)) D
      OnlyFab d e ∧ ∃ l, e.fab.local_ = D.fab.local_ ++ l ∧ (l.map fun q => (q.pkt.addr, q.pkt.payload)) = L.map (fun e => (off + e.1, e.2))
        ∧ ∀ q ∈ l, q.inPort = none ∧ q.pkt.type = type ∧ q.pkt.frame = frameNum d (cellPart d c) ∧ q.pkt.src = myPlace d + pCell c
            ∧ q.pkt.dest = mkPlace (myPod d) node (pPart (commitPart d (cellPart d c) node)) := by
    intro L
    induction L with
    | nil => intro D hD; exact ⟨hD, [], by simp, rfl, fun q hq => by simp at hq⟩
    | cons x L ih =>
      intro D hD
      rw [List.foldl_cons]
      obtain ⟨s1, s2⟩ := schedClass_onlyFab D (cellPart d c) c stream node cycle x.2.length
      generalize hsc : schedClass D (cellPart d c) c stream node cycle x.2.length = sc at s1 s2
      have hS : OnlyFab d sc.1 := hD.trans s1
      have hpl : placePod (mkPlace (myPod D) node (pPart (commitPart d (cellPart d c) node))) = myPod sc.1 := by
        rw [placePod_mk (myPod_lt _) hn (by simp only [pPart]; omega), s1.myPod]
      have hnd : placeNode (mkPlace (myPod D) node (pPart (commitPart d (cellPart d c) node))) = node := placeNode_mk hn (by simp only [pPart]; omega)
      obtain ⟨o1, q, q1, q2, q3⟩ := sendPkt_local sc.1 (mkPkt sc.1 sc.2.1 type false (mkPlace (myPod D) node (pPart (commitPart d (cellPart d c) node))) (pCell c) (commitPart d (cellPart d c) node) (cellPart d c) (frameNum d (cellPart d c)) (off + x.1)
          (c + 256 * opId) sc.2.2 x.2) hpl (by simp only [mkPkt]; rw [hnd, hS.nodeNames]; exact hd) (by unfold typeCounted mkPkt; simp [ht])
      obtain ⟨r1, l, r2, r3, r4⟩ := ih _ (hS.trans o1)
      refine ⟨r1, q :: l, ?_, ?_, ?_⟩
      · refine r2.trans ?_
        rw [q1, s2]; simp
      · rw [List.map_cons, List.map_cons, r3, q3]; rfl
      · intro y hy
        rcases List.mem_cons.mp hy with rfl | hy
        · rw [q2, q3]
          exact ⟨rfl, rfl, rfl, by show myPlace sc.1 + _ = _; rw [hS.myPlace], by show mkPlace (myPod D) _ _ = _; rw [hD.myPod]⟩
        · exact r4 y hy
  exact key _ d rfl

/-- Two devices agree on what the fabric and the scheduler read. -/
structure SameWays (d e : Dev) : Prop where
  fuses : e.fuses = d.fuses
  ctxs : e.ctxs = d.ctxs
  shapes : SameShapes d e
  place : rd e pDev Reg.BOL_PLACE = rd d pDev Reg.BOL_PLACE
  racks : e.fab.racks = d.fab.racks
  clock : rd e pPwr Reg.PWR_STATUS = rd d pPwr Reg.PWR_STATUS
  frame : ∀ p, p < 16 → rd e (pPart p) Reg.CTL_FRAME_NUM = rd d (pPart p) Reg.CTL_FRAME_NUM
  now : ∀ p, p < 16 → rd e (pPart p) Reg.CTL_SCHED_NOW = rd d (pPart p) Reg.CTL_SCHED_NOW
  slice : ∀ p, p < 16 → rd e (pPart p) Reg.CTL_SLICE_IDX = rd d (pPart p) Reg.CTL_SLICE_IDX

theorem issuedDev_sameWays (d : Dev) (a : RecAt) (t : Nat) : SameWays d (issuedDev d a t) := by
  have hO := issuedDev_onlyCells d a t
  have hc := a.cell.isLt
  refine ⟨by rw [hO], by rw [hO], issuedDev_sameShapes d a t, ?_, by rw [hO], ?_, ?_, ?_, ?_⟩
  · exact issuedDev_rd d a t (by decide) (Or.inl (by simp only [pDev, pCell]; omega))
  · exact issuedDev_rd d a t (by decide) (Or.inl (by simp only [pPwr, pBlock, pCell]; omega))
  all_goals exact fun p hp => issuedDev_rd d a t (by decide) (Or.inl (by simp only [pPart, pCell]; omega))

theorem SameWays.of_eq {d e f : Dev} (h : SameWays d e) (h1 : f.regs = e.regs) (h2 : f.fuses = e.fuses) (h3 : f.ctxs = e.ctxs) (h4 : f.fab.racks = e.fab.racks) : SameWays d f := by
  have hr : ∀ u o, rd f u o = rd e u o := fun u o => by unfold rd; rw [h1]
  exact ⟨h2.trans h.fuses, h3.trans h.ctxs, h.shapes.trans (SameShapes.of_regs h1), (hr _ _).trans h.place, h4.trans h.racks, (hr _ _).trans h.clock,
    fun p hp => (hr _ _).trans (h.frame p hp), fun p hp => (hr _ _).trans (h.now p hp), fun p hp => (hr _ _).trans (h.slice p hp)⟩

theorem SameWays.myPlace {d e : Dev} (h : SameWays d e) : myPlace e = myPlace d := by unfold Machine.myPlace rdN; rw [h.place]
theorem SameWays.myPod {d e : Dev} (h : SameWays d e) : myPod e = myPod d := by unfold Machine.myPod; rw [h.myPlace]
theorem SameWays.myNode {d e : Dev} (h : SameWays d e) : myNode e = myNode d := by unfold Machine.myNode; rw [h.myPlace]
theorem SameWays.nodeNames {d e : Dev} (h : SameWays d e) (n : Nat) : nodeNames e n = nodeNames d n := by
  unfold Machine.nodeNames nRacks; rw [h.racks, h.fuses]
theorem SameWays.hops {d e : Dev} (h : SameWays d e) (a b : Nat) : hops e a b = hops d a b := by unfold Machine.hops nRacks; rw [h.racks]
theorem SameWays.remoteT {d e : Dev} (h : SameWays d e) (n : Nat) : remoteT e n = remoteT d n := by unfold Machine.remoteT clockNow rdF; rw [h.clock]
theorem SameWays.frameNum {d e : Dev} (h : SameWays d e) {p : Nat} (hp : p < 16) : frameNum e p = frameNum d p := by unfold Machine.frameNum rdF; rw [h.frame p hp]
theorem SameWays.cellPart {d e : Dev} (h : SameWays d e) (c : Nat) : cellPart e c = cellPart d c := h.shapes.cellPart c
theorem SameWays.runImage {d e : Dev} (h : SameWays d e) {p : Nat} (hp : p < 16) : runImage e p = runImage d p := by
  have hc : ∀ c, ctxOf e c = ctxOf d c := fun c => by unfold ctxOf; rw [h.ctxs]
  unfold Machine.runImage running rdF rdB rdN
  simp only [h.now p hp, h.slice p hp, hc]
theorem SameWays.commitPart {d e : Dev} (h : SameWays d e) {p : Nat} (hp : p < 16) (n : Nat) : commitPart e p n = commitPart d p n := by
  unfold Machine.commitPart; rw [h.runImage hp]

theorem remoteT_pos (d : Dev) (h : Nat) : 1 ≤ remoteT d h := by
  unfold remoteT ceilDiv
  have : 470 ≤ clockNow d := by unfold clockNow clockMHz; split <;> (try split) <;> omega
  have : 800 * 470 ≤ (800 + 320 * h) * clockNow d := Nat.mul_le_mul (by omega) this
  omega

end Sys2Proof.Machine
end

