-- ==== Sys2Proof/Tests/States.lean ====
section
/-! SUPPORT. Small states for the tests and witnesses: a device that is up, with the registers that a test names. -/

namespace Sys2Proof.Tests
open Sys2Proof Sys2Proof.Machine

/-- A device with registers written: unit path, offset, value. -/
def withRegs (d : Dev) (l : List (Nat × Nat × Nat)) : Dev := l.foldl (fun d e => wrN d e.1 e.2.1 e.2.2) d

/-- A state with a device. -/
def st (d : Dev) : State := ⟨[], Propolis.reset, d⟩

/-- A device with power and nothing running. -/
def blank : Dev := { Dev.blank fuses0 Journal.empty with powered := true }

/-- A device in a pod of 8 racks. -/
def pod8 (d : Dev) : Dev := { d with fab := { d.fab with racks := 8 } }

/-- The device up, as node 0 of a pod of 8 racks: partition 0 has comb 0, whose first two cells are READY. -/
def up : Dev := withRegs (pod8 blank)
  [(pDev, Reg.UNIT_STATE, 3), (pDev, Reg.BOL_POD_SHAPE, 8), (pComb 0, Reg.UNIT_STATE, 3), (pCell 0, Reg.UNIT_STATE, 3),
   (pCell 1, Reg.UNIT_STATE, 2), (pPart 0, Reg.UNIT_STATE, 3), (pPart 0, Reg.CTL_PART_COMBS, 1),
   (pPart 0, Reg.CTL_FRAME_ACTIVE, 3)]

/-- An image of one slice for one comb, without sections. -/
def img0 : Image where
  bytes := 4096
  digest := []
  cells := 8
  combs := 1
  frameExp := 3
  clock := 0
  timing := 0
  slices := 1
  loop := true
  remote := false
  loopStart := 0
  fw := 0
  memMask := 0xFF
  portMask := 0xF
  jobId := 0
  frameStart := 0
  members := 0
  blocks := []
  bufList := []
  commitMap := []
  sched := []
  objects := []
  quotas := [0, 0, 0, 0]
  n1m := 0
  n64k := 0
  combTop := 0
  portC := 0
  portF := 0
  wglEngines := []
  swmEngines := []
  forEngines := []
  hRate := 0
  readShare := []
  writeShare := []
  stageBytes := 0
  shape := []
  exchGroup := 0
  self := 0
  exch := []
  params := []
  groups := []
  entries := []
  fgr := []
  brood := none

/-- Context 0 of partition 0 runs an image. -/
def run (d : Dev) (i : Image) : Dev := modCtx d 0 fun x => { x with state := .running, image := some i }

/-- A stream that runs. -/
def strm0 : Strm := ⟨.running, 0, none, none, [], none, none, 0, 0, 0⟩

/-- Stream 0 of a cell runs. -/
def streaming (d : Dev) (c : Nat) : Dev := modCell d c fun x => { x with streams := [(0, strm0)] }

/-- Where the records of the tests issue: stream 0 of cell 0, cycle 10. -/
def at0 : RecAt := ⟨0, 0, 10⟩

/-- A record header that advances tag 3. -/
def hdr0 : RecHdr := ⟨true, false, 3, 0, 0, 7⟩

/-- The device with a stream of cell 0 running in partition 0. -/
def cells0 : Dev := streaming (run up img0) 0

/-- Handle of the first comb-store buffer of comb 0, of the first Tier H buffer of 4 KiB and of 64 KiB. -/
def hComb : Nat := mkHandle 0 0 1
def hTier : Nat := mkHandle 3 0 1
def hBig : Nat := mkHandle 4 0 1

/-- A Vat with 4 KiB buffers in comb 0, 4 KiB and 64 KiB buffers in Tier H, and the first of each in a frame of partition 0. -/
def vat0 : VatSt where
  regions := [(0, ⟨0x80000000000, 16, 1, [], 16⟩), (3 * 64, ⟨0x1000000, 16, 1, [], 16⟩), (4 * 64, ⟨0x2000000, 16, 1, [], 16⟩)]
  bufs := [(0, ⟨.frame, 1, 0, 0, false, false⟩), (3 * 2 ^ 20, ⟨.frame, 1, 0, 0, false, false⟩), (4 * 2 ^ 20, ⟨.frame, 1, 0, 0, false, false⟩)]
  limit := [(0, 65536), (1, 1048576)]
  used := [(0, 4096), (1, 69632)]
  waiting := []
  carve := []

/-- The device with these buffers, the comb-store one in slot 1 of cell 0, and some bytes in the cell's store. -/
def bufs0 : Dev :=
  modCell { cells0 with vat := vat0, mem := (List.range 64).map fun i => (0x80040000000 + 64 + i, BitVec.ofNat 8 (i + 1)) } 0
    fun x => { x with slots := [(1, hComb)] }

/-- Cell 0 of a device holds a record as the next of stream 0. -/
def holding (d : Dev) (h : RecHdr) (b : RecBody) : Dev :=
  modCell d 0 fun x => { x with buffer := List.replicate 0x100 0 ++ encodeRec h b }

/-- The device at READY with every domain on. -/
def ready0 : Dev := withRegs bufs0 [(pPwr, Reg.PWR_DOM_ON, 2 ^ 64 - 1), (pPwr, Reg.PWR_DOM_ON_HI, 0xFFFF), (pBup, Reg.BUP_STATUS, 7)]

/-- A state in which the host has TEST rights as well. -/
def stT (d : Dev) : State := ⟨[], { Propolis.reset with grants := [(0, { grantZero with test := true })] }, d⟩

/-- The host as a requester. -/
def host : Requester := 0x1000

/-- The bytes of a Hexvan packet (Table 16-3). -/
def hxvRaw (p : HxvPkt) : List Byte :=
  let head := leBytes 1 p.cls ++ leBytes 1 (b2n p.last) ++ leBytes 2 p.payload.length ++ leBytes 4 p.reqId ++ leBytes 8 p.addr
    ++ leBytes 1 p.status ++ leBytes 1 p.count ++ leBytes 2 0 ++ leBytes 8 p.aux
  head ++ leBytes 4 (crc32c (head ++ p.payload)) ++ p.payload

end Sys2Proof.Tests
end

