-- ==== Sys2Proof/Tests/WitnessA.lean ====
section
/-! SUPPORT. Witnesses of the statements about cells, registers, time and memory. Each applies its statement at concrete states, with every hypothesis shown by evaluation. -/

namespace Sys2Proof.Tests
open Sys2Proof Sys2Proof.Machine
set_option Elab.async false

/-! ## Cell records -/

/-- The conditions under which a record that waits for no tag issues, as a test. -/
def issues (d : Dev) (a : RecAt) (h : RecHdr) (b : RecBody) : Bool :=
  let c := a.cell.val
  let x := cellOf d c
  let p := cellPart d c
  let t := issueCycle d a h
  frontOpen d c && decide (nextOf x a.stream.val = some (h, b)) && (waitCycle x h).isSome && decide (t ≤ cutCycle d p)
    && ((List.range a.stream.val).all fun q => !couldIssue x q t) && (x.inflight.all fun f => f.started)
    && (decide (b.res ≠ some .net) || decide (x.remotes.length < 16)) && !rdB d (pPart p) Reg.CTL_TRACE_STATUS 2 && !h.wait
    && (decide (b.res ≠ some .vatq) || ((d.cells.all fun e => decide (queued e.2 .vatq = 0))
      && decide (listsDue d (momentOf d p t) = []) && decide (d.vat.waiting = [])))

theorem canIssue_of_issues {d : Dev} {a : RecAt} {h : RecHdr} {b : RecBody} (q : issues d a h b = true) : canIssue d a h b := by
  simp only [issues, Bool.and_eq_true, Bool.or_eq_true, Bool.not_eq_true', decide_eq_true_eq, List.all_eq_true, List.mem_range, ne_eq] at q
  obtain ⟨⟨⟨⟨⟨⟨⟨⟨⟨h1, h2⟩, h3⟩, h4⟩, h5⟩, h6⟩, h7⟩, h8⟩, h9⟩, h10⟩ := q
  refine ⟨h1, h2, h3, h4, h5, h6, fun e => h7.resolve_left fun n => n e, h8, fun w => ?_, fun e => ?_⟩
  · rw [w] at h9; cases h9
  · obtain ⟨⟨k1, k2⟩, k3⟩ := h10.resolve_left fun n => n e
    exact ⟨k1, k2, k3⟩

/-- A command runs at a state. -/
def Runs (i : Instr) (s : State) : Prop := ∃ t, exec i s = .next t

theorem runs {i : Instr} {s : State} {P : State → Prop} (h : ∃ t, exec i s = .next t ∧ P t) : Runs i s := h.imp fun _ q => q.1

theorem runsTo {i : Instr} {s t : State} (h : exec i s = .next t) : Runs i s := ⟨t, h⟩

theorem absent {α β : Type} {o : Option (α × β)} {P : α → β → Prop} (n : o.isNone = true) : ∀ a b, o = some (a, b) → P a b :=
  fun _ _ e => by rw [e] at n; cases n

theorem each {β γ : Type} {n : Nat} {f : Nat → Option (β × γ)} {Q : β → γ → Prop} [∀ b c, Decidable (Q b c)]
    (h : ∀ p < n, ((f p).all fun x => decide (Q x.1 x.2)) = true) : ∀ p b c, p < n → f p = some (b, c) → Q b c := fun p b c hp e => by
  have q := h p hp
  rw [e] at q
  exact of_decide_eq_true q

/-- The device with a record as the next of stream 0 of cell 0. -/
def sIssue (b : RecBody) : State := st (holding bufs0 hdr0 b)

/-- A record in flight that has started, and one that waits for a reply. -/
def flying (b : RecBody) (waiting : Bool) : InFl :=
  ⟨0, 0, b, true, 3, 7, 0, 0, true, 12, 13, 40, 0, 0, waiting, false, none, none, []⟩

def xfer0 : XferOps := ⟨64, 2, 1, 32⟩

/-- Cell 0 with records in flight, a full tag 3, and a record to come. -/
def sFlying (l : List InFl) (b : RecBody) : State :=
  st (modCell (holding bufs0 hdr0 b) 0 fun x => { x with inflight := l, nextId := 1, tags := [(3, ⟨65535, 0, 0, 0⟩)] })

theorem witness_RecordsSpellTheirCommands (h : Obligations.RecordsSpellTheirCommands) :
    decodeRec (encodeRec hdr0 (.load xfer0)) = some (hdr0, .load xfer0) := (h at0 hdr0 (.load xfer0) (by decide +kernel)).1

theorem witness_RecordsWithoutResource (h : Obligations.RecordsWithoutResource) :
    Runs (.fence at0 hdr0) (sFlying [flying (.load xfer0) false] .fence) ∧ Runs (.fence at0 hdr0) (sIssue .fence)
      ∧ Runs (.cellNop at0 hdr0) (sIssue .nop) ∧ Runs (.waitRec at0 hdr0) (sIssue .wait) ∧ Runs (.endRec at0 hdr0) (sIssue .end_) :=
  ⟨runs ((h (sFlying [flying (.load xfer0) false] .fence) at0 hdr0).2.2.2 (canIssue_of_issues (by decide +kernel))),
   runs ((h (sIssue .fence) at0 hdr0).2.2.2 (canIssue_of_issues (by decide +kernel))),
   runs ((h (sIssue .nop) at0 hdr0).1 (canIssue_of_issues (by decide +kernel))),
   runs ((h (sIssue .wait) at0 hdr0).2.1 (canIssue_of_issues (by decide +kernel))),
   runs ((h (sIssue .end_) at0 hdr0).2.2.1 (canIssue_of_issues (by decide +kernel)))⟩

/-- What a record meets that issues and starts at once. -/
theorem readyNow {d : Dev} {a : RecAt} {h : RecHdr} {b : RecBody} (q : issues d a h b = true) (e : recErr d a.cell.val b = none)
    (n : startCycle (cellOf d a.cell.val) (issuedFl d a h b) = issueCycle d a h) :
    canIssue d a h b ∧ recErr d a.cell.val b = none ∧ startsNow d a h b := ⟨canIssue_of_issues q, e, n⟩

theorem witness_TransfersMoveBytes (h : Obligations.TransfersMoveBytes) :
    Runs (.load at0 hdr0 xfer0) (sIssue (.load xfer0)) ∧ Runs (.store at0 hdr0 xfer0) (sIssue (.store xfer0))
      ∧ Runs (.fill at0 hdr0 ⟨4063168, 2, 5⟩) (sIssue (.fill ⟨4063168, 2, 5⟩)) := by
  refine ⟨runs ((h (sIssue (.load xfer0)) at0 hdr0).1 xfer0 (readyNow ?_ ?_ ?_) ?_ ?_),
    runs ((h (sIssue (.store xfer0)) at0 hdr0).2.1 xfer0 (readyNow ?_ ?_ ?_) ?_),
    runs ((h (sIssue (.fill ⟨4063168, 2, 5⟩)) at0 hdr0).2.2 _ (readyNow ?_ ?_ ?_))⟩
    <;> decide +kernel

theorem witness_VectorWritesResults (h : Obligations.VectorWritesResults) :
    Runs (.vectorSum at0 hdr0 ⟨true, 4, 64, 0, 0, 0, 0⟩) (sIssue (.vector .sum ⟨true, 4, 64, 0, 0, 0, 0⟩))
      ∧ Runs (.vectorFma at0 hdr0 ⟨false, 1, 64, 96, 128, 160, 0⟩) (sIssue (.vector .fma ⟨false, 1, 64, 96, 128, 160, 0⟩)) := by
  refine ⟨runs (h .sum (sIssue (.vector .sum ⟨true, 4, 64, 0, 0, 0, 0⟩)) at0 hdr0 _ (canIssue_of_issues ?_) ?_ ?_ ?_ ?_),
    runs (h .fma (sIssue (.vector .fma ⟨false, 1, 64, 96, 128, 160, 0⟩)) at0 hdr0 _ (canIssue_of_issues ?_) ?_ ?_ ?_ ?_)⟩
    <;> first
      | decide +kernel
      | (unfold startsNow; decide +kernel)

def pass0 : PassOps := ⟨1, true, 1, false, false, 2, 2, 0, 64, 1088, 0, 0, 0, 0, 0, 0, 0, 0, 0⟩
def split0 : SplitOps := ⟨1, false, 0, 2, 2, 0, 4096⟩

theorem witness_PassAddsToItsBank (h : Obligations.PassAddsToItsBank) :
    Runs (.pass at0 hdr0 pass0) (sIssue (.pass pass0)) ∧ Runs (.passSplit at0 hdr0 split0) (sIssue (.split split0)) := by
  refine ⟨runs ((h (sIssue (.pass pass0)) at0 hdr0 ?_ ?_).1 pass0 (readyNow ?_ ?_ ?_) ?_ ?_),
    runs ((h (sIssue (.split split0)) at0 hdr0 ?_ ?_).2 split0 (readyNow ?_ ?_ ?_))⟩ <;> decide +kernel

def drain0 : DrainOps := ⟨0, false, true, 0, 0, false, 0, 0, 0, 0⟩
def drain1 : DrainOps := ⟨1, false, false, 2, 1, false, 4096, 0, 0, 0⟩

/-- Entry 1 of the Calender table of cell 0 multiplies by 1. -/
def sCal : State := st { holding bufs0 hdr0 (.drain drain1) with mem := bufs0.mem ++ [(cellAddr 0 0x3DFF10, 1)] }

theorem witness_DrainWritesItsBank (h : Obligations.DrainWritesItsBank) :
    Runs (.drain at0 hdr0 drain0) (sIssue (.drain drain0)) ∧ Runs (.drain at0 hdr0 drain1) sCal := by
  refine ⟨runs (h (sIssue (.drain drain0)) at0 hdr0 drain0 (canIssue_of_issues ?_) ?_ ?_ ?_),
    runs (h sCal at0 hdr0 drain1 (canIssue_of_issues ?_) ?_ ?_ ?_)⟩
    <;> first
      | decide +kernel
      | (unfold startsNow; decide +kernel)

def passB : PassOps := ⟨1, true, 1, true, false, 2, 2, 0, 64, 1088, 0, 1, 0, 3, 0, 0, 0, 0, 0⟩

/-- Both running cells of comb 0 stand at a broadcast pass. -/
def sWaiting : State :=
  let f : InFl := { flying (.pass passB) false with started := false }
  st (modCell (modCell bufs0 0 fun x => { x with inflight := [f], nextId := 1 }) 1 fun x => { x with slots := [(1, hComb)], inflight := [f], nextId := 1 })

theorem witness_BroadcastStartsTogether (h : Obligations.BroadcastStartsTogether) :
    Runs (.pass at0 hdr0 passB) (sIssue (.pass passB)) ∧ Runs (.broadcastPassStart 0 30) sWaiting := by
  refine ⟨runs (h.1 (sIssue (.pass passB)) at0 hdr0 passB (canIssue_of_issues ?_) ?_ ?_),
    runs (h.2 sWaiting 0 30 ((bcastReady sWaiting.dev 0).getD []) ?_ ?_ ?_ ?_ ?_ ?_)⟩
    <;> decide +kernel

def send0 : SendOps := ⟨64, 2, 7, 4, 32⟩

/-- A SEND of cell 0 has its data on the way to cell 7; cell 7 is in reset or not. -/
def sSending (resetting : Bool) : State :=
  st (modCell (withRegs bufs0 [(pCell 7, Reg.UNIT_STATE, if resetting then 1 else 3)]) 0 fun x =>
    { x with inflight := [{ flying (.send send0) true with data := List.replicate 64 5 }], nextId := 1 })

theorem witness_SendsLeaveAndLand (h : Obligations.SendsLeaveAndLand) :
    Runs (.send at0 hdr0 send0) (sIssue (.send send0)) ∧ Runs (.sendArrival 0 0 40 7) (sSending false) ∧ Runs (.sendArrival 0 0 40 7) (sSending true) := by
  let f : InFl := { flying (.send send0) true with data := List.replicate 64 5 }
  refine ⟨runs (h.1 (sIssue (.send send0)) at0 hdr0 send0 (canIssue_of_issues ?_) ?_ ?_ ?_ ?_),
    ((h.2 (sSending false) 0 0 40 7 f send0 ?_ ?_ ?_ ?_ ?_ ?_ ?_ ?_ ?_ ?_).1 ?_).elim fun _ q => q.1.elim fun t e => ⟨t, e.1⟩,
    ((h.2 (sSending true) 0 0 40 7 f send0 ?_ ?_ ?_ ?_ ?_ ?_ ?_ ?_ ?_ ?_).2 ?_).elim fun _ q => q.1.elim fun t e => ⟨t, e.1⟩⟩
    <;> first
      | decide +kernel
      | (unfold startsNow; decide +kernel)

def rem1 : RemOps := ⟨64, 17, 0x2000, 9⟩
def atom0 : AtomOps := ⟨true, 64, 0x2008, 127, 5, 6⟩
def trig0 : TrigOps := ⟨5, 9, 0, 7, List.replicate 32 1⟩

theorem witness_RemoteOperationsLeave (h : Obligations.RemoteOperationsLeave) :
    Runs (.rload at0 hdr0 rem1) (sIssue (.rload rem1)) ∧ Runs (.rstore at0 hdr0 rem1) (sIssue (.rstore rem1))
      ∧ Runs (.ratomicCas at0 hdr0 atom0) (sIssue (.ratomic .cas atom0)) ∧ Runs (.rtrig at0 hdr0 trig0) (sIssue (.rtrig trig0)) := by
  refine ⟨runs (((h (sIssue (.rload rem1)) at0 hdr0).1 rem1 ?_ ?_).1 (readyNow ?_ ?_ ?_)),
    runs (((h (sIssue (.rstore rem1)) at0 hdr0).1 rem1 ?_ ?_).2 (readyNow ?_ ?_ ?_) ?_),
    runs ((h (sIssue (.ratomic .cas atom0)) at0 hdr0).2.1 .cas atom0 ?_ ?_ (readyNow ?_ ?_ ?_)),
    runs ((h (sIssue (.rtrig trig0)) at0 hdr0).2.2 trig0 ?_ ?_ (readyNow ?_ ?_ ?_))⟩
    <;> decide +kernel

def alloc0 : AllocOps := ⟨2, 0, 1, 5⟩
def alloc1 : AllocOps := ⟨2, 2, 0, 5⟩

/-- A request of cell 0 waits for a Tier H buffer. -/
def req0 : VatReq := ⟨.cell 0 2 4, 0, 0, 1, 0, 0, 5, false, 20, (true, false)⟩
def flAlloc : InFl := { flying (.alloc alloc0) false with id := 4, started := false, asked := true }
def sVatWait : State :=
  st { (modCell bufs0 0 fun x => { x with inflight := [flAlloc], nextId := 5 }) with vat := { vat0 with waiting := [req0] } }

theorem witness_AllocationsServeOrWait (h : Obligations.AllocationsServeOrWait) :
    Runs (.alloc at0 hdr0 alloc0) (sIssue (.alloc alloc0)) ∧ Runs (.alloc at0 hdr0 alloc1) (sIssue (.alloc alloc1))
      ∧ Runs (.waitingRequestServed 0 99) sVatWait := by
  refine ⟨runs ((h.1 (sIssue (.alloc alloc0)) at0 hdr0 alloc0 (canIssue_of_issues ?_) ?_).1 3 1 ?_ ?_),
    runs ((h.1 (sIssue (.alloc alloc1)) at0 hdr0 alloc1 (canIssue_of_issues ?_) ?_).2 (absent ?_)),
    runs (h.2 sVatWait 0 99 req0 0 2 4 flAlloc ?_ ?_ ?_ ?_ ?_ ?_ ?_ 3 1 ?_ ?_)⟩
    <;> first
      | decide +kernel
      | (unfold startsNow; decide +kernel)

theorem witness_RecordsComplete (h : Obligations.RecordsComplete) :
    Runs (.recordComplete 0 0 40) (sFlying [flying (.load xfer0) false] .nop) ∧ Runs (.recordComplete 0 0 39) (sFlying [flying (.load xfer0) false] .nop) := by
  refine ⟨runs ((h (sFlying [flying (.load xfer0) false] .nop) 0 0 40 (flying (.load xfer0) false) ?_ ?_).2 ?_ ?_ ?_ ?_ (.inl ?_)),
    runs ((h (sFlying [flying (.load xfer0) false] .nop) 0 0 39 (flying (.load xfer0) false) ?_ ?_).1 ?_)⟩ <;> decide +kernel

/-- An RLOAD of cell 0 waits for the second half of its bytes. -/
def rem0 : Rem := ⟨0, 0, 0, 9, 0, 64, 64, 32, 40⟩
def sReply : State :=
  st (modCell bufs0 0 fun x =>
    { x with inflight := [flying (.rload rem1) true], streams := [(0, { strm0 with state := .switchedOut })], remotes := [rem0] })

theorem witness_RemoteRepliesReachTheirCell (h : Obligations.RemoteRepliesReachTheirCell) :
    Runs (.remoteReply 0 0 0 (List.replicate 32 9) 55) sReply ∧ Runs (.remoteReply 0 0 5 (List.replicate 32 9) 55) sReply
      ∧ Runs (.remoteRefuse 0 0 0 15) sReply := by
  refine ⟨runs ((h sReply 0 0 0 ?_ ?_).1 rem0 (List.replicate 32 9) 55 ?_ ?_ ?_ ?_), runs ((h sReply 0 0 5 ?_ ?_).2.1 (List.replicate 32 9) 55 ?_),
    runs ((h sReply 0 0 0 ?_ ?_).2.2 rem0 (flying (.rload rem1) true) 15 ?_ ?_ ?_ ?_)⟩ <;> decide +kernel

/-- XFER of cell 0 is busy to cycle 50, and tag 0 has not advanced. -/
def sBusy : State := st (modCell (holding bufs0 hdr0 (.load xfer0)) 0 fun x => { x with resEnd := [(0, 50)] })
def hdrW : RecHdr := { hdr0 with wait := true, waitCount := 1 }

theorem witness_FailedRecordsStopTheirStream (h : Obligations.FailedRecordsStopTheirStream) :
    Runs (.load at0 hdr0 ⟨65, 2, 1, 0⟩) (sIssue (.load ⟨65, 2, 1, 0⟩)) ∧ Runs (.load at0 hdr0 ⟨64, 2, 5, 0⟩) (sIssue (.load ⟨64, 2, 5, 0⟩))
      ∧ Runs (.load at0 hdr0 xfer0) sBusy ∧ Runs (.cellNop at0 hdrW) (st (holding bufs0 hdrW .nop)) := by
  refine ⟨runs ((h (sIssue (.load ⟨65, 2, 1, 0⟩)) at0 hdr0 (.load ⟨65, 2, 1, 0⟩)).1 ⟨1, 0, 0, false⟩ (canIssue_of_issues ?_) ?_),
    runs ((h (sIssue (.load ⟨64, 2, 5, 0⟩)) at0 hdr0 (.load ⟨64, 2, 5, 0⟩)).1 ⟨3, 0, 0, false⟩ (canIssue_of_issues ?_) ?_),
    runs ((h sBusy at0 hdr0 (.load xfer0)).2.1 .xfer ?_ (canIssue_of_issues ?_) ?_ ?_),
    runs ((h (st (holding bufs0 hdrW .nop)) at0 hdrW .nop).2.2 ?_ ?_ ?_)⟩ <;> decide +kernel

/-! ## Registers, time, power -/

def sReady : State := st ready0

/-- Every event of the device page and of partition 0 is noted; RESET_N is released and an interrupt is due. -/
def sEvents : State :=
  let d := withRegs ready0 [(pDev, Reg.CTL_HLT_EVENTS, 0x3F), (pDev, Reg.CTL_HLT_SUMMARY, 6), (pDev, Reg.UNIT_EVENTS, 0x3F)]
  st { d with pins := { d.pins with resetReleased := true, ibi := true } }

theorem witness_RegisterWritesTakeEffect (h : Obligations.RegisterWritesTakeEffect) :
    Runs (.registerWrite host (pMem 0 * 4096 + ((rwRegs (pageKind (pMem 0)))[0]'(by decide)).off) false 0x17) sReady
      ∧ Runs (.registerWrite host (pDev * 4096 + Reg.CTL_HLT_EVENTS) false 0x27) sEvents := by
  refine ⟨runs ((h sReady host (pMem 0) 0x17).1 ((rwRegs (pageKind (pMem 0)))[0]'(by decide)) (List.getElem_mem _) ?_),
    runs ((h sEvents host pDev 0x27).2 (Reg.CTL_HLT_EVENTS, 0xFFFFFFFF) ?_ ?_)⟩ <;> decide +kernel

theorem witness_RefusedAccessesAreRecorded (h : Obligations.RefusedAccessesAreRecorded) :
    Runs (.registerWrite host (pPart 0 * 4096 + 2) false 0) sEvents ∧ Runs (.registerWrite host (9000 * 4096 + 4095) false 0) sEvents
      ∧ Runs (.registerWrite 0x3000 (pSec 0 * 4096) true 0) sEvents ∧ Runs (.registerWrite 2 (pPwr * 4096 + Reg.PWR_PKG_LIMIT) false 500) sEvents := by
  refine ⟨runs (h.1 sEvents host (pPart 0) 2 false 0 ?_ ?_), runs (h.1 sEvents host 9000 4095 false 0 ?_ ?_),
    runs (h.1 sEvents 0x3000 (pSec 0) 0 true 0 ?_ ?_), runs (h.1 sEvents 2 pPwr Reg.PWR_PKG_LIMIT false 500 (by decide) ?_)⟩
  · decide
  · decide +kernel
  · decide
  · decide +kernel
  · decide
  · decide +kernel
  · exact (h.2.1 sEvents 2 pPwr Reg.PWR_PKG_LIMIT 500 (by decide) (by decide) (by decide +kernel) (by decide +kernel)).symm ▸ (by decide)

theorem witness_TrayControllerReachesHealth (h : Obligations.RefusedAccessesAreRecorded) :
    Runs (.i3cAccess (pTim * 4096 + Reg.TIM_STATUS) false false 0) sEvents
      ∧ Runs (.i3cAccess (pTim * 4096 + Reg.TIM_EVENTS) false false 0) sEvents
      ∧ Runs (.i3cAccess (pPwr * 4096 + Reg.PWR_PKG_LIMIT) false true 500) sEvents ∧ Runs .i3cIbi sEvents := by
  have q := h.2.2 sEvents pTim Reg.TIM_STATUS false 500 (by decide) (by decide +kernel)
  exact ⟨runsTo <| (h.2.2 sEvents pTim Reg.TIM_STATUS false 0 (by decide) (by decide +kernel)).1 (by decide +kernel) (by decide +kernel),
    runs ((h.2.2 sEvents pTim Reg.TIM_EVENTS false 0 (by decide) (by decide +kernel)).2.1 (by decide +kernel)),
    runs (q.2.2.1 (by decide +kernel) (by decide) (by decide)), runs q.2.2.2⟩

/-- The time block has an edge; `set` says whether its counter runs. -/
def sEdge (set : Bool) : State := st { ready0 with tim := { ready0.tim with edge := some 5000030, set := set, good := 15 } }

/-- Bollum port 4 is up, with a beacon behind it. -/
def sPortUp : State := st (modBol (withRegs ready0 [(pBol 4, Reg.BOL_PORT_STATUS, 3)]) 4 fun q => { q with history := [1], delay := 5 })

theorem witness_TimeFollowsItsReference (h : Obligations.TimeFollowsItsReference) :
    Runs (.timePulse 77) (sEdge true)
      ∧ Runs (.timeMessage 5000000) (sEdge true) ∧ Runs (.timeMessage 3000000) (sEdge false) ∧ Runs (.pulseVoid true) (sEdge true)
      ∧ Runs .noReferenceTimeout (sEdge false) ∧ Runs (.beaconExchange 4 100 160 170 220 3 true) sPortUp := by
  have a := h (sEdge true) (by decide +kernel)
  have b := h (sEdge false) (by decide +kernel)
  have c := h sPortUp (by decide +kernel)
  refine ⟨runsTo (a.1 77), ?_, ?_, ?_, ?_, ?_⟩
  · exact runs (a.2.1 5000030 5000000 (by decide +kernel) (by decide +kernel))
  · exact runs (b.2.1 5000030 3000000 (by decide +kernel) (by decide +kernel))
  · exact runs (a.2.2.1 true (by decide +kernel))
  · exact runs (b.2.2.2.1 (by decide +kernel) (by decide +kernel) (by decide +kernel))
  · exact runs (c.2.2.2.2 4 100 160 170 220 3 true (by decide +kernel) (by decide +kernel))

/-- The clock is to be switched at a time that every frame length divides. -/
def sClock : State := st (withRegs ready0 [(pPwr, Reg.PWR_CLOCK_SWITCH, 512 * 8000000)])

theorem witness_FrameAndClockSwitchesArm (h : Obligations.FrameAndClockSwitchesArm) :
    Runs (.frameSwitchArm 0 host 0x107) sReady ∧ Runs (.frameSwitchArm 0 host 0x101) sReady
      ∧ Runs (.frameSwitchArm 0 host 0x10104) sReady ∧ Runs (.clockSwitchArm host 0x101) sReady ∧ Runs (.clockSwitchArm host 0x101) sClock := by
  refine ⟨?_, ?_, ?_, ?_, ?_⟩
  · exact runsTo ((h.1 sReady 0 host 0x107 (by decide +kernel)).1 (by decide +kernel))
  · exact runs ((h.1 sReady 0 host 0x101 (by decide +kernel)).2.1 (by decide +kernel) (by decide +kernel))
  · exact runs ((h.1 sReady 0 host 0x10104 (by decide +kernel)).2.2 (by decide +kernel) (by decide +kernel))
  · exact runs ((h.2 sReady host 0x101 (by decide +kernel) (by decide +kernel) (by decide +kernel)).1 (by decide +kernel))
  · exact runs ((h.2 sClock host 0x101 (by decide +kernel) (by decide +kernel) (by decide +kernel)).2 (by decide +kernel) (by decide +kernel) (each (Q := fun e _ => e ≤ 6) (by decide +kernel)))

/-- Domain `n` is asked for; partition 0 has an image loaded. -/
def sDom (n : Nat) : State := st (withRegs ready0 [(pPwr, Reg.PWR_DOM_SEL, n), (pPart 0, Reg.CTL_LOAD_STATUS, 16)])

/-- A switch of a domain is at its end. -/
def sDomEnd (on : Bool) : State := st { ready0 with pwr := { ready0.pwr with switches := [⟨3, on, none, 9⟩] } }

theorem witness_DomainsSwitch (h : Obligations.DomainsSwitch) :
    Runs (.domainOff host 5) (sDom 0) ∧ Runs (.domainOn host 5) (sDom 127) ∧ Runs (.domainOff host 5) (sDom 3)
      ∧ Runs (.domainSwitchDone 3) (sDomEnd false) ∧ Runs (.domainSwitchDone 3) (sDomEnd true) := by
  have a := h.1 (sDom 0) host 5 false (by decide +kernel)
  have b := h.1 (sDom 127) host 5 true (by decide +kernel)
  have c := h.1 (sDom 3) host 5 false (by decide +kernel)
  refine ⟨?_, ?_, ?_, ?_, ?_⟩
  · exact runs (a.2.2 0 (by decide +kernel) (by decide +kernel) (by decide +kernel))
  · exact runs (b.1 ((domRefuse (sDom 127).dev 127 true).getD 0) (by decide +kernel))
  · exact runsTo (c.2.1 (by decide +kernel) (by decide +kernel))
  · exact runs (h.2 (sDomEnd false) 3 ⟨3, false, none, 9⟩ (by decide +kernel) (by decide +kernel))
  · exact runs (h.2 (sDomEnd true) 3 ⟨3, true, none, 9⟩ (by decide +kernel) (by decide +kernel))

/-- The fast limiter is on after nine calm samples. -/
def sThrottled : State := st { withRegs ready0 [(pPwr, Reg.PWR_STATUS, 4)] with pwr := { ready0.pwr with calm := 9, above := 5 } }

theorem witness_PowerAndHeatAreBounded (h : Obligations.PowerAndHeatAreBounded) :
    Runs (.pwrDuty host 16) sReady ∧ Runs (.powerSample 2401) sReady ∧ Runs (.powerSample 100) sThrottled
      ∧ Runs (.thermalSample (List.replicate 64 200)) sReady ∧ Runs (.thermalSample (List.replicate 64 1000)) sReady
      ∧ Runs (.throttleRelease 13) sReady := by
  have a := h sReady
  have cold := (a.2.2.1 (List.replicate 64 200) (by decide)).1 fun i x e _ => by
    obtain ⟨hi, hx⟩ := List.getElem?_eq_some_iff.mp e
    rw [← hx, List.getElem_replicate]
    exact (show ∀ i < 64, (200 : Int) < (thermal (sensorGroup i)).2.2 by decide) i (by simpa using hi)
  have hot := (a.2.2.1 (List.replicate 64 1000) (by decide)).2 ⟨0, 1000, by decide +kernel, by decide +kernel, by decide +kernel⟩
  exact ⟨runs (a.1 host 16 (by decide +kernel)), runs (a.2.1 2401), runs ((h sThrottled).2.1 100), runs cold, runs hot, runs (a.2.2.2 13)⟩

/-- The host has TEST rights, and an address of Tier H is named. -/
def sInject : State := stT (withRegs ready0 [(pDev, Reg.CTL_INJ_ADDR, 0x1000000)])

/-- A carve-out for trace. -/
def sTrace : State :=
  stT { withRegs ready0 [(pPart 0, Reg.CTL_TRACE_BASE, 0xFFF000), (pPart 0, Reg.CTL_TRACE_BYTES, 4096)] with
    vat := { vat0 with carve := [(0, (0, 0, 0x1000))] } }

theorem witness_InjectionsAndTracesArm (h : Obligations.InjectionsAndTracesArm) :
    Runs (.injectCorr host 0x1501) sInject ∧ Runs (.injectUncorr host 0x1502) sInject ∧ Runs (.injectDelay host 0x71503) sInject
      ∧ Runs (.injectDelay host 0x1503) sInject ∧ Runs (.bolInject 4 host 0x201) sInject ∧ Runs (.bolInject 31 host 0x201) sReady
      ∧ Runs (.hxvInject 0 host 0x201) sInject ∧ Runs (.hxvInject 1 host 0x201) sReady ∧ Runs (.traceArm 0 host 1) sTrace
      ∧ Runs (.traceArm 15 host 0x101) sTrace := by
  refine ⟨?_, ?_, ?_, ?_, ?_, ?_, ?_, ?_, ?_, ?_⟩
  · exact runs ((h.1 sInject host 0x1501 0 (by decide +kernel)).1 (by decide +kernel))
  · exact runs ((h.1 sInject host 0x1502 1 (by decide +kernel)).1 (by decide +kernel))
  · exact runs ((h.1 sInject host 0x71503 2 (by decide +kernel)).1 (by decide +kernel))
  · exact runs ((h.1 sInject host 0x1503 2 (by decide +kernel)).2 (by decide +kernel))
  · exact runs (((h.2 sInject host 0x201).1 4 (by decide +kernel)).1 (by decide +kernel) (by decide +kernel) (by decide +kernel))
  · exact runs (((h.2 sReady host 0x201).1 31 (by decide +kernel)).2 (by decide +kernel))
  · exact runs (((h.2 sInject host 0x201).2.1 0 (by decide +kernel)).1 (by decide +kernel) (by decide +kernel))
  · exact runs (((h.2 sReady host 0x201).2.1 1 (by decide +kernel)).2 (by decide +kernel))
  · exact runs ((h.2 sTrace host 1).2.2 0 (by decide +kernel))
  · exact runs ((h.2 sTrace host 0x101).2.2 15 (by decide +kernel))

/-! ## The tiers and the Foragers -/

theorem ok_of_toOption {ε α : Type} {x : Except ε α} {a : α} (h : x.toOption = some a) : x = .ok a := by
  cases x with
  | ok b => cases h; rfl
  | error e => cases h

def port0 : Dev := withRegs ready0 [(pCxl 0, Reg.CXL_CAP, 1)]

/-- Chunks in the cache of port 0, a row and a stack that are being copied. -/
def chunk0 : CacheSlot := ⟨0, 0x10000000000, 5, [0, 2047], [(1, 5), (65535, 7)], 0, 3, true, false⟩
def sTier : State :=
  st { port0 with
    tier := { port0.tier with
      slots := [chunk0, { chunk0 with chunk := 0x10000010000, frame := 4 }]
      rows := [(2, [⟨9, true⟩])]
      retire := [(3, .copying [(0, 0x10000000000)])] } }

/-- Some wrong bytes of a line. -/
def wrong3 : List (Fin 72 × Byte) := [(0, 1), (1, 2), (70, 3)]
def wrong5 : List (Fin 72 × Byte) := wrong3 ++ [(4, 9), (5, 255)]

/-- The device with no buffer. -/
def sEmpty : State := st { port0 with vat := { vat0 with bufs := [] } }

theorem witness_TiersKeepTheirBytes (h : Obligations.TiersKeepTheirBytes) :
    (codeword (List.replicate 64 7)).length = 72
      ∧ Runs (.cacheDrain 0 0x10000000000) sTier ∧ Runs (.cxlFlitRetry 3 5 15) sTier ∧ Runs (.cxlFlitRetry 0 0 0) sTier
      ∧ Runs (.rowRepairSwitch 2 9) sTier ∧ Runs (.patrolPass false 2 ⟨[], [3, 4097, 5], []⟩) sTier
      ∧ Runs (.patrolPass true 0 ⟨[(0x10000000040, wrong3)], [], []⟩) sTier ∧ Runs (.patrolPass true 0 ⟨[(0x10000000040, wrong5)], [], []⟩) sEmpty
      ∧ Runs (.patrolPass true 0 ⟨[], [], [.copied 3 50]⟩) sTier ∧ Runs (.retirementRedirect 3) sTier := by
  have a := h.2 sTier
  have p := a.2.2.2.1 (by decide +kernel) (by decide +kernel)
  have q := (h.2 sEmpty).2.2.2.1 (by decide +kernel) (by decide +kernel)
  refine ⟨(h.1 _ (by decide +kernel)).2.1, ?_, runs (a.2.1 3 5 15), runs (a.2.1 0 0 0), runs (a.2.2.1 2 9 (by decide +kernel)),
    runs (p.1 2 [3, 4097, 5] (by decide +kernel) (by decide +kernel)),
    runs ((p.2 0 0x10000000040 wrong3 (by decide +kernel) (by decide +kernel) (by decide +kernel) (by decide +kernel)).1
      (by decide +kernel) (by decide +kernel)),
    runs ((q.2 0 0x10000000040 wrong5 (by decide +kernel) (by decide +kernel) (by decide +kernel) (by decide +kernel)).2
      (by decide +kernel) (by decide +kernel) (by decide +kernel)),
    (a.2.2.2.2.1 true 0 ⟨[], [], [.copied 3 50]⟩).elim fun _ q => ⟨_, q.2⟩, runs (a.2.2.2.2.2 3 [(0, 0x10000000000)] (by decide +kernel) (by decide +kernel))⟩
  refine runs (a.1 0 0x10000000000 chunk0 ?_ ?_ ?_ ?_ ?_ ?_ ?_) <;> decide +kernel

/-- A Forager entry from and to buffers of the image: conversion, source, destination, third buffer, length, count, bytes of a row. -/
def fgr0 (c : Fin 5) (s d a len cnt rb : Nat) : FgrEntry := ⟨c, false, true, 0, 20, 64, s, d, a, 0, 0, 32, len, 0, 0, 0, 0, 0, 5, cnt, rb⟩

def imgFgr (l : List FgrSlot) : Image :=
  { img0 with
    fgr := l
    brood := some ⟨0, 16, 0, 1, [⟨2, 32, 32, 1, 0, 0, 0, 0, 0, 0, false⟩]⟩
    bufList := [⟨0, 0, 1, 0, 0, 1⟩, ⟨0, 1, 1, 0, 0, 2⟩, ⟨0, 0, 0, 0, 0, 3⟩, ⟨0, 1, 2, 0, 0, 4⟩] }

/-- The image runs, with a buffer of each of Tier H (two classes), a comb store and cached Tier C. -/
def devFgr (l : List FgrSlot) (mem : List (Nat × Byte)) : Dev :=
  let d := run port0 (imgFgr l)
  let v := { vat0 with
    regions := vat0.regions ++ [(8 * 64, ⟨0x10000000000, 16, 1, [], 16⟩)]
    bufs := vat0.bufs ++ [(8 * 2 ^ 20, ⟨.frame, 1, 0, 0, false, false⟩)] }
  modPart { d with vat := v, mem := mem } 0 fun x => { x with listGot := [(0, (hTier, 5)), (1, (hBig, 7)), (2, (hComb, 0)), (3, (mkHandle 8 0 1, 0))] }

/-- The bytes of the first buffer, and of the second. -/
def mem1 : List (Nat × Byte) := (List.range 32).map fun i => (0x1000000 + i, BitVec.ofNat 8 (7 * i + 1))
def mem2 : List (Nat × Byte) := (List.range 96).map fun i => (0x2000000 + i, BitVec.ofNat 8 (3 * i + 1))

def fetch0 : FgrEntry := fgr0 0 0 1 2 64 0 0
def write0 : FgrEntry := fgr0 0 0 3 2 64 0 0
def gather0 : FgrEntry := fgr0 0 0 1 2 128 3 32
def slots0 : List FgrSlot := [⟨3, 1, 0, fetch0⟩, ⟨4, 2, 1, write0⟩, ⟨5, 3, 0, gather0⟩]
def sFgr : State := st (devFgr slots0 (mem1 ++ mem2))

/-- An entry of partition 0 starts in cycle 20, as a test. -/
def starts20 (d : Dev) (i kind : Nat) (e : FgrEntry) (img : Image) (idx : Nat) (l : List (Nat × Nat)) : Bool :=
  decide ((runImage d 0).map (fun r => r.2.2) = some (img, 0)) && decide (listsDue d (momentOf d 0 21) = [])
    && decide (((refsOf d 0 img 0 ((fgrNeeds kind e).map FgrNeed.ref)).bind fun hs => fgrGo d i 0 img 0 20 kind e hs.2)
      = some ⟨idx, 20, 20, 20, none⟩)
    && decide ((fgrCheck d 0 img 0 (fgrNeeds kind e) []).toOption = some l)

theorem fgrStarts_of_test {d : Dev} {i kind idx : Nat} {e : FgrEntry} {img : Image} {l : List (Nat × Nat)}
    (h : starts20 d i kind e img idx l = true) : fgrStarts d i 0 20 kind e img 0 idx l := by
  simp only [starts20, Bool.and_eq_true, decide_eq_true_eq, Option.map_eq_some_iff, Option.bind_eq_some_iff] at h
  obtain ⟨⟨⟨⟨⟨c, x, y⟩, h1, h2⟩, h3⟩, h4⟩, h5⟩ := h
  cases h2
  exact ⟨⟨c, x, h1⟩, h3, h4, ok_of_toOption h5⟩

/-- The buffers of an entry. -/
def placed (s : State) (kind : Nat) (e : FgrEntry) (img : Image) : List (Nat × Nat) :=
  (fgrCheck s.dev 0 img 0 (fgrNeeds kind e) []).toOption.getD []

theorem witness_ForagersMoveData (h : Obligations.ForagersMoveData) :
    Runs (.fetch 0 0 20 fetch0) sFgr ∧ Runs (.foragerWrite 1 0 20 write0) sFgr ∧ Runs (.gather 0 0 20 gather0) sFgr := by
  refine ⟨?_, ?_, ?_⟩
  · exact runs (((h sFgr 0 0 20 fetch0 (imgFgr slots0) 0 3 (placed sFgr 1 fetch0 (imgFgr slots0))).1 0
      (fgrStarts_of_test (by decide +kernel)) (by unfold fgrMovesWell; decide +kernel)).2.1 (by unfold lands; decide +kernel) (by decide +kernel))
  · exact runs (((h sFgr 1 0 20 write0 (imgFgr slots0) 0 4 (placed sFgr 2 write0 (imgFgr slots0))).1 1
      (fgrStarts_of_test (by decide +kernel)) (by unfold fgrMovesWell; decide +kernel)).2.2 0
      (by decide +kernel) (by decide +kernel) (by decide +kernel) (by decide +kernel))
  · exact runs ((h sFgr 0 0 20 gather0 (imgFgr slots0) 0 5 (placed sFgr 3 gather0 (imgFgr slots0))).2
      (fgrStarts_of_test (by decide +kernel)) (by unfold fgrMovesWell; decide +kernel) (by unfold lands; decide +kernel))

/-- A ream in the first buffer: two live rows, of the cache in the second buffer, at positions 3 and 1. -/
def memReam : List (Nat × Byte) :=
  putBytes [] 0x1000000 ([0, 0, 0, 0, 2, 0, 2, 0, 0, 0, 0, 0] ++ List.replicate 0x54 0
    ++ [0, 0, 0, 0] ++ leBytes 4 3 ++ leBytes 4 hBig ++ [1, 0, 0, 0] ++ [0, 0, 1, 0] ++ leBytes 4 1 ++ leBytes 4 hBig ++ [1, 0, 0, 0])

def kvRead0 : FgrEntry := fgr0 0 0 2 0 2 2 32
def kvWrite0 : FgrEntry := fgr0 0 2 0 0 0 3 32
def kvSlots : List FgrSlot := [⟨3, 4, 0, kvRead0⟩, ⟨4, 5, 0, kvWrite0⟩]
def sKv : State := st (devFgr kvSlots (memReam ++ mem2))

theorem lt_of_bind {α β : Type} {l : List α} {f : α → Option β} {k : Nat} {b : β} (h : (l[k]?).bind f = some b) : k < l.length := by
  rcases Nat.lt_or_ge k l.length with q | q
  · exact q
  · rw [List.getElem?_eq_none q] at h; cases h

/-- Where row `k` of the write goes. -/
def kvPut (k : Nat) : Option Nat :=
  ((reamRows sKv.dev (imgFgr kvSlots) ((fgrBufs 5 (placed sKv 5 kvWrite0 (imgFgr kvSlots))).aux + kvWrite0.auxOffset)).2.2.take kvWrite0.count)[k]?.bind
    fun r => (kvPlace sKv.dev 0 r.kv r.pos kvWrite0.rowBytes true).toOption

theorem kvPut_lt (k a : Nat) (h : kvPut k = some a) : k < 2 :=
  Nat.lt_of_lt_of_eq (lt_of_bind h) (by decide +kernel)

theorem kvPut_somewhere : ((kvPut 0).isSome && (kvPut 1).isSome) = true := by decide +kernel

theorem witness_ForagersServeKvCaches (h : Obligations.ForagersServeKvCaches) :
    Runs (.kvRead 0 0 20 kvRead0) sKv ∧ Runs (.kvWrite 0 0 20 kvWrite0) sKv := by
  refine ⟨?_, ?_⟩
  · exact runs ((h sKv 0 0 20 kvRead0 (imgFgr kvSlots) 0 3 (placed sKv 4 kvRead0 (imgFgr kvSlots))).1
      (fgrStarts_of_test (by decide +kernel)) (by unfold fgrMovesWell; decide +kernel) (by unfold lands; decide +kernel))
  · refine runs ((h sKv 0 0 20 kvWrite0 (imgFgr kvSlots) 0 4 (placed sKv 5 kvWrite0 (imgFgr kvSlots))).2
      (fgrStarts_of_test (by decide +kernel)) (by unfold fgrMovesWell; decide +kernel) ?_ ?_)
    · intro k a (e : kvPut k = some a)
      have q := (show ∀ k < 2, ∀ a ∈ kvPut k, sKv.dev.marks = [] ∧ poisonedIn sKv.dev a 32 = [] ∧ portOfAddr sKv.dev a = none
        ∧ ((storeUnits sKv.dev a).any fun u => stateIs sKv.dev u .resetting) = false by decide +kernel) k (kvPut_lt k a e) a e
      exact q
    · intro j k a c n (e : kvPut j = some a) (g : kvPut k = some c)
      exact (show ∀ j < 2, ∀ k < 2, ∀ a ∈ kvPut j, ∀ c ∈ kvPut k, j ≠ k → a + 32 ≤ c ∨ c + 32 ≤ a by decide +kernel)
        j (kvPut_lt j a e) k (kvPut_lt k c g) a e c g n

def flush0 : FgrEntry := fgr0 0 0 1 0 0 0 0
def flushSlots : List FgrSlot := [⟨3, 6, 0, flush0⟩]
def sFlush : State := st (devFgr flushSlots [])

/-- An entry is due in cycle 43; a chunk is being refetched, with a host replica behind it or not. -/
def run0 : FgrRun where
  inst := 0
  part := 0
  id := 3
  notify := some (0, 5)
  start := 20
  key := 20
  fix := 22
  rate := 64
  takes := []
  bytes := 128
  why := (0, 0)
  late := 0
  link := 0
  slow := 0
  ready := 0
  reason := 0
  tier := 1
  ports := []
  stalled := []
  fin := false
def sRun : State := st { port0 with tier := { port0.tier with runs := [run0] } }
def refetch0 : Refetch := ⟨0, 0, 5, 0x10000, 9, 40, false⟩
def sRefetch (host : Bool) : State :=
  st { port0 with tier := { port0.tier with refetches := [refetch0], descs := [(5, { Desc.init with hostRep := host })] } }

theorem witness_ForagerEntriesEnd (h : Obligations.ForagerEntriesEnd) :
    Runs (.flush 0 0 20 flush0) sFlush ∧ Runs (.foragerEntryComplete 0 0 3 43 0) sRun ∧ Runs (.foragerEntryComplete 0 0 3 50 7) sRun
      ∧ Runs (.refetchComplete 0 1 ⟨40, List.replicate 65536 0⟩) (sRefetch true) ∧ Runs (.refetchFail 0 1) (sRefetch true)
      ∧ Runs (.refetchFail 0 1) (sRefetch false) := by
  refine ⟨?_, ?_, ?_, ?_, ?_, ?_⟩
  · exact runs ((h sFlush 0).1 0 20 flush0 (imgFgr flushSlots) 0 3 0x2000000 hBig (fgrStarts_of_test (by decide +kernel)))
  · refine runs ((h sRun 0).2.1 0 3 43 0 run0 ?_ ?_ ?_ ?_) <;> decide +kernel
  · refine runs ((h sRun 0).2.1 0 3 50 7 run0 ?_ ?_ ?_ ?_) <;> decide +kernel
  · exact runs ((h (sRefetch true) 0).2.2.1 1 40 _ refetch0 (by decide +kernel) (by decide +kernel))
  · exact runs (((h (sRefetch true) 0).2.2.2 1 refetch0 (by decide +kernel) (by decide +kernel)).1 (by decide +kernel) (by decide +kernel))
  · exact runs (((h (sRefetch false) 0).2.2.2 1 refetch0 (by decide +kernel) (by decide +kernel)).2 (by decide +kernel))

end Sys2Proof.Tests
end

