-- ==== Sys2Proof/Tests/WitnessB.lean ====
section
/-! SUPPORT. Witnesses of the statements about links, propolis, security, firmware and frames, built like those of WitnessA. -/

namespace Sys2Proof.Tests
open Sys2Proof Sys2Proof.Machine
set_option Elab.async false

/-! ## Remote operations and the fabric -/

def node9 : Peer := ⟨9, 0⟩

/-- A window and a trigger of partition 0 that every node may use. -/
def propWindow : Propolis :=
  { Propolis.reset with
    windows := [(0, ⟨0x1000000, 4096, 0, false, true, true, true, 0, 100, 0xFFFF, 0, false⟩)]
    triggers := [(0, ⟨0, 0, 0, 100, 0, 100, 0xFFFF, false⟩)] }

/-- A frame with node 9 as a member, and a stream of cell 0 that a trigger starts. -/
def devTrig (off : Nat) : Dev :=
  let d := run ready0 { img0 with commitMap := [⟨0, true, node9, 1024⟩] }
  modCell { d with rmt := { d.rmt with members := [(0, [⟨0, 0⟩, node9])] } } 0
    fun x => { x with streams := [(0, { strm0 with state := .idle, desc := some ⟨0, true, true, false, 7, off⟩ })] }
def devRemote : Dev := devTrig 64
def sRemote : State := ⟨[], propWindow, devRemote⟩

/-- The stream's argument has no place. -/
def sNoArg : State := ⟨[], propWindow, devTrig 65⟩

/-- A request of node 9 in a frame. -/
def req9 (frame : Nat) : RemReq := ⟨node9, frame, 0, 0x1000020, 0x1203⟩
def bytes64 : List Byte := List.replicate 64 1
def sHeld : State := { sRemote with dev := { devRemote with rmt := { devRemote.rmt with waiting := [.rstore (req9 0) 3 bytes64] } } }
def sCut : State := { sRemote with dev := modPart devRemote 0 fun x => { x with cutTaken := true } }
def sClosed : State := { sRemote with prop := Propolis.reset }

theorem witness_RemoteRequestsAreServedOrRefused (h : Obligations.RemoteRequestsAreServedOrRefused) :
    Runs (.rloadRequest (req9 0) 16) sRemote ∧ Runs (.rstoreRequest (req9 0) 3 bytes64) sRemote
      ∧ Runs (.ratomicRequest (req9 0) 3 .add true 5 6) sRemote ∧ Runs (.rtrigArrival (req9 0) 0 7 (List.replicate 32 6) 33) sRemote
      ∧ Runs (.rtrigArrival (req9 0) 0 7 (List.replicate 32 6) 33) sNoArg
      ∧ Runs (.heldRequestRelease 0) sHeld ∧ Runs (.rloadRequest (req9 9) 2) sRemote ∧ Runs (.rloadRequest (req9 1) 2) sCut
      ∧ Runs (.rloadRequest (req9 0) 2) sClosed := by
  have a := h.1 sRemote (req9 0) ⟨by decide, by decide +kernel⟩ (by decide +kernel)
  have b := h.1 sHeld (req9 0) ⟨by decide, by decide +kernel⟩ (by decide +kernel)
  refine ⟨?_, ?_, ?_, ?_, ?_, ?_, ?_, ?_, ?_⟩
  · exact runs (a.1 16 ⟨by decide +kernel, by decide +kernel⟩ (by decide +kernel) (by decide +kernel))
  · exact runs (a.2.1 3 2 64 (.store bytes64) _ [] (Or.inl ⟨bytes64, rfl, rfl, rfl, rfl, rfl⟩) ⟨by decide +kernel, by decide +kernel⟩
      (by decide +kernel) (by decide +kernel))
  · exact runs (a.2.1 3 3 8 (.atomic .add true 5 6) _ _ (Or.inr ⟨.add, true, 5, 6, rfl, rfl, rfl, rfl, by decide +kernel, rfl⟩)
      ⟨by decide +kernel, by decide +kernel⟩ (by decide +kernel) (by decide +kernel))
  · exact runs ((a.2.2.1 0 7 33 0 (List.replicate 32 6) (by decide +kernel) (by decide +kernel) (by decide +kernel) (by decide +kernel)
      (by decide +kernel) (by decide +kernel)).1 (by decide +kernel))
  · exact runs ((((h.1 sNoArg (req9 0) ⟨by decide, by decide +kernel⟩ (by decide +kernel)).2.2.1 0 7 33 0 (List.replicate 32 6) (by decide +kernel)
      (by decide +kernel) (by decide +kernel) (by decide +kernel) (by decide +kernel) (by decide +kernel))).2 (by decide +kernel))
  · exact runs (b.2.2.2 0 (.rstore (req9 0) 3 bytes64) _ (by decide +kernel) (by decide +kernel) (Or.inr (Or.inl ⟨3, bytes64, rfl, rfl, rfl⟩)))
  · exact runs ((h.2 sRemote (req9 9) 1 64 _ (.rload (req9 9) 2) (Or.inl ⟨2, rfl, rfl, rfl, rfl⟩) (by decide +kernel)).1 (by decide +kernel))
  · exact runsTo ((h.2 sCut (req9 1) 1 64 _ (.rload (req9 1) 2) (Or.inl ⟨2, rfl, rfl, rfl, rfl⟩) (by decide +kernel)).2.1 (by decide +kernel))
  · exact runs ((h.2 sClosed (req9 0) 1 64 _ (.rload (req9 0) 2) (Or.inl ⟨2, rfl, rfl, rfl, rfl⟩) (by decide +kernel)).2.2
      (by decide +kernel) (by decide +kernel) ⟨by decide, by decide +kernel⟩)

/-- Frame 3 runs; a query to node 9 is open. -/
def sMarkers : State :=
  let d := withRegs devRemote [(pPart 0, Reg.CTL_FRAME_NUM, 3)]
  { sRemote with dev := { d with rmt := { d.rmt with queries := [⟨0, 9, .votesMissing, false⟩] } } }

theorem witness_MarkersAndQueries (h : Obligations.MarkersAndQueries) :
    Runs (.markerReceive 0 node9 0 false) sHeld ∧ Runs (.markerLate 0 node9 0) sMarkers ∧ Runs (.nodeQuery 0 9 .fenceTimeout) sRemote
      ∧ Runs (.queryTimeout 9 false) sMarkers ∧ Runs (.teardownRequest 0 9) sMarkers ∧ Runs (.nodeQueryArrival node9 0 .alive) sMarkers
      ∧ Runs (.nodeQueryAnswer 9 0 (.packetsSent 1 0 0)) sMarkers ∧ Runs (.nodeQueryAnswer 9 0 (.packetsSent 1 0 3)) sMarkers := by
  refine ⟨?_, ?_, ?_, ?_, ?_, ?_, ?_, ?_⟩
  · exact runs ((h sHeld 0).1 node9 0 false (by decide +kernel))
  · exact runs ((h sMarkers 0).2.1 node9 0 (by decide +kernel) (by decide +kernel) (by decide +kernel))
  · exact runs ((h sRemote 0).2.2.1 9 .fenceTimeout (by decide +kernel) ⟨by decide, by decide +kernel⟩)
  · exact runs ((h sMarkers 0).2.2.2.1 9 (by decide +kernel) (by decide +kernel))
  · exact runs ((h sMarkers 0).2.2.2.2.1 9 (by decide +kernel))
  · exact ((h sMarkers 0).2.2.2.2.2.1 node9 ⟨by decide, by decide +kernel⟩).1.imp fun _ ⟨_, q⟩ => q.1
  · exact runsTo (((h sMarkers 0).2.2.2.2.2.2 9 0 1 0).2.1 (by decide +kernel))
  · exact runs (((h sMarkers 0).2.2.2.2.2.2 9 0 1 3).2.2 (by decide +kernel))

/-- Every Bollum port is up. -/
def devPorts : Dev := withRegs ready0 ((List.range 32).map fun i => (pBol i, Reg.BOL_PORT_STATUS, 3))

/-- A packet to a node: class, how often it has been deflected. -/
def pkt0 (node cls deflect : Nat) : Pkt where
  dest := mkPlace 0 node (pPart 0)
  src := pCell 0
  cls := cls
  type := 2
  fence := false
  bitmap := false
  lane := 1
  deflect := deflect
  dpart := 0
  spart := 0
  frame := 0
  addr := 64
  pair := 0
  reqId := 5
  payload := List.replicate 32 3
def inPkt0 (cls deflect : Nat) : InPkt := ⟨7, none, false, pkt0 137 cls deflect⟩
def sRoute (deflect : Nat) : State := st { devPorts with fab := { devPorts.fab with local_ := [inPkt0 0 deflect], nextId := 8 } }
def sEscape : State := st { devPorts with fab := { devPorts.fab with escape := [inPkt0 2 9], nextId := 8 } }

theorem witness_PacketsTakeTheirRoute (h : Obligations.PacketsTakeTheirRoute) :
    Runs (.packetRoute 7 0) (sRoute 0) ∧ Runs (.packetRoute 7 2) (sRoute 0) ∧ Runs (.packetRoute 7 0x4003) (sRoute 0)
      ∧ Runs (.packetRoute 7 0x4003) (sRoute 9) ∧ Runs (.escapeForward 7 1) sEscape := by
  have a := h (sRoute 0) 7 (inPkt0 0 0) [0, 1] [[14, 15, 16, 17], [22, 23, 24, 25]] (by unfold plainPorts; decide +kernel) (by decide +kernel)
    (by decide +kernel)
  have b := h (sRoute 9) 7 (inPkt0 0 9) [0, 1] [[14, 15, 16, 17], [22, 23, 24, 25]] (by unfold plainPorts; decide +kernel) (by decide +kernel)
    (by decide +kernel)
  have c := h sEscape 7 (inPkt0 2 9) [0, 1] [[14, 15, 16, 17], [22, 23, 24, 25]] (by unfold plainPorts; decide +kernel) (by decide +kernel)
    (by decide +kernel)
  refine ⟨?_, ?_, ?_, ?_, ?_⟩
  · exact runs ((a.1 0 (by decide +kernel) (by decide +kernel) (by decide +kernel)).1 1 [] [0] (by decide +kernel) (by decide +kernel) (by decide +kernel))
  · exact runs ((a.1 2 (by decide +kernel) (by decide +kernel) (by decide +kernel)).1 0 [1] [] (by decide +kernel) (by decide +kernel) (by decide +kernel))
  · exact runs ((a.1 0x4003 (by decide +kernel) (by decide +kernel) (by decide +kernel)).2 15 [14] [16, 17, 22, 23, 24, 25]
      (by decide +kernel) (by decide +kernel) (by decide +kernel) (by decide +kernel))
  · exact runs (b.2.1 0x4003 (by decide +kernel) (by decide +kernel) (by decide +kernel) (by decide +kernel) (by decide +kernel))
  · exact runs (c.2.2 1 (by decide +kernel) (by decide +kernel) (by decide +kernel))

/-- The bytes of a packet to this device, and of one to node 9. -/
def rawHere : List Byte := pktBytes (pkt0 0 0 0)
def rawAway : List Byte := pktBytes (pkt0 9 3 0)
def sEth : State := st (withRegs devPorts [(pEth 1, Reg.ETH_STATUS, 1)])

/-- A fenced packet waits for 2 packets; `n` have arrived, in frame `f`, whose cut is taken or not. -/
def fenced0 : InPkt := ⟨7, some 4, false, { pkt0 0 0 0 with fence := true, pair := 2, frame := 0 }⟩
def sFence (n f : Nat) (cut : Bool) : State :=
  let d := { devPorts with fab := { devPorts.fab with fences := [fenced0], arrivals := [(0, [(0, n)])], nextId := 8 } }
  st (modPart (withRegs d [(pPart 0, Reg.CTL_FRAME_NUM, f)]) 0 fun x => { x with cutTaken := cut })

theorem witness_PacketsArriveAndFencesHold (h : Obligations.PacketsArriveAndFencesHold) :
    Runs (.packetArrival 4 rawHere) (st devPorts) ∧ Runs (.packetArrival 4 (rawHere ++ [1])) (st devPorts)
      ∧ Runs (.packetArrival 4 rawAway) (st devPorts) ∧ Runs (.ethDatagramReceive 1 true true rawHere) sEth
      ∧ Runs (.ethDatagramReceive 1 false true rawHere) sEth ∧ Runs (.fenceRelease 7) (sFence 1 0 false)
      ∧ Runs (.fenceRelease 7) (sFence 2 0 false) ∧ Runs (.fenceTimeout 7) (sFence 1 5 true) ∧ Runs (.saturationCheck 15) sReady := by
  have up : bolState (st devPorts).dev (4 : Fin 32).val = 3 ∨ bolState (st devPorts).dev (4 : Fin 32).val = 4 := by decide +kernel
  have e := (h.1 sEth rawHere).2 1 (by decide +kernel) (by decide +kernel)
  refine ⟨?_, ?_, ?_, ?_, ?_, ?_, ?_, ?_, ?_⟩
  · exact runs (((h.1 (st devPorts) rawHere).1 4 up).1 (by decide +kernel) (by decide +kernel) (by decide +kernel))
  · exact runs (((h.1 (st devPorts) (rawHere ++ [1])).1 4 up).2.1 (by decide +kernel) (by decide +kernel))
  · exact (((h.1 (st devPorts) rawAway).1 4 up).2.2 (by decide +kernel) (by decide +kernel)).imp fun _ ⟨_, q⟩ => q.1
  · exact runs (e.1 (by decide +kernel) (by decide +kernel) (by decide +kernel))
  · exact runs (e.2 false (by decide))
  · exact runsTo (((h.2 (sFence 1 0 false)).1 7 fenced0 (by decide +kernel)).1 (by decide +kernel))
  · exact runs (((h.2 (sFence 2 0 false)).1 7 fenced0 (by decide +kernel)).2.1 (by decide +kernel))
  · exact (((h.2 (sFence 1 5 true)).1 7 fenced0 (by decide +kernel)).2.2 (by decide +kernel) (by decide +kernel) ⟨by decide, by decide +kernel⟩).imp
      fun _ ⟨_, _, q⟩ => q.1
  · exact ((h.2 sReady).2 15).imp fun _ ⟨_, q⟩ => q.1

/-- Port 4 in a state, with a packet to retry and its timer running. -/
def sPort (x : Nat) : State :=
  st (modHxv (withRegs (modBol devPorts 4 fun q => { q with retry := [pkt0 9 0 0], timer := true })
    [(pBol 4, Reg.BOL_PORT_STATUS, x), (pPart 0, Reg.CTL_LOAD_STATUS, 16), (pPart 0, Reg.CTL_PART_PORTS, 2 ^ 32 - 1)]) 1
    fun q => { q with timer := true })

/-- A pod of one rack, port 23 DOWN. -/
def sOneRack : State := st { ready0 with fab := { ready0.fab with racks := 1 } }

theorem witness_LinksTrainAndRetry (h : Obligations.LinksTrainAndRetry) :
    Runs (.linkRetry 4 (.corrected 7 42500) 0 100) (sPort 3) ∧ Runs (.linkRetry 4 .uncorrectable 7 100) (sPort 3)
      ∧ Runs (.linkRetrain 4 3) (sPort 1) ∧ Runs (.linkRetrain 4 2) (sPort 1) ∧ Runs (.linkRetrain 23 4) sOneRack
      ∧ Runs (.bollumLinkUp 4 (BitVec.ofNat 32 (mkPlace 0 (wiredTo devPorts 4) 0)) false) (sPort 1)
      ∧ Runs (.bollumLinkUp 4 (BitVec.ofNat 32 (mkPlace 0 99 0)) false) (sPort 1) ∧ Runs (.ethernetLinkChange 3 true) (sPort 1)
      ∧ Runs (.portRetryTimer (.bol 4)) (sPort 0) ∧ Runs (.portRetryTimer (.hxv 1)) (sPort 0) := by
  refine ⟨?_, ?_, ?_, ?_, ?_, ?_, ?_, ?_, ?_, ?_⟩
  · exact runs ((h (sPort 3) 4).1 7 42500 100 (by decide +kernel))
  · exact runs ((h (sPort 3) 4).2.1 7 100 (by decide +kernel) (by decide +kernel))
  · exact runs (((h (sPort 1) 4).2.2.1 3 (by decide +kernel)).2.1 (by decide +kernel) (by decide +kernel) (by decide +kernel))
  · exact runs (((h (sPort 1) 4).2.2.1 2 (by decide +kernel)).2.2 (by decide +kernel) (by decide +kernel))
  · exact runsTo (((h sOneRack 23).2.2.1 4 (by decide +kernel)).1 (by decide +kernel))
  · exact runs (((h (sPort 1) 4).2.2.2.1 _ (by decide +kernel)).1 (by decide +kernel) (by decide +kernel))
  · exact runs (((h (sPort 1) 4).2.2.2.1 _ (by decide +kernel)).2 (by decide +kernel))
  · exact runs ((h (sPort 1) 4).2.2.2.2.1 3 true (by decide +kernel))
  · exact runs ((h (sPort 0) 4).2.2.2.2.2.1 (by decide +kernel) (by decide +kernel) (by decide +kernel) (by decide +kernel))
  · exact runs ((h (sPort 0) 4).2.2.2.2.2.2 1 (by decide +kernel) (by decide +kernel))

/-! ## The host link, security and firmware -/

/-- A packet of the host: class, address, AUX, count, payload. -/
def hx0 (cls addr aux count : Nat) (payload : List Byte) : HxvPkt := ⟨cls, false, 77, addr, 0, count, aux, payload⟩

/-- Hexvan port 0 is up with credits, complex 0 is active, and the host has a window in Tier H. -/
def devHost : Dev :=
  modHxv (withRegs ready0 [(pHxv 0, Reg.HXV_STATUS, 3), (pCtl 0, Reg.CTL_CX_STATUS, 2)]) 0
    fun q => { q with credits := [(1, 5), (3, 5), (5, 5), (7, 5)] }
def propHost : Propolis := { Propolis.reset with hosts := [(0, ⟨0x1000000, 65536, true, true, true, true, false⟩)] }
def sHost : State := ⟨[], propHost, devHost⟩

theorem taken_of {d : Dev} {i cls : Nat} {l : List Byte} (h : (hxvUp d i && !(stateIs d (pHxv i) .resetting) && hxvGood l
    && (readHxv l).cls == cls) = true) : taken d i cls l (readHxv l) := by
  simp only [Bool.and_eq_true, Bool.not_eq_true', beq_iff_eq] at h
  exact ⟨h.1.1.1, h.1.1.2, h.1.2, rfl, h.2⟩

def rawWrite (addr : Nat) : List Byte := hxvRaw (hx0 2 addr 0 0 (List.replicate 64 5))
def rawRead (addr : Nat) : List Byte := hxvRaw (hx0 4 addr 64 0 [])
def rawMgmt (aux : Nat) (payload : List Byte) : List Byte := hxvRaw (hx0 6 (pMem 0 * 4096 + Reg.MEM_PATROL) aux 0 payload)

theorem witness_HostAccessesAct (h : Obligations.HostAccessesAct) :
    Runs (.hostWrite 0 (rawWrite 0x1000020)) sHost ∧ Runs (.hostWrite 0 (rawWrite 0x2000020)) sHost ∧ Runs (.hostRead 0 (rawRead 0x1000020)) sHost
      ∧ Runs (.hostRead 0 (rawRead 0x1000024)) sHost ∧ Runs (.mgmtReq 0 (rawMgmt 4 [])) sHost ∧ Runs (.mgmtReq 0 (rawMgmt 20 [5, 0, 0, 0])) sHost := by
  have w (a : Nat) := (h sHost 0 (rawWrite a) (readHxv (rawWrite a))).1
  have r (a : Nat) := (h sHost 0 (rawRead a) (readHxv (rawRead a))).2.1
  have m (x : Nat) (l : List Byte) := (h sHost 0 (rawMgmt x l) (readHxv (rawMgmt x l))).2.2
  refine ⟨?_, ?_, ?_, ?_, ?_, ?_⟩
  · exact runs ((w 0x1000020 (taken_of (by decide +kernel))).1 (by decide +kernel) (by decide +kernel) (by decide +kernel) (by decide +kernel))
  · exact runs ((w 0x2000020 (taken_of (by decide +kernel))).2 (by decide +kernel))
  · exact runs ((r 0x1000020 (taken_of (by decide +kernel))).1 (by decide +kernel) (by decide +kernel) (by decide +kernel))
  · exact runs ((r 0x1000024 (taken_of (by decide +kernel))).2 (by decide +kernel))
  · exact runs ((m 4 [] (taken_of (by decide +kernel)) (by decide +kernel)).1 (by decide +kernel) (by decide +kernel))
  · exact ((m 20 [5, 0, 0, 0] (taken_of (by decide +kernel)) (by decide +kernel)).2 (by decide +kernel)).imp fun _ ⟨_, q⟩ => q.1

/-- A command record: opcode, context, tag. -/
def record0 (op c tag : Nat) : List Byte := leBytes 1 op ++ leBytes 1 0 ++ leBytes 2 c ++ leBytes 4 tag ++ List.replicate 56 7
def rawCommands (c : Nat) : List Byte := hxvRaw (hx0 0 0 0 2 (record0 1 c 4 ++ record0 2 c 5))
def rawOne : List Byte := hxvRaw (hx0 0 0 0 1 (record0 1 0 4))
def sFullInbox : State := ⟨[], propHost, modCtx devHost 0 fun x => { x with inbox := List.replicate 64 ⟨0, 1, 0, 0, 0, 0, []⟩ }⟩
def sCpls : State := ⟨[], propHost, modHxv devHost 0 fun q => { q with queue := List.replicate 18 ⟨1, 0, 0, 4, 5, false, 6, List.replicate 16 0, 9⟩ }⟩

theorem witness_CommandsArriveAndCompletionsLeave (h : Obligations.CommandsArriveAndCompletionsLeave) :
    Runs (.commandPacket 0 (rawCommands 3)) sHost ∧ Runs (.commandPacket 0 (rawCommands 256)) sHost ∧ Runs (.commandPacket 0 rawOne) sFullInbox
      ∧ Runs (.completionSend 0) sCpls ∧ Runs (.hexvanCreditReturn 0 7 3) sHost := by
  refine ⟨?_, ?_, ?_, ?_, ?_⟩
  · exact runs (((h sHost 0).1 (rawCommands 3) _ (taken_of (by decide +kernel))).1 3 (by decide +kernel) (by decide +kernel) (by decide +kernel))
  · exact runs (((h sHost 0).1 (rawCommands 256) _ (taken_of (by decide +kernel))).2.1 (by decide +kernel) (by decide +kernel))
  · exact (((h sFullInbox 0).1 rawOne _ (taken_of (by decide +kernel))).2.2 0 (by decide +kernel) (by decide +kernel) (by decide +kernel)
      (by decide +kernel) (by decide +kernel)).imp fun _ ⟨_, q⟩ => q.1
  · exact runs ((h sCpls 0).2.1 (by decide +kernel) (by decide +kernel) (by decide +kernel))
  · exact runs ((h sHost 0).2.2 7 3)

/-- A host fetch that holds `n` bytes, a pull of an image chunk, and the refetch that waits. -/
def fetched (n : Nat) : HostFetch := ⟨77, 0, 0x10000, List.replicate n 0, 3⟩
def pull0 : ImagePull := ⟨77, 0, 0, 5, []⟩
def sFetch (n : Nat) : State :=
  ⟨[], propHost, { modHxv devHost 0 (fun q => { q with fetches := [fetched n], pulls := [pull0] }) with
    tier := { devHost.tier with refetches := [⟨0, 0, 5, 0x10000, 9, 0, true⟩] } }⟩
def rawData (cls aux n : Nat) (last : Bool) : List Byte := hxvRaw { hx0 cls 0 aux 0 (List.replicate n 5) with last := last }

theorem witness_HostDataArrives (h : Obligations.HostDataArrives) :
    Runs (.hostData 0 ⟨30, rawData 9 0 64 false⟩) (sFetch 0) ∧ Runs (.hostData 0 ⟨30, rawData 9 65504 32 true⟩) (sFetch 65504)
      ∧ Runs (.imageData 0 (rawData 11 0 64 false)) (sFetch 0) := by
  refine ⟨?_, ?_, ?_⟩
  · exact runs (((h (sFetch 0) 0 (rawData 9 0 64 false) _ 30).1 (fetched 0) (taken_of (by decide +kernel)) (by decide +kernel) (by decide +kernel)
      (by decide +kernel)).1 (by decide +kernel) (by decide +kernel))
  · have q : (fetched 65504).got.length = 65504 := List.length_replicate
    refine (((h (sFetch 65504) 0 (rawData 9 65504 32 true) _ 30).1 (fetched 65504) (taken_of (by decide +kernel)) rfl (by decide +kernel)
      (q.trans (by decide +kernel)).symm).2 (by decide +kernel) ?_ (by decide +kernel) (by decide +kernel) (by decide +kernel)).imp fun _ ⟨_, q⟩ => q.1
    rw [q]
    decide +kernel
  · exact runs ((h (sFetch 0) 0 (rawData 11 0 64 false) _ 30).2 pull0 (taken_of (by decide +kernel)) (by decide +kernel) (by decide +kernel) (by decide +kernel))

/-- Hexvan port 0 trains; Bollum port 4 is up with an injection, and a lane out of service or not. -/
def sTrain (lane : Nat) : State :=
  ⟨[], propHost, withRegs devHost [(pHxv 0, Reg.HXV_STATUS, 1), (pBol 4, Reg.BOL_PORT_STATUS, 3), (pBol 4, Reg.BOL_INJECT, 1),
    (pBol 4, Reg.BOL_LANE_CTL, lane)]⟩

def trainGood : TrainFacts := ⟨true, true, true, ⟨List.replicate 8 100, false⟩, 0, true⟩
def trainBad : TrainFacts := ⟨true, true, false, ⟨[], true⟩, 0, true⟩

theorem witness_PortsTrain (h : Obligations.PortsTrain) :
    Runs (.hexvanTraining 0 trainGood) (sTrain 0) ∧ Runs (.hexvanTraining 0 trainBad) (sTrain 0)
      ∧ Runs (.hexvanLinkRetry 0 .uncorrectable 7 50) sHost ∧ Runs (.laneOut 4 8) (sTrain 0) ∧ Runs (.laneOut 4 2) (sTrain 4)
      ∧ Runs (.spareRole 30 2) (sTrain 0) ∧ Runs (.spareRole 31 3) (sTrain 0) := by
  refine ⟨?_, ?_, ?_, ?_, ?_, ?_, ?_⟩
  · exact runs (((h (sTrain 0)).1 0 trainGood (by decide +kernel)).1 (by decide +kernel) (by decide +kernel))
  · exact runs (((h (sTrain 0)).1 0 trainBad (by decide +kernel)).2 (by decide +kernel))
  · exact runs ((h sHost).2.1 0 7 50 (by decide +kernel) (by decide +kernel) (by decide +kernel))
  · exact runs (((h (sTrain 0)).2.2.1 4 8 (by decide +kernel)).1 (by decide +kernel) (by decide +kernel) (by decide +kernel))
  · exact runsTo (((h (sTrain 4)).2.2.1 4 2 (by decide +kernel)).2.2 (by decide +kernel) (by decide +kernel) (by decide +kernel))
  · exact runs ((h (sTrain 0)).2.2.2 30 2 (by decide))
  · exact runs ((h (sTrain 0)).2.2.2 31 3 (by decide))

/-- The log of complex 0 is full; a report is being built there or not. -/
def sLog (n : Nat) : State :=
  st { ready0 with sec := { ready0.sec with logs := [(0, ⟨(List.range n).map fun i => List.replicate 4 (BitVec.ofNat 8 i), [], [], 0, n⟩)] } }
theorem sLog_length (n : Nat) : (logOf (sLog n).dev (0 : Fin 2).val).entries.length = n :=
  (List.length_map _).trans List.length_range

def sReport : State := st { ready0 with sec := { ready0.sec with att := [(0, ⟨true, 3, [1, 2], some [1, 2, 3], []⟩)] } }
def sNoRead : State := ⟨[], { Propolis.reset with grants := [(0, { grantZero with read := false })] }, ready0⟩

theorem witness_LogsFoldAndReportsAreBuilt (h : Obligations.LogsFoldAndReportsAreBuilt) :
    Runs (.logFold 0) (sLog 0) ∧ Runs (.logFold 0) (sLog 4096) ∧ Runs (.attestationRequest 1 host 3) sReady
      ∧ Runs (.attestationRequest 0 host 3) sNoRead ∧ Runs (.attestationReportReady 0) sReport ∧ Runs (.attestationReportReady 0) sReady := by
  refine ⟨?_, ?_, ?_, ?_, ?_, ?_⟩
  · exact runsTo ((h (sLog 0) 0).1 (by decide +kernel))
  · exact runs ((h (sLog 4096) 0).2.1 (Nat.le_of_eq (sLog_length 4096).symm))
  · exact runs (((h sReady 1).2.2.1 host 3 (by decide +kernel)).1 (by decide +kernel) (by decide +kernel))
  · exact runs (((h sNoRead 0).2.2.1 host 3 (by decide +kernel)).2 (by decide +kernel))
  · exact runs ((h sReport 0).2.2.2.1 [1, 2, 3] (by decide +kernel))
  · exact runsTo ((h sReady 0).2.2.2.2 (by decide +kernel))

/-- An exchange at port 4 after `step` messages, beside its traffic or first. -/
def sAuth (step : Nat) (rekey running : Bool) (state : Nat) : State :=
  st { withRegs ready0 [(pBol 4, Reg.BOL_PORT_STATUS, state + 24)] with
    sec := { ready0.sec with auth := [(4, ⟨step, running, rekey, 5, 6, 1, 0, [], [1], [], [], [], [], []⟩)] } }

theorem witness_LinksAuthenticate (h : Obligations.LinksAuthenticate) :
    (∃ x, Runs (.authHello (.bol 4) x) (sAuth 0 false false 2)) ∧ Runs (.authKem (.bol 4) (List.replicate 1088 1)) (sAuth 1 false true 2)
      ∧ Runs (.authFinish (.bol 4) (List.replicate 17088 1)) (sAuth 2 true true 3) ∧ Runs (.authTimeout (.bol 4)) (sAuth 2 true true 3)
      ∧ Runs (.keyChange (.bol 4) true) (sAuth 2 true true 3) ∧ Runs (.keyChange (.bol 4) false) (sAuth 2 true true 3) := by
  have a := h (sAuth 0 false false 2) (.bol 4) 4 (by decide) (by decide +kernel)
  have b := h (sAuth 1 false true 2) (.bol 4) 4 (by decide) (by decide +kernel)
  have c := h (sAuth 2 true true 3) (.bol 4) 4 (by decide) (by decide +kernel)
  refine ⟨⟨⟨0, 5, List.replicate 600 0, [], List.replicate 1184 1⟩, ?_⟩, ?_, ?_, ?_, ?_, ?_⟩
  · exact runs ((a.1 (by decide +kernel)).1 (by decide +kernel) _)
  · exact runs ((b.1 (by decide +kernel)).2.1 (by decide +kernel) _)
  · exact runs ((c.1 (by decide +kernel)).2.2.1 (by decide +kernel) _)
  · exact runs (c.1 (by decide +kernel)).2.2.2
  · exact (c.2 (by decide +kernel)).1.imp fun _ ⟨_, _, q⟩ => q.1
  · exact runs (c.2 (by decide +kernel)).2

/-- Both complexes run; complex 0 is active, and its component 2 has faulted before; the device stands at a grid point, or 5 ns past it. -/
def cpx0 : Cpx := ⟨[], [], [], 5, 6, 0, [], []⟩
def cpxFaulty : Cpx := { cpx0 with faults := [(2, [5, 6])] }
def devFw (x : Cpx) (hall : Nat) : Dev :=
  { withRegs ready0 [(pCtl 0, Reg.CTL_CX_STATUS, 2 + 0x1F00), (pCtl 1, Reg.CTL_CX_STATUS, 3 + 0x1F00)] with cpx := [(0, x), (1, cpx0)], hall := hall }
def sUpdate (used : Bool) : State :=
  let d := { devFw cpx0 8000 with vat := { vat0 with bufs := [(3 * 2 ^ 20, ⟨.held, 1, 0, 0, false, false⟩)] } }
  st (if used then modCtx d 0 fun x => { x with state := .running, image := some { img0 with timing := 5 } } else d)
/-- Complex 0 alone runs. -/
def sAlone : State := st (withRegs (devFw cpx0 8000) [(pCtl 1, Reg.CTL_CX_STATUS, 0)])

theorem witness_FirmwareRestartsAndUpdates (h : Obligations.FirmwareRestartsAndUpdates) :
    Runs (.componentFault 0 2 2 100) (st (devFw cpx0 8000)) ∧ Runs (.componentFault 0 0 1 100) (st (devFw cpx0 8000))
      ∧ Runs (.watchdogExpiry 0 2 100) (st (devFw cpxFaulty 8000)) ∧ Runs .heartbeat (st (devFw cpx0 8000)) ∧ Runs .heartbeatLoss (st (devFw cpx0 8000))
      ∧ Runs (.switchover 1 7) (st (devFw cpx0 8000)) ∧ Runs (.switchover 1 7) sAlone ∧ Runs (.switchover 1 7) (st (devFw cpx0 8005))
      ∧ Runs (.updateComponent 1 7 2 (BitVec.ofNat 32 hTier) 0 true true 0 0 11) (sUpdate false)
      ∧ Runs (.updateComponent 1 7 4 (BitVec.ofNat 32 hTier) 0 true true 0 0 11) (sUpdate true)
      ∧ Runs (.updateComponent 1 7 4 (BitVec.ofNat 32 hTier) 0 true true 0 0 11) (st (devFw cpx0 8005)) := by
  have a := h (st (devFw cpx0 8000))
  have b := h (st (devFw cpx0 8005))
  have u := (h (sUpdate false)).2.2.2 1 7 (BitVec.ofNat 32 hTier) 2 0 0 0 11 0 cpx0 (by decide +kernel) (by decide +kernel) (by decide) (by decide)
    (by decide +kernel)
  have v := (h (sUpdate true)).2.2.2 1 7 (BitVec.ofNat 32 hTier) 4 0 0 0 11 0 cpx0 (by decide +kernel) (by decide +kernel) (by decide) (by decide)
    (by decide +kernel)
  have w := b.2.2.2 1 7 (BitVec.ofNat 32 hTier) 4 0 0 0 11 0 cpx0 (by decide +kernel) (by decide +kernel) (by decide) (by decide) (by decide +kernel)
  refine ⟨?_, ?_, ?_, ?_, ?_, ?_, ?_, ?_, ?_, ?_, ?_⟩
  · exact runs (a.1 0 2 2 100 cpx0 _ (by decide +kernel) (by decide) (by decide) (by decide +kernel) (Or.inl rfl))
  · exact runs (a.1 0 0 1 100 cpx0 _ (by decide +kernel) (by decide) (by decide) (by decide +kernel) (Or.inl rfl))
  · exact runs ((h (st (devFw cpxFaulty 8000))).1 0 2 3 100 cpxFaulty _ (by decide +kernel) (by decide) (by decide) (by decide +kernel) (Or.inr ⟨rfl, rfl⟩))
  · exact runs (a.2.1 0 (by decide +kernel)).1
  · exact runs ((a.2.1 0 (by decide +kernel)).2 1 (by decide +kernel))
  · exact runs ((a.2.2.1 1 7).1 (by decide +kernel) (by decide +kernel))
  · exact runs (((h sAlone).2.2.1 1 7).2.1 (by decide +kernel) (by decide +kernel))
  · exact runsTo ((b.2.2.1 1 7).2.2 (by decide +kernel) (by decide +kernel))
  · exact ((u.1 (by decide +kernel) (by decide +kernel) (by decide +kernel)).1 (by decide +kernel)).imp fun _ ⟨_, q⟩ => q.1
  · exact runs ((v.1 (by decide +kernel) (by decide +kernel) (by decide +kernel)).2.2.1 (by decide +kernel))
  · exact runsTo (w.2 (by decide +kernel) (by decide +kernel) true true)

end Sys2Proof.Tests
end

