-- ==== Sys2Proof/Tests/WitnessC.lean ====
section
/-! SUPPORT. Witnesses of the statements about contexts, repair, units, bring-up and broadcast, built like those of WitnessA. -/

namespace Sys2Proof.Tests
open Sys2Proof Sys2Proof.Machine
set_option Elab.async false

/-! ## Frames, contexts and the device's commands -/

/-- The frame of partition 0 names a buffer, and is killed or not. -/
def sCutting (kill : Option Nat) : State := st (modPart { ready0 with cells := [] } 0 fun x => { x with named := [(5, hTier)], killNow := kill })
def imgGroup : Image := { img0 with exch := [⟨0, 0⟩, ⟨9, 0⟩], exchGroup := 7 }
def devGroup : Dev := run (sCutting none).dev imgGroup

/-- The frame waits for its exchange group, where these votes have come. -/
def sGroup (votes : List (Nat × Nat × Bool)) : State :=
  st { modPart devGroup 0 (fun x => { x with cutTaken := true, groupWait := true, decision := some true }) with
    groups := [(0, ⟨votes, some (0, true), none, none, []⟩)] }

/-- A split was found in the frame, by the vote of node 9. -/
def sSplit : State :=
  st { (sGroup []).dev with groups := [(0, ⟨[], some (0, true), none, some (0, 9), []⟩)], rmt := { devGroup.rmt with members := [(0, [⟨9, 0⟩])] } }

theorem witness_FramesAreDecidedAtTheCut (h : Obligations.FramesAreDecidedAtTheCut) :
    Runs (.completionCut 0) (sGroup []) ∧ Runs (.completionCut 0) (sCutting none) ∧ Runs (.completionCut 0) (sCutting (some 3))
      ∧ Runs (.completionCut 0) (st devGroup) ∧ Runs (.groupOutcome 0) (sCutting none) ∧ Runs (.groupOutcome 0) (sGroup [(0, 1, true)])
      ∧ Runs (.groupOutcome 0) (sGroup [(0, 1, false)])
      ∧ (∃ t, exec (.groupOutcome 0) sSplit = .next t ∧ (0, 9) ∈ t.dev.rmt.torn) ∧ Runs (.killRequest 0 0x601) (sCutting none) ∧ Runs (.killRequest 0 0x501) (sCutting none) := by
  refine ⟨?_, ?_, ?_, ?_, ?_, ?_, ?_, ?_, ?_, ?_⟩
  · exact runsTo ((h (sGroup []) 0).1 (by decide +kernel))
  · exact runs ((h (sCutting none) 0).2.1 (by decide +kernel))
  · exact runs ((h (sCutting (some 3)) 0).2.1 (by decide +kernel))
  · exact runs ((h (st devGroup) 0).2.1 (by decide +kernel))
  · exact runsTo ((h (sCutting none) 0).2.2.1 (by decide +kernel))
  · exact runs ((h (sGroup [(0, 1, true)]) 0).2.2.2.1 0 0 imgGroup 0 (by decide +kernel) (by decide +kernel))
  · exact runs ((h (sGroup [(0, 1, false)]) 0).2.2.2.1 0 0 imgGroup 0 (by decide +kernel) (by decide +kernel))
  · exact ((h sSplit 0).2.2.2.1 0 0 imgGroup 0 (by decide +kernel) (by decide +kernel)).imp fun _ q =>
      ⟨q.1, (q.2.2.2.2 9 (by decide +kernel) (by decide +kernel)).2.2⟩
  · exact runsTo (((h (sCutting none) 0).2.2.2.2 0x601).1 (by decide +kernel))
  · exact runs (((h (sCutting none) 0).2.2.2.2 0x501).2 (by decide +kernel))

/-- The committing cut of the statement: its frame commits in the first of these states and is killed in the second. -/
theorem witness_cut_decides : (let c := cutCharges (sCutting none).dev 0; (allDone c 0 && (partOf c 0).killNow.isNone) = true)
    ∧ (partOf (cutCharges (sCutting (some 3)).dev 0) 0).killNow = some 3 := by decide +kernel

/-- Context 3 of partition 0, at its tick, with the scheduler running and time locked. -/
def devCtx (x : Ctx) : Dev :=
  { withRegs ready0 [(pPart 0, Reg.CTL_SCHED_NOW, 0x100), (pTim, Reg.TIM_STATUS, 1), (pCtl 0, Reg.CTL_CX_STATUS, 2 + 0x1F00)] with ctxs := [(3, x)] }
def loaded0 : Ctx := { Ctx.init with state := .loaded, image := some img0 }
def sCtx (state : CtxState) (pinned : Bool) : State := st (devCtx { loaded0 with state := state, pinned := pinned })
/-- Past the tick, with this many records waiting. -/
def sPast (n : Nat) : State := st { devCtx { loaded0 with inbox := List.replicate n ⟨0, 1, 0, 0, 3, 0, []⟩ } with hall := 5 }
/-- A pinned context whose job has a member on another device: what that device answers is free. -/
def sAway (two : Bool) : State :=
  st (devCtx { loaded0 with pinned := true, image := some { img0 with members := if two then 2 else 1, exch := [⟨0, 0⟩, ⟨9, 0⟩] } })

/-! An image that verifies: its sections, its body, and its header with the digest of the body. -/

def section0 (type off len : Nat) : List Byte := leBytes 2 type ++ leBytes 2 0 ++ leBytes 4 0 ++ leBytes 8 off ++ leBytes 8 len ++ leBytes 8 0
def params0 : List Byte :=
  leBytes 2 1 ++ leBytes 2 64 ++ List.replicate 64 0 ++ leBytes 2 3 ++ leBytes 2 32 ++ List.replicate 32 0 ++ leBytes 2 4 ++ leBytes 2 16
    ++ leBytes 16 (16 ^ 32 - 16)
def body0 : List Byte :=
  section0 1 384 0 ++ section0 3 384 32 ++ section0 4 416 params0.length ++ section0 6 (416 + params0.length) 16 ++ List.replicate 32 0 ++ params0
    ++ List.replicate 16 0
def header0 (digest : List Byte) : List Byte :=
  leBytes 4 0x444C4D59 ++ leBytes 2 1 ++ leBytes 2 256 ++ leBytes 8 (256 + body0.length) ++ leBytes 2 fuses0.nCells ++ leBytes 2 1 ++ leBytes 1 3
    ++ leBytes 1 0 ++ leBytes 2 (rdF up pDev Reg.CTL_CAP_TIMING 15 0) ++ leBytes 4 1 ++ leBytes 4 1 ++ leBytes 4 0
    ++ leBytes 4 (rdF up pDev Reg.CTL_CAP_TIMING 31 16) ++ leBytes 8 0 ++ leBytes 4 0 ++ leBytes 4 4 ++ leBytes 8 256 ++ digest ++ List.replicate 160 0
def image0 : List Byte := header0 (sha256 body0) ++ body0

/-- The image, or nothing, stands in a held buffer of context 3. -/
def sLoad (there : Bool) : State :=
  st { devCtx { Ctx.init with state := .open } with
    mem := if there then (image0.zipIdx.filter fun e => e.1 != 0).map fun e => (0x1000000 + e.2, e.1) else []
    vat := { vat0 with bufs := [(3 * 2 ^ 20, ⟨.held, 1, 0, 3, false, false⟩)], limit := [(12, 65536), (13, 1048576)], used := [] } }

theorem witness_ContextCommandsTakeEffect (h : Obligations.ContextCommandsTakeEffect) :
    Runs (.setPrio 3 9 0) (sCtx .free false) ∧ Runs (.setPrio 3 9 7) (sCtx .loaded false) ∧ Runs (.cmdNop 3 9) (sCtx .loaded false)
      ∧ Runs (.setPrio 3 9 5) (sCtx .halted false) ∧ Runs (.start 3 9 0 5) (sCtx .idle false) ∧ Runs (.loadImage 3 9 0 5) (sCtx .idle false)
      ∧ Runs (.start 3 9 0 5) (sCtx .loaded false) ∧ Runs (.start 3 9 0 5) (sAway false) ∧ Runs (.stop 3 9 false) (sCtx .ready false)
      ∧ Runs (.stop 3 9 true) (sCtx .ready false) ∧ Runs (.loadImage 3 9 (BitVec.ofNat 32 hTier) 0) (sLoad false)
      ∧ Runs (.loadImage 3 9 (BitVec.ofNat 32 hTier) 0) (sLoad true) ∧ Runs (.start 3 9 0 5) (sPast 63) ∧ Runs (.stop 3 9 false) (sPast 64) := by
  have q (x : CtxState) (p : Bool) (f : (ctxOf (sCtx x p).dev 3).stopping = false) (a : (ctxOf (sCtx x p).dev 3).startAt = none)
    (b : drainsNow (sCtx x p).dev 3 = true) : _ := (h (sCtx x p) 3 9).2.2.2 f a b
  have l (x : Bool) (f : (ctxOf (sLoad x).dev 3).stopping = false) (a : (ctxOf (sLoad x).dev 3).startAt = none)
    (b : drainsNow (sLoad x).dev 3 = true) : _ := ((h (sLoad x) 3 9).2.2.2 f a b).2.2.2.2.2.2.2.2 (BitVec.ofNat 32 hTier) 0
  have lo := q .loaded false (by decide +kernel) (by decide +kernel) (by decide +kernel)
  have id := q .idle false (by decide +kernel) (by decide +kernel) (by decide +kernel)
  have rd := q .ready false (by decide +kernel) (by decide +kernel) (by decide +kernel)
  refine ⟨?_, ?_, ?_, ?_, ?_, ?_, ?_, ?_, ?_, ?_, ?_, ?_, ?_, ?_⟩
  · exact runs ((h (sCtx .free false) 3 9).1 (by decide +kernel)).1
  · exact runs (lo.1 7 (by decide +kernel) (by decide +kernel))
  · exact runs (lo.2.1 3 (by decide) (by decide +kernel) (by decide +kernel))
  · exact runs ((q .halted false (by decide +kernel) (by decide +kernel) (by decide +kernel)).2.2.1 5 (by decide +kernel))
  · exact runs (id.2.2.2.1 0 5 (by decide +kernel))
  · exact runs (id.2.2.2.2.1 0 5 (by decide +kernel))
  · exact runs ((lo.2.2.2.2.2.1 0 5 img0 (by decide +kernel) (by decide +kernel) (by decide)).1 (by decide +kernel) (by decide +kernel)
      (by decide +kernel))
  · exact runs (((((h (sAway false) 3 9).2.2.2 (by decide +kernel) (by decide +kernel) (by decide +kernel)).2.2.2.2.2.1 0 5 _ (by decide +kernel)
      rfl (by decide)).2 (by decide +kernel) (by decide +kernel)).1 (by decide +kernel) (by decide +kernel))
  · exact runs (rd.2.2.2.2.2.2.1 (by decide +kernel) (by decide +kernel))
  · exact runs (rd.2.2.2.2.2.2.2.1 (by decide +kernel))
  · exact runs ((l false (by decide +kernel) (by decide +kernel) (by decide +kernel) (by decide +kernel) (by decide +kernel) (by decide)
      (by decide +kernel)).1 (by decide +kernel))
  · exact ((l true (by decide +kernel) (by decide +kernel) (by decide +kernel) (by decide +kernel) (by decide +kernel) (by decide)
      (by decide +kernel)).2.2 (by decide +kernel) (by decide +kernel) (by decide +kernel) (by decide +kernel)).elim fun _ q => runsTo q.1
  · exact runsTo (((h (sPast 63) 3 9).2.1 (by decide +kernel) (by decide +kernel) (by decide +kernel)).2.2.1 0 5)
  · exact runs ((h (sPast 64) 3 9).2.2.1 (by decide +kernel) (by decide +kernel) (by decide +kernel))

/-- A job with members on other devices: either answer of theirs falls under a clause. -/
theorem witness_job_agrees_or_not (h : Obligations.ContextCommandsTakeEffect) : Runs (.start 3 9 0 5) (sAway true) := by
  have q := ((h (sAway true) 3 9).2.2.2 (by decide +kernel) (by decide +kernel) (by decide +kernel)).2.2.2.2.2.1 0 5 _ (by decide +kernel)
    rfl (by decide)
  have r := q.2 (by decide +kernel) (by decide +kernel)
  cases e : jobAgrees (received (sAway true).dev 3) 0 3 { img0 with members := 2, exch := [⟨0, 0⟩, ⟨9, 0⟩] }
      (jobTick (received (sAway true).dev 3) 0 3 { img0 with members := 2, exch := [⟨0, 0⟩, ⟨9, 0⟩] } 0) with
  | false => exact runs (r.2 e)
  | true => exact runs (r.1 e (by decide +kernel))

theorem witness_image_loads : (let b := imageBytes (received (sLoad true).dev 3) hTier 0
    loadErr (received (sLoad true).dev 3) (sLoad true).prop 3 0 b.1 b.2.1 b.2.2) = 0 := by decide +kernel

def vatHeld : VatSt := { (sLoad true).dev.vat with used := [(13, 4096)] }
def sHeldBuf : State := st { devCtx loaded0 with vat := vatHeld }
def sQuota (limit : Nat) : State := st { devCtx loaded0 with vat := { vatHeld with limit := [(13, limit)] } }

/-- A published buffer is bound, beside the held one. -/
def sPublished : State :=
  st (modPart { sHeldBuf.dev with vat := { vatHeld with bufs := vatHeld.bufs ++ [(4 * 2 ^ 20, ⟨.published, 1, 0, 3, false, false⟩)] } } 0
    fun x => { x with objects := [(5, hBig)] })
def sBrood : State := st (devCtx { loaded0 with image := some { img0 with brood := some ⟨0, 16, 0, 1, []⟩ } })

theorem witness_BufferAndSequenceCommandsTakeEffect (h : Obligations.BufferAndSequenceCommandsTakeEffect) :
    Runs (.publish 3 9 5 (BitVec.ofNat 32 hTier)) sPublished ∧ Runs (.publish 3 9 5 (BitVec.ofNat 32 hTier)) (sPast 7)
      ∧ Runs (.acquire 3 9 1 0 0) sHeldBuf ∧ Runs (.acquire 3 9 1 0 0) (sQuota 0) ∧ Runs (.acquire 3 9 3 1 0) sHeldBuf ∧ Runs (.release 3 9 (BitVec.ofNat 32 hTier)) sHeldBuf
      ∧ Runs (.release 3 9 (BitVec.ofNat 32 hBig)) sPublished ∧ Runs (.setDescriptor 3 9 5 (BitVec.ofNat 32 hTier) 0) sHeldBuf
      ∧ Runs (.admitSeq 3 9 1 2 3 4 5 6 255 255 true) sBrood ∧ Runs (.update 3 9 1 65535 3 4 5 6 7) sBrood ∧ Runs (.remove 3 9 1 65535) sBrood := by
  have a := (h sHeldBuf 3 9 (by decide +kernel)).2 (by decide +kernel) (by decide +kernel) (by decide +kernel) (by decide +kernel)
  have b := (h sPublished 3 9 (by decide +kernel)).2 (by decide +kernel) (by decide +kernel) (by decide +kernel) (by decide +kernel)
  have d := ((h sBrood 3 9 (by decide +kernel)).2 (by decide +kernel) (by decide +kernel) (by decide +kernel) (by decide +kernel)).2.2.2.2
    (by decide +kernel)
  have k := (h (sQuota 0) 3 9 (by decide +kernel)).2 (by decide +kernel) (by decide +kernel) (by decide +kernel) (by decide +kernel)
  refine ⟨?_, ?_, ?_, ?_, ?_, ?_, ?_, ?_, ?_, ?_, ?_⟩
  · exact (b.1 5 (BitVec.ofNat 32 hTier) (by decide) (by decide +kernel) (by decide +kernel) (by decide +kernel)).imp fun _ ⟨_, q⟩ => q.1
  · exact runsTo ((h (sPast 7) 3 9 (by decide +kernel)).1 (by decide +kernel) (by decide +kernel) (BitVec.ofNat 32 hTier) 5 0 0 0 0).1
  · exact runs (((a.2.1 1 0 0 (by decide +kernel) (by decide) (by decide +kernel)).2 3 1 (by decide +kernel)).2 (by decide +kernel))
  · exact runs (((k.2.1 1 0 0 (by decide +kernel) (by decide) (by decide +kernel)).2 3 1 (by decide +kernel)).1 (by decide +kernel))
  · exact runs ((a.2.1 3 1 0 (by decide +kernel) (by decide) (by decide +kernel)).1 (by decide +kernel))
  · exact runs ((a.2.2.1 (BitVec.ofNat 32 hTier) (by decide +kernel)).1 (by decide +kernel) (by decide +kernel) (by decide +kernel))
  · exact runs ((b.2.2.1 (BitVec.ofNat 32 hBig) (by decide +kernel)).2 (by decide +kernel))
  · exact runs (a.2.2.2.1 5 (BitVec.ofNat 32 hTier) 0 (by decide) (by decide +kernel) (by decide) (by decide +kernel))
  · exact runs (d.1 1 2 3 4 6 5 255 255 true (by decide) (by decide) (by decide) (by decide) (by decide) (by decide))
  · exact runs (d.2.1 1 65535 3 4 5 6 7 (by decide) (by decide) (by decide) (by decide))
  · exact runs (d.2.2 1 65535 (by decide)).2.2

/-- The image is registered in slot 5, which partition 0 runs or not; context 3 is open. -/
def sSlot (runs : Bool) : State :=
  st { (sLoad false).dev with
    host := { ready0.host with slots := [(5, (hTier, 0, 512, true))] }
    ctxs := if runs then [(0, { loaded0 with state := .running, image := some { img0 with brood := some ⟨0, 16, 5, 1, []⟩ } })]
      else [(3, { Ctx.init with state := .open })] }
def sNoCtx : State := st { (sLoad false).dev with ctxs := [] }
def sAllCtx : State := st { (sLoad false).dev with ctxs := (List.range 256).map fun k => (k, loaded0) }

theorem witness_DeviceCommandsTakeEffect (h : Obligations.DeviceCommandsTakeEffect) :
    Runs (.cmdNop 256 9) sNoCtx ∧ Runs (.cmdNop 256 9) (sPast 0) ∧ Runs (.releaseSlot 1 9 5) (sPast 0) ∧ Runs (.openContext 0 9 3 1) (sSlot false) ∧ Runs (.openContext 0 9 3 0) (sSlot false)
      ∧ Runs (.openContext 0 9 0xFFFF 0) sAllCtx ∧ Runs (.openContext 0 9 255 0) (sSlot false) ∧ Runs (.setPartition 0 9 0 3 3 3) (sSlot false)
      ∧ Runs (.setPartition 0 9 1 1 0x30 2) sNoCtx ∧ Runs (.setPartition 0 9 15 6 0x30 2) sNoCtx ∧ Runs (.closeContext 1 9 4) (sSlot false)
      ∧ Runs (.closeContext 1 9 3) (sSlot false) ∧ Runs (.closeContext 0 9 3) (sSlot false)
      ∧ Runs (.registerSlot 0 9 5 (BitVec.ofNat 32 hTier) 0) (sSlot false) ∧ Runs (.registerSlot 0 9 63 (BitVec.ofNat 32 hTier) 0) (sLoad true)
      ∧ Runs (.registerSlot 0 9 5 (BitVec.ofNat 32 hTier) 0) (sLoad false) ∧ Runs (.releaseSlot 0 9 63) (sSlot false)
      ∧ Runs (.releaseSlot 0 9 5) (sSlot false) ∧ Runs (.releaseSlot 0 9 5) (sSlot true) := by
  have a := h (sSlot false) 0 9
  have e := a.2.2.2 (by decide +kernel)
  have b := h (sSlot false) 1 9
  have f := b.2.2.2 (by decide +kernel)
  have n := h sNoCtx 0 9
  have m := n.2.2.2 (by decide +kernel)
  have p := h (sPast 0) 1 9
  refine ⟨?_, ?_, ?_, ?_, ?_, ?_, ?_, ?_, ?_, ?_, ?_, ?_, ?_, ?_, ?_, ?_, ?_, ?_, ?_⟩
  · exact runs (n.1 (by decide +kernel))
  · exact runsTo (p.2.1 (by decide +kernel) (by decide +kernel))
  · exact runsTo (p.2.2.1 (by decide +kernel) (by decide +kernel) 5 0 0 0 0 0 0).2.2.2.2
  · exact runs ((e.1 3 1 (by decide) (by decide)).1 (by decide +kernel))
  · exact runs ((e.1 3 0 (by decide) (by decide)).2.1 (by decide +kernel) (by decide) (by decide +kernel))
  · exact runs ((((h sAllCtx 0 9).2.2.2 (by decide +kernel)).1 0xFFFF 0 (by decide) (by decide)).2.2.1 (by decide +kernel) (by decide) (by decide +kernel))
  · exact runs ((e.1 255 0 (by decide) (by decide)).2.2.2 255 (by decide +kernel) (by decide) (by decide +kernel) (Or.inl rfl))
  · exact runs ((e.2.1 0 3 3 3 (by decide)).1 (by decide +kernel))
  · exact runs ((m.2.1 1 1 0x30 2 (by decide)).2.1 (by decide +kernel) (by decide +kernel))
  · exact runs ((m.2.1 15 6 0x30 2 (by decide)).2.2 (by decide +kernel) (by decide +kernel))
  · exact runs ((f.2.2.1 4).1 (by decide +kernel))
  · exact runs ((f.2.2.1 3).2.1 (by decide +kernel) (by decide +kernel))
  · exact ((e.2.2.1 3).2.2 (by decide +kernel) (by decide +kernel)).imp fun _ ⟨_, q⟩ => q.1
  · exact runs ((e.2.2.2.1 5 (BitVec.ofNat 32 hTier) 0 (by decide) (by decide) (by decide +kernel) (by decide +kernel)).1 (by decide +kernel))
  · exact runs ((((h (sLoad true) 0 9).2.2.2 (by decide +kernel)).2.2.2.1 63 (BitVec.ofNat 32 hTier) 0 (by decide) (by decide) (by decide +kernel) (by decide +kernel)).2 (by decide +kernel))
  · exact runs ((((h (sLoad false) 0 9).2.2.2 (by decide +kernel)).2.2.2.1 5 (BitVec.ofNat 32 hTier) 0 (by decide) (by decide) (by decide +kernel) (by decide +kernel)).2 (by decide +kernel))
  · exact runs ((e.2.2.2.2 63 (by decide)).1 (by decide +kernel))
  · exact runs (((e.2.2.2.2 5 (by decide)).2 (by decide +kernel)).1 (by decide +kernel))
  · exact ((((h (sSlot true) 0 9).2.2.2 (by decide +kernel)).2.2.2.2 5 (by decide)).2 (by decide +kernel)).2 (by decide +kernel) |>.imp fun _ ⟨_, q⟩ => q.1

/-! ## Lock-step and repair -/

/-- Lock-step in a state, with a digest of context 3 held; the links to the partner are up. -/
def ls0 : LsSt := ⟨[⟨3, 4, 77, 1, [(0, 1, 2, 5)]⟩], [], [], false, [], 1⟩
def sLs (state : Nat) (accept : Bool) : State :=
  st (withRegs { ready0 with ls := { ls0 with accept := accept }, ctxs := [(3, { Ctx.init with state := .loaded, ordinal := 2 })] }
    [(pTim, Reg.TIM_LS_STATUS, state), (pTim, Reg.TIM_LS_CTL, 0x10001), (pBol 30, Reg.BOL_PORT_STATUS, 3), (pBol 31, Reg.BOL_PORT_STATUS, 3)])

theorem witness_LockstepArmsComparesAndEnds (h : Obligations.LockstepArmsComparesAndEnds) :
    Runs (.lockstepArm (fwReq 4) 0x10001 true false false fuses0.nCells) (sLs 2 false)
      ∧ Runs (.lockstepArm (fwReq 4) 0x10001 true false false 8) (sLs 0 false)
      ∧ Runs (.lockstepArm (fwReq 4) 0x10001 true false false fuses0.nCells) (sLs 0 false) ∧ Runs (.lockstepDisarm (fwReq 4) 0x10001) (sLs 2 false)
      ∧ Runs (.lockstepDisarm (fwReq 4) 0x10001) (sLs 0 false) ∧ Runs .lockstepArmTimeout (sLs 1 false) ∧ Runs .lockstepArmTimeout (sLs 1 true)
      ∧ Runs (.digestMessage 3 5 66 1 [] 2) (sLs 2 false) ∧ Runs (.digestMessage 3 4 77 1 [] 2) (sLs 2 false)
      ∧ Runs (.digestMessage 3 4 78 1 [(0, 1, 2, 6)] 3) (sLs 2 false) ∧ Runs .digestTimeout (sLs 2 false) ∧ Runs .digestTimeout (sLs 1 false) := by
  have a (n : Nat) := h (sLs n false)
  have o (n : Nat) (c : Nat) (q : accessCode (sLs n false).dev Propolis.reset (fwReq 4) pTim Reg.TIM_LS_CTL false true = 0) :=
    (a n).1 (fwReq 4) 0x10001 true false false c q
  refine ⟨?_, ?_, ?_, ?_, ?_, ?_, ?_, ?_, ?_, ?_, ?_, ?_⟩
  · exact runs ((o 2 fuses0.nCells (by decide +kernel)).2.2.1 (by decide +kernel) (by decide +kernel))
  · exact runs ((o 0 8 (by decide +kernel)).1 (by decide +kernel))
  · exact runs ((o 0 fuses0.nCells (by decide +kernel)).2.1 (by decide +kernel) (by decide +kernel))
  · exact runs ((o 2 8 (by decide +kernel)).2.2.2.1 (by decide +kernel))
  · exact runs ((o 0 8 (by decide +kernel)).2.2.2.2 (by decide +kernel))
  · exact runs ((a 1).2.1 (by decide +kernel) (by decide +kernel))
  · exact runsTo ((h (sLs 1 true)).2.2.1 (by decide +kernel) (by decide +kernel))
  · exact runs (((a 2).2.2.2.1 3 5 66 1 [] 2 (by decide +kernel) (by decide +kernel)).1 (by decide +kernel) (by decide +kernel))
  · exact runs (((a 2).2.2.2.1 3 4 77 1 [] 2 (by decide +kernel) (by decide +kernel)).2.1 ⟨3, 4, 77, 1, [(0, 1, 2, 5)]⟩ (by decide +kernel)
      (by decide +kernel))
  · exact runs (((a 2).2.2.2.1 3 4 78 1 [(0, 1, 2, 6)] 3 (by decide +kernel) (by decide +kernel)).2.2 ⟨3, 4, 77, 1, [(0, 1, 2, 5)]⟩
      (by decide +kernel) (by decide +kernel))
  · exact runs ((a 2).2.2.2.2.1 (by decide +kernel))
  · exact runsTo ((a 1).2.2.2.2.2 (by decide +kernel))

/-- Nothing runs; physical cell 66 is soft-disabled or not; the flash journal has `n` free segments. -/
def devIdle (soft : Bool) (n : Nat) : Dev :=
  let d := withRegs { ready0 with ctxs := [], cells := [] } [(pBup, Reg.BUP_JOURNAL, n)]
  { d with bup := { d.bup with journal := { d.bup.journal with soft := if soft then [pPhysCell 66] else [] } } }
/-- Port 0 has a device, and a buffer there or not. -/
def devCxl (used : Bool) : Dev :=
  let d := devIdle false 0
  withRegs { d with vat := { d.vat with
    regions := d.vat.regions ++ [(8 * 64, ⟨0x10000000000, 16, 1, [], 16⟩)]
    bufs := if used then [(8 * 2 ^ 20, ⟨.held, 1, 0, 3, false, false⟩)] else [] } } [(pCxl 0, Reg.CXL_STATUS, 1), (pCxl 0, Reg.CXL_CAP, 0x10001)]
/-- A device of 18 GiB in port 0, whose Tier C reads are fast enough. -/
def cxl0 : CxlDevice := ⟨0, 18 * 2 ^ 30, 0, 900, 9000, false, 16, 64⟩
/-- Every port has 96 free buffers of 256 MiB. -/
def devBig : Dev :=
  let d := devIdle false 0
  { d with vat := { d.vat with regions := (List.range 4).map fun p => (11 * 64 + p, ⟨0x10000000000 + p * 0x8000000000, 96, 0, [], 96⟩) } }
theorem takeBig : ∃ ex v, takeExtents devBig.vat = some (ex, v) := by
  have q : (takeExtents devBig.vat).isSome = true := by decide +kernel
  cases e : takeExtents devBig.vat with
  | none => rw [e] at q; cases q
  | some x => exact ⟨x.1, x.2, rfl⟩
def fw4 : Requester := fwReq 4
def unit0 (n : Nat) : BitVec 13 := BitVec.ofNat 13 n

theorem witness_RepairsAreCarriedOut (h : Obligations.RepairsAreCarriedOut) :
    Runs (.spareCell host 7 (unit0 (pCell 1)) []) sReady ∧ Runs (.spareCell fw4 7 (unit0 (pCell 1)) []) (sDom 3)
      ∧ Runs (.spareCell fw4 7 (unit0 (pCell 9)) [64]) (st (devIdle false 0))
      ∧ Runs (.spareCell fw4 7 (unit0 (pCell 9)) ((List.range 8).map (64 + ·))) (st (devIdle false 0))
      ∧ Runs (.spareComb fw4 7 (unit0 (pComb 0)) []) (sDom 3) ∧ Runs (.spareComb fw4 7 (unit0 (pComb 1)) []) (st (devIdle false 0))
      ∧ Runs (.spareComb fw4 7 (unit0 (pComb 1)) []) (st (devIdle true 0)) ∧ Runs (.cxlDetach fw4 7 (unit0 (pCxl 0))) (st (devCxl true))
      ∧ Runs (.cxlDetach fw4 7 (unit0 (pCxl 0))) (st (devCxl false))
      ∧ Runs (.cxlAttach fw4 7 (unit0 (pCxl 0)) true (16, 64) (18 * 2 ^ 30, 900) (0, 9000) false) (st (devIdle false 0))
      ∧ Runs (.cxlAttach fw4 7 (unit0 (pCxl 0)) false (16, 64) (18 * 2 ^ 30, 900) (0, 9000) false) (st (devIdle false 0))
      ∧ Runs (.retireStack fw4 7 (unit0 (pMem 1))) (st (devIdle false 0)) ∧ Runs (.retireStack fw4 7 (unit0 (pMem 1))) (st devBig) ∧ Runs (.clearSoft host 7 (unit0 (pPhysCell 66))) (stT (devIdle true 0))
      ∧ Runs (.clearSoft host 7 (unit0 (pPhysCell 66))) (st (devIdle true 0)) ∧ Runs .journalCompaction (st (devIdle false 8))
      ∧ Runs .journalCompaction (st (devIdle false 7)) := by
  have r (u : Nat) := h (sDom 3) fw4 7 (unit0 u) (by decide +kernel)
  have i (soft : Bool) (n u : Nat) (q : accessCode (st (devIdle soft n)).dev Propolis.reset fw4 pBup Reg.BUP_REPAIR_CMD false true = 0) :=
    h (st (devIdle soft n)) fw4 7 (unit0 u) q
  refine ⟨?_, ?_, ?_, ?_, ?_, ?_, ?_, ?_, ?_, ?_, ?_, ?_, ?_, ?_, ?_, ?_, ?_⟩
  · exact runs (((h sReady host 7 (unit0 (pCell 1)) (by decide +kernel)).1 []).1 (by decide +kernel))
  · exact runs ((((r (pCell 1)).1 []).2.2.1 (by decide +kernel) (by decide +kernel)).1 0 (by decide +kernel))
  · exact runs (((((i false 0 (pCell 9) (by decide +kernel)).1 [64]).2.2.1 (by decide +kernel) (by decide +kernel)).2 (by decide +kernel)).1 [64] 65
      [66, 67, 68, 69, 70, 71] (by decide +kernel) (by decide +kernel) (by decide +kernel))
  · exact runs (((((i false 0 (pCell 9) (by decide +kernel)).1 ((List.range 8).map (64 + ·))).2.2.1 (by decide +kernel) (by decide +kernel)).2
      (by decide +kernel)).2 (by decide +kernel))
  · exact runs ((((r (pComb 0)).1 []).2.2.2 (by decide +kernel) (by decide +kernel)).1 0 (by decide +kernel))
  · exact runs (((((i false 0 (pComb 1) (by decide +kernel)).1 []).2.2.2 (by decide +kernel) (by decide +kernel)).2 (by decide +kernel)).1
      (by decide +kernel) (by decide +kernel) (by decide +kernel))
  · exact runs (((((i true 0 (pComb 1) (by decide +kernel)).1 []).2.2.2 (by decide +kernel) (by decide +kernel)).2 (by decide +kernel)).2
      (by decide +kernel))
  · exact runs (((h (st (devCxl true)) fw4 7 (unit0 (pCxl 0)) (by decide +kernel)).2.1.2.2 (by decide +kernel) (by decide +kernel)).1 (by decide +kernel))
  · exact runs (((h (st (devCxl false)) fw4 7 (unit0 (pCxl 0)) (by decide +kernel)).2.1.2.2 (by decide +kernel) (by decide +kernel)).2.1 (by decide +kernel))
  · exact runs (((i false 0 (pCxl 0) (by decide +kernel)).2.1.2.2 (by decide +kernel) (by decide +kernel)).2.2 (by decide +kernel) (by decide +kernel)
      cxl0).1
  · exact runs (((i false 0 (pCxl 0) (by decide +kernel)).2.1.2.2 (by decide +kernel) (by decide +kernel)).2.2 (by decide +kernel) (by decide +kernel)
      cxl0).2
  · exact runs (((i false 0 (pMem 1) (by decide +kernel)).2.2.1.2 (by decide +kernel) (by decide +kernel) (by decide +kernel)).2 (by decide +kernel))
  · exact takeBig.elim fun ex ⟨v, q⟩ => runs (((h (st devBig) fw4 7 (unit0 (pMem 1)) (by decide +kernel)).2.2.1.2 (by decide +kernel)
      (by decide +kernel) (by decide +kernel)).1 ex v q)
  · exact runs (((h (stT (devIdle true 0)) host 7 (unit0 (pPhysCell 66)) (by decide +kernel)).2.2.2.1 (by decide +kernel)).2 (by decide +kernel)
      (by decide +kernel))
  · exact runs ((h (st (devIdle true 0)) host 7 (unit0 (pPhysCell 66)) (by decide +kernel)).2.2.2.2.1 (by decide +kernel))
  · exact runsTo ((i false 8 (pCell 1) (by decide +kernel)).2.2.2.2.2.1 (by decide +kernel))
  · exact runs ((i false 7 (pCell 1) (by decide +kernel)).2.2.2.2.2.2 (by decide +kernel))

/-! ## Unit commands, bring-up, broadcast -/

/-- A command of cell 9 runs. -/
def run9 (op : Nat) : UnitRun := ⟨op, 9, none, 2, [pCell 9], [], []⟩
def sUnitRun (op : Nat) : State :=
  st (withRegs { ready0 with ctxs := [], cells := [(9, { CellSt.init with killed := true })], runs := [(pCell 9, run9 op)], mem := [(cellAddr 9 5, 7)] }
    [(pCell 9, Reg.UNIT_STATE, 0x10B)])
/-- Its domain has gone off. -/
def sUnitGone : State := st (withRegs (sUnitRun 4).dev [(pPwr, Reg.PWR_DOM_ON, 2 ^ 64 - 3)])
def sUnits : State := st { ready0 with ctxs := [], cells := [] }

theorem witness_UnitCommandsAct (h : Obligations.UnitCommandsAct) :
    Runs (.unitNop (unit0 8000) 9) sReady ∧ Runs (.powerOff (unit0 (pCell 9)) 9 3) sUnits ∧ Runs (.unitReset (unit0 (pCell 1)) 9 3) (sDom 3)
      ∧ Runs (.quiesce (unit0 (pCell 9)) 9 3) sUnits ∧ Runs (.selfTest (unit0 (pCell 9)) 9 3) sUnits ∧ Runs (.powerOff (unit0 (pCxl 1)) 9 3) sUnits
      ∧ Runs (.unitNop (unit0 (pComb 1)) 9) sUnits ∧ Runs (.unitCommandComplete (unit0 (pCell 9)) []) (sUnitRun 1)
      ∧ Runs (.unitCommandComplete (unit0 (pCell 9)) [unit0 (pCell 9)]) (sUnitRun 4) ∧ Runs (.unitCommandComplete (unit0 (pCell 9)) []) sUnitGone
      ∧ unitOn (sUnitRun 4).dev (pCell 9) = true ∧ unitOn sUnitGone.dev (pCell 9) = false ∧ Runs (.memberEventPropagate (unit0 8000)) sReady
      ∧ Runs (.memberEventPropagate (unit0 pDev)) sReady := by
  have c := (h sUnits (unit0 (pCell 9)) 9 3).2.1 (by decide +kernel) (by decide +kernel) (by decide +kernel)
  have l := (h (sDom 3) (unit0 (pCell 1)) 9 3).2.1 (by decide +kernel) (by decide +kernel) (by decide +kernel)
  have w := (h sUnits (unit0 (pCxl 1)) 9 3).2.1 (by decide +kernel) (by decide +kernel) (by decide +kernel)
  have r (op : Nat) := (h (sUnitRun op) (unit0 (pCell 9)) 9 3).2.2.2.1
  refine ⟨?_, ?_, ?_, ?_, ?_, ?_, ?_, ?_, ?_, ?_, by decide +kernel, by decide +kernel, ?_, ?_⟩
  · exact runs ((h sReady (unit0 8000) 9 3).1 (by decide +kernel) 0 (by decide))
  · exact runs (c.1 6 4 (by decide) (by decide +kernel))
  · exact runs (l.2.1 1 0 (by decide) (by decide +kernel) (by decide +kernel) (by decide +kernel))
  · exact runs (c.2.2 2 (by decide) (by decide +kernel) (by decide +kernel))
  · exact runs (c.2.2 4 (by decide) (by decide +kernel) (by decide +kernel))
  · exact runs (w.2.2 6 (by decide) (by decide +kernel) (by decide +kernel))
  · exact runs ((h sUnits (unit0 (pComb 1)) 9 3).2.2.1 (by decide +kernel) (by decide +kernel))
  · exact runs (r 1 [] (run9 1) (by decide +kernel) (by decide +kernel) (by decide +kernel) (by decide) (by decide) (by decide) (by decide)
      (by decide +kernel))
  · exact runs (r 4 [unit0 (pCell 9)] (run9 4) (by decide +kernel) (by decide +kernel) (by decide +kernel) (by decide) (by decide) (by decide) (by decide)
      (by decide +kernel))
  · exact runs ((h sUnitGone (unit0 (pCell 9)) 9 3).2.2.2.1 [] (run9 4) (by decide +kernel) (by decide +kernel) (by decide +kernel) (by decide)
      (by decide) (by decide) (by decide) (by decide +kernel))
  · exact runsTo ((h sReady (unit0 8000) 9 3).2.2.2.2.1 (by decide +kernel))
  · exact runs ((h sReady (unit0 pDev) 9 3).2.2.2.2.2 (by decide +kernel))

/-- A device without power, and one whose rails are on up to a group. -/
def sOff : State := st { Dev.blank fuses0 Journal.empty with mem := [(5, 7), (0x20000000000, 5), (0x50000000000, 9)] }
def sRails (en pg : BitVec 6) : State :=
  st { Dev.blank fuses0 Journal.empty with powered := true, pins := { Pins.off with resetReleased := true, railEn := en, railPg := pg } }
def facts0 (fuses : Bool) : BringFacts := ⟨fuses, [], [true, true], [], [], [], [], [], [], [], [], [], [], 0x21, true, [], 0, [], [⟨0, 2 ^ 35, 0, 900, 9000, false, 16, 64⟩]⟩

theorem witness_DeviceStartsAndStops (h : Obligations.DeviceStartsAndStops) :
    Runs .powerOnResetRelease sReady ∧ Runs .powerOnResetRelease sOff ∧ Runs (.railPg 0 true (facts0 true)) (sRails 1 0)
      ∧ Runs (.railPg 5 false (facts0 true)) (sRails 63 31) ∧ Runs (.bringupStepTimeout 2 false) sReady
      ∧ Runs (.bringupStepTimeout 1 true) (sRails 1 0) ∧ Runs (.bringupStepTimeout 8 true) (sRails 63 31)
      ∧ Runs (.deviceReset (facts0 true)) (sRails 63 31) ∧ Runs (.deviceReset (facts0 true)) (sRails 63 63) ∧ Runs .powerLoss sReady := by
  refine ⟨?_, ?_, ?_, ?_, ?_, ?_, ?_, ?_, ?_, ?_⟩
  · exact runsTo ((h sReady).1 (by decide +kernel))
  · exact runs ((h sOff).2.1 (by decide +kernel))
  · exact runs ((h (sRails 1 0)).2.2.1 0 true (facts0 true) (by decide +kernel) (by decide +kernel) (by decide +kernel) (by decide +kernel))
  · exact runs ((h (sRails 63 31)).2.2.1 5 false (facts0 true) (by decide +kernel) (by decide +kernel) (by decide +kernel) (by decide +kernel))
  · exact runsTo (((h sReady).2.2.2.1 2 false).1 (by decide +kernel))
  · exact runs (((h (sRails 1 0)).2.2.2.1 1 true).2.1 (by decide +kernel) (by decide) (by decide) (by decide +kernel))
  · exact runs (((h (sRails 63 31)).2.2.2.1 8 true).2.2 (by decide +kernel) (by decide +kernel))
  · exact runsTo (((h (sRails 63 31)).2.2.2.2.1 (facts0 true)).1 (by decide +kernel))
  · exact runs (((h (sRails 63 63)).2.2.2.2.1 (facts0 true)).2 (by decide +kernel) (by decide +kernel))
  · exact runs (h sReady).2.2.2.2.2

/-- What a start finds good and what stops it, as the statement has it. -/
theorem witness_start_facts : (∃ st ∈ stacksOf fuses0, failsNow false (facts0 true).stackFails st = false) ∧ failsNow false (facts0 true).hxvFails 0 = false
    ∧ (facts0 true).complexOk.getD 0 true = true ∧ (facts0 false).fuseReadOk = false := by decide +kernel

/-- This node is node 0, between parent 5 and children 7 and 8, with node 6 as its alternate parent. -/
def bnode (n p a : Nat) (root noAlt : Bool) : BcastNode := ⟨n, p, a, root, noAlt, false⟩
def desc0 : BcastDesc :=
  ⟨0x54534342#32, 9, 1, 3, 100, 3, 1, [bnode 5 5 0 true true, bnode 0 5 6 false false, bnode 6 5 5 false true, bnode 7 0 5 false false, bnode 8 0 5 false true]⟩
/-- A descriptor with two roots. -/
def descBad : BcastDesc := { desc0 with nodes := [bnode 0 0 0 true true, bnode 5 5 0 true true] }
def chunk0_ (n : Nat) : List Byte := List.replicate chunkBytes (BitVec.ofNat 8 n)
def manifest0 : Manifest := ⟨0x53464D49, 1, 0xFF, 0, 0, 0, 2, 100, [BitVec.ofNat 256 (leNat (sha256 (chunk0_ 1))), 0], []⟩
def bcast0 (held : List (Nat × List Byte)) (complete waiting attached timer : Bool) : Bcast :=
  { desc := desc0, manifest := some manifest0, held := held, source := 5, asked := [], fails := [], next := 0, complete := complete
    attached := attached, pulling := false, waiting := waiting, done := [8], timer := timer }
def sBcast (b : Bcast) (port : Bool) : State :=
  st { withRegs ready0 [(pHxv 0, Reg.HXV_STATUS, if port then 3 else 0)] with bup := { ready0.bup with bcast := some b } }

theorem chunkOk_of_digest (b : Bcast) (m : Manifest) (data : List Byte) (hb : b.manifest = some m) (hd : b.desc.manifestChunks = 1)
    (hm : m.digests = [BitVec.ofNat 256 (leNat (sha256 data)), 0]) (hl : data.length = chunkBytes) : chunkOk b 1 data = true := by
  simp [chunkOk, hb, hd, hm, hl]

theorem witness_ImagesAreBroadcast (h : Obligations.ImagesAreBroadcast) :
    Runs (.broadcastDesc desc0 5) sReady ∧ Runs (.broadcastDesc descBad 5) sReady ∧ Runs .chunkTimer sReady
      ∧ Runs (.broadcastData 9 0 [] 5) (sBcast (bcast0 [(0, [1])] false false false true) false)
      ∧ Runs (.broadcastData 9 1 (chunk0_ 1) 5) (sBcast (bcast0 [(0, [1])] false false false true) false)
      ∧ Runs (.broadcastData 9 2 [] 5) (sBcast (bcast0 [(0, [1])] false false false true) false)
      ∧ Runs (.broadcastRequest 9 7 [(0, 3)]) (sBcast (bcast0 [(0, [1])] false false false true) false)
      ∧ Runs (.bcastHold 9 0) (sBcast (bcast0 [(0, [1])] false false false true) false)
      ∧ Runs (.broadcastDone 9 (some 7)) (sBcast (bcast0 [(0, [1])] false false false true) false)
      ∧ Runs (.broadcastDone 9 none) (sBcast (bcast0 [(0, [1]), (1, [2]), (2, [3])] false false false true) false)
      ∧ Runs .chunkTimer (sBcast (bcast0 [(0, [1])] false false false true) false)
      ∧ Runs .holdTimeout (sBcast (bcast0 [(0, [1])] false true false false) false)
      ∧ Runs .holdTimeout (sBcast (bcast0 [(0, [1])] false true true false) false)
      ∧ Runs .holdTimeout (sBcast (bcast0 [(0, [1])] false true true false) true)
      ∧ Runs .pullRetryTimer (sBcast (bcast0 [(0, [1])] false false false false) true)
      ∧ Runs .pullRetryTimer (sBcast (bcast0 [(0, [1])] false false false false) false)
      ∧ Runs .chunkRetentionTimeout (sBcast (bcast0 [] false false false false) false)
      ∧ Runs .chunkRetentionTimeout (sBcast (bcast0 [] true false false false) false) := by
  have q (held : List (Nat × List Byte)) (complete waiting attached timer port : Bool) :=
    (h (sBcast (bcast0 held complete waiting attached timer) port)).2.2 (bcast0 held complete waiting attached timer) rfl
  have a := q [(0, [1])] false false false true false
  have e : nodeEntry desc0 0 = some (bnode 0 5 6 false false) := by decide +kernel
  refine ⟨?_, ?_, ?_, ?_, ?_, ?_, ?_, ?_, ?_, ?_, ?_, ?_, ?_, ?_, ?_, ?_, ?_, ?_⟩
  · exact runs (((h sReady).1 desc0 5 (bnode 0 5 6 false false) (by decide +kernel) (by intro b e; cases e) (by decide)).1 (by decide +kernel))
  · exact runs (((h sReady).1 descBad 5 (bnode 0 0 0 true true) (by decide +kernel) (by intro b e; cases e) (by decide)).2 (by decide) (by decide +kernel))
  · exact runsTo ((h sReady).2.1 (by decide +kernel)).1
  · exact runsTo ((a.1 0 [] 5).1 (by decide +kernel))
  · exact (((a.1 1 (chunk0_ 1) 5).2 (by decide +kernel) (by decide +kernel)).1
      (chunkOk_of_digest _ manifest0 _ rfl rfl rfl List.length_replicate) (by decide +kernel)).imp fun _ ⟨_, r⟩ => r.1
  · exact (((a.1 2 [] 5).2 (by decide +kernel) (by decide +kernel)).2.2 (by decide +kernel) (by decide +kernel)).imp fun _ ⟨_, r⟩ => r.1
  · exact (a.2.1 7 [(0, 3)]).1.imp fun _ ⟨_, r⟩ => r.1
  · exact runs (a.2.2.1 0)
  · exact runs (a.2.2.2.1 7)
  · exact runs ((q [(0, [1]), (1, [2]), (2, [3])] false false false true false).2.2.2.2.1 manifest0 _ (by decide +kernel) (by decide +kernel) rfl e)
  · exact runs (a.2.2.2.2.2.1 (by decide +kernel) (by decide +kernel))
  · exact runs (((q [(0, [1])] false true false false false).2.2.2.2.2.2.1 _ e (by decide +kernel)).1 (by decide) (by decide +kernel))
  · exact runs ((((q [(0, [1])] false true true false false).2.2.2.2.2.2.1 _ e (by decide +kernel)).2 (by decide +kernel)).1 (by decide +kernel))
  · exact runs ((((q [(0, [1])] false true true false true).2.2.2.2.2.2.1 _ e (by decide +kernel)).2 (by decide +kernel)).2 (by decide +kernel))
  · exact runs (((q [(0, [1])] false false false false true).2.2.2.2.2.2.2.1 (by decide +kernel) (by decide +kernel) (by decide +kernel)
      (by decide +kernel)).1 (by decide +kernel))
  · exact runs (((q [(0, [1])] false false false false false).2.2.2.2.2.2.2.1 (by decide +kernel) (by decide +kernel) (by decide +kernel)
      (by decide +kernel)).2 _ (by decide +kernel) e)
  · exact runsTo ((q [] false false false false false).2.2.2.2.2.2.2.2.1 (by decide +kernel))
  · exact runs ((q [] true false false false false).2.2.2.2.2.2.2.2.2 (by decide +kernel))

end Sys2Proof.Tests
end

