-- ==== Sys2Proof/Tests/WitnessD.lean ====
section
/-! SUPPORT. Witnesses of the statements about the engines, the brood block and the whole block, built like those of WitnessA. -/

namespace Sys2Proof.Tests
open Sys2Proof Sys2Proof.Machine
set_option Elab.async false

/-! ## The Waggle engines -/

/-- The error of a result. -/
def errorOf {ε α : Type} : Except ε α → Option ε
  | .ok _ => none
  | .error e => some e

theorem error_of_errorOf {ε α : Type} {x : Except ε α} {e : ε} (h : errorOf x = some e) : x = .error e := by
  cases x with
  | ok b => cases h
  | error b => cases h; rfl

/-- A job of engine 0 over two columns of 128 tokens; the engine's image, and its blocks. -/
def job0 : WglJob := ⟨7, false, true, false, 0, 5, 11, 0, 2, 4, 128, 128, 1, 0, 0, 2, 0, 0, 1, 4, 0, 12⟩
def imgWgl (l : List (Nat × WglJob)) : Image :=
  { img0 with wglEngines := [0], entries := l.zipIdx.map fun e => ⟨e.2, 0, .wgl e.1.1 e.1.2⟩, bufList := [⟨0, 0, 1, 0, 0, 0xFFFFFF⟩] }
def block (kind fmt job frame col base : Nat) (body : List Byte) : List Byte :=
  leBytes 1 kind ++ leBytes 1 fmt ++ leBytes 2 job ++ leBytes 2 frame ++ leBytes 2 col ++ leBytes 4 base ++ List.replicate 20 0 ++ body
def scores (k : Nat) : List Byte :=
  List.replicate 16 0xFF ++ List.replicate 16 0 ++ (List.range 128).flatMap fun n => leBytes 4 (0x3F800000 + (n * 37 + k) % 128 * 0x1000)
def blk (kind col base : Nat) (body : List Byte) : WglBlk := ⟨0, kind, col, base, block kind 7 11 0 col base body, 5, 1⟩
def eng0 (blocks : List WglBlk) : WglEng := ⟨blocks, [], none, [], 0, false, []⟩
def sWgl (l : List (Nat × WglJob)) (e : WglEng) (handle : Nat) : State :=
  st { modPart (run bufs0 (imgWgl l)) 0 (fun x => { x with listGot := [(0, (handle, 0))] }) with wgl := [(0, e)] }
def both : WglEng := eng0 [blk 0 0 0 (scores 0), blk 0 1 0 (scores 1)]
def runW : WglRun := ⟨0, 1, job0, 300, 0, [(0x1000000, (List.range 300).map (BitVec.ofNat 8))], [], 8, 2, 1, 3⟩

/-- Its job has started: the block it holds for column 0 cannot come again. -/
def sStarted : State := sWgl [(1, job0)] { both with started := [0] } hTier

theorem witness_WaggleBlocksArriveAndJobsComplete (h : Obligations.WaggleBlocksArriveAndJobsComplete) :
    Runs (.wglBlockIngest 1 5 (block 0 7 11 0 0 0 (scores 0)) 20) sReady
      ∧ Runs (.wglBlockIngest 0 5 (block 0 7 11 1 0 0 (scores 0)) 20) (sWgl [(1, job0)] (eng0 []) hTier)
      ∧ Runs (.wglBlockIngest 0 5 (block 0 7 12 0 0 0 (scores 0)) 20) (sWgl [(1, job0)] (eng0 []) hTier)
      ∧ Runs (.wglBlockIngest 0 5 (block 1 0 11 0 0 0 (scores 0)) 20) (sWgl [(1, job0)] (eng0 []) hTier)
      ∧ Runs (.wglBlockIngest 0 5 (block 0 7 11 0 0 0 (scores 0)) 20) (sWgl [(1, job0)] (eng0 []) hTier)
      ∧ Runs (.wglBlockIngest 0 5 (block 0 7 11 0 7 0 (scores 0)) 20) (sWgl [(1, job0)] (eng0 []) hTier)
      ∧ Runs (.wglBlockIngest 0 5 (block 0 7 11 0 0 0 (scores 3)) 20) (sWgl [(1, job0)] both hTier)
      ∧ Runs (.wglBlockIngest 0 5 (block 0 7 11 0 0 0 (scores 3)) 20) sStarted
      ∧ Runs (.wglJobComplete 0 299) (sWgl [(1, job0)] { both with run := some runW, started := [0] } hTier)
      ∧ Runs (.wglJobComplete 0 300) (sWgl [(1, job0)] { both with run := some runW, started := [0] } hTier) := by
  have q (e : WglEng) (raw : List Byte) := h.1 (sWgl [(1, job0)] e hTier) 0 5 raw 20 0 0 (imgWgl [(1, job0)]) 0
  have f (raw : List Byte) := (q (eng0 []) raw (by decide +kernel)).2.2.2 (by decide +kernel)
  have a := (q both (block 0 7 11 0 0 0 (scores 3)) (by decide +kernel)).2.2.2 (by decide +kernel) (by decide +kernel) (by decide +kernel)
  have g := (h.1 sStarted 0 5 (block 0 7 11 0 0 0 (scores 3)) 20 0 0 (imgWgl [(1, job0)]) 0 (by decide +kernel)).2.2.2 (by decide +kernel)
    (by decide +kernel) (by decide +kernel)
  have c (cycle : Nat) := h.2 (sWgl [(1, job0)] { both with run := some runW, started := [0] } hTier) 0 cycle 0 0 (imgWgl [(1, job0)]) 0 runW
    (by decide +kernel) (by decide +kernel)
  refine ⟨?_, ?_, ?_, ?_, ?_, ?_, ?_, ?_, ?_, ?_⟩
  · exact runs ((h.1 sReady 1 5 _ 20 0 0 (imgWgl []) 0 (by decide +kernel)).1 (by decide +kernel))
  · exact runs ((q (eng0 []) _ (by decide +kernel)).2.1 (by decide +kernel) (by decide +kernel))
  · exact runs ((f _ (by decide +kernel) (by decide +kernel)).1 (by decide +kernel) (by decide +kernel))
  · exact runs ((f _ (by decide +kernel) (by decide +kernel)).2.2.1 (by decide +kernel) (by decide +kernel))
  · exact runs (((f _ (by decide +kernel) (by decide +kernel)).2.2.2 0 1 job0 (by decide +kernel)).2.2 (by decide +kernel) (by decide +kernel))
  · exact runs (((f _ (by decide +kernel) (by decide +kernel)).2.2.2 0 1 job0 (by decide +kernel)).2.1 (by decide +kernel) (by decide +kernel))
  · exact runs (((a.2.2.2 0 1 job0 (by decide +kernel)).1 (blk 0 0 0 (scores 0)) (by decide +kernel)).1 (by decide +kernel))
  · exact runs ((g.2.1 (blk 0 0 0 (scores 0)) 1 job0 (by decide +kernel) (by decide +kernel)).1 (by decide +kernel))
  · exact runsTo ((c 299).1 (by decide +kernel))
  · exact runs ((c 300).2 0x1000000 _ rfl (by decide +kernel) (by decide +kernel) rfl
      ⟨by decide +kernel, by decide +kernel, by decide +kernel, by decide +kernel⟩)

/-- The codes with which a block is kept, repeated with other bytes, and dropped for its column. -/
theorem witness_block_codes : blkCode 1 job0 (block 0 7 11 0 0 0 (scores 0)) false = 0 ∧ blkCode 1 job0 (block 0 7 11 0 0 0 (scores 3)) true = 5
    ∧ blkCode 1 job0 (block 0 7 11 0 7 0 (scores 0)) false ≠ 0 := by decide +kernel

def jobSel : WglJob := { job0 with capacity := 100 }
def jobSec : WglJob := { jobSel with inBlocks := 1, homes := 1 }
def bitmap (bits n : Nat) : List Byte := (List.range 512).map fun k => if k < n then BitVec.ofNat 8 bits else 0
def engSec : WglEng := { both with blocks := both.blocks ++ [⟨1, 1, 0, 0, block 1 0 11 0 0 0 (bitmap 0xA5 16), 5, 1⟩], started := [0], picks := [(0, [])] }
def jobNeu : WglJob := { job0 with eCount := 1, capacity := 9, inBlocks := 1, n := 256, tSrc := 256 }
def engNeu : WglEng := eng0 [blk 0 0 0 (scores 0), blk 0 0 128 (scores 9)]
def jobTal : WglJob := { job0 with eCount := 1, capacity := 0, inBlocks := 2, scoreFmt := 0 }
def engTal : WglEng := eng0 [blk 1 0 0 (bitmap 0xA5 16), blk 2 0 0 (bitmap 0xF0 12)]
def jobFar : WglJob := { job0 with outOffset := 4064 }
/-- A handle of an earlier generation. -/
def hOld : Nat := mkHandle 3 0 2

theorem witness_WaggleJobsSelect (h : Obligations.WaggleJobsSelect) :
    Runs (.select 0 job0 5) (sWgl [(1, job0)] both hTier) ∧ Runs (.second 0 jobSec 5) (sWgl [(1, jobSel), (2, jobSec)] engSec hTier)
      ∧ Runs (.topk 0 job0 5) (sWgl [(3, job0)] both hTier) ∧ Runs (.neuron 0 jobNeu 5) (sWgl [(4, jobNeu)] engNeu hTier)
      ∧ Runs (.tally 0 jobTal 5) (sWgl [(5, jobTal)] engTal hTier) ∧ Runs (.select 0 job0 5) (sWgl [(1, job0)] both hOld)
      ∧ Runs (.select 0 jobFar 5) (sWgl [(1, jobFar)] both hTier) := by
  refine ⟨?_, ?_, ?_, ?_, ?_, ?_, ?_⟩
  · exact ((h (sWgl [(1, job0)] both hTier) 0 job0 5 0 0 0 hTier 0x1000000 (imgWgl [(1, job0)])).1
      ⟨⟨0, by decide +kernel⟩, by decide +kernel, by decide +kernel, by decide +kernel, by decide +kernel, by decide +kernel, by decide +kernel,
        ⟨0, by decide +kernel, by decide +kernel⟩, by decide +kernel, by decide +kernel⟩ (ok_of_toOption (by decide +kernel))).imp fun _ ⟨_, q⟩ => q.1
  · exact ((h (sWgl [(1, jobSel), (2, jobSec)] engSec hTier) 0 jobSec 5 0 0 1 hTier 0x1000000 (imgWgl [(1, jobSel), (2, jobSec)])).2.1 0 jobSel
      ⟨⟨0, by decide +kernel⟩, by decide +kernel, by decide +kernel, by decide +kernel, by decide +kernel, by decide +kernel, by decide +kernel,
        ⟨0, by decide +kernel, by decide +kernel⟩, by decide +kernel, by decide +kernel⟩ (ok_of_toOption (by decide +kernel)) (by decide +kernel)).imp fun _ ⟨_, q⟩ => q.1
  · exact ((h (sWgl [(3, job0)] both hTier) 0 job0 5 0 0 0 hTier 0x1000000 (imgWgl [(3, job0)])).2.2.1
      ⟨⟨0, by decide +kernel⟩, by decide +kernel, by decide +kernel, by decide +kernel, by decide +kernel, by decide +kernel, by decide +kernel,
        ⟨0, by decide +kernel, by decide +kernel⟩, by decide +kernel, by decide +kernel⟩ (ok_of_toOption (by decide +kernel))).imp fun _ ⟨_, q⟩ => q.1
  · exact ((h (sWgl [(4, jobNeu)] engNeu hTier) 0 jobNeu 5 0 0 0 hTier 0x1000000 (imgWgl [(4, jobNeu)])).2.2.2.1
      ⟨⟨0, by decide +kernel⟩, by decide +kernel, by decide +kernel, by decide +kernel, by decide +kernel, by decide +kernel, by decide +kernel,
        ⟨0, by decide +kernel, by decide +kernel⟩, by decide +kernel, by decide +kernel⟩ (ok_of_toOption (by decide +kernel))).imp fun _ ⟨_, q⟩ => q.1
  · exact ((h (sWgl [(5, jobTal)] engTal hTier) 0 jobTal 5 0 0 0 hTier 0x1000000 (imgWgl [(5, jobTal)])).2.2.2.2.1
      ⟨⟨0, by decide +kernel⟩, by decide +kernel, by decide +kernel, by decide +kernel, by decide +kernel, by decide +kernel, by decide +kernel,
        ⟨0, by decide +kernel, by decide +kernel⟩, by decide +kernel, by decide +kernel⟩ (ok_of_toOption (by decide +kernel))).imp fun _ ⟨_, q⟩ => q.1
  · exact runs (((h (sWgl [(1, job0)] both hOld) 0 job0 5 0 0 0 hOld 0 (imgWgl [(1, job0)])).2.2.2.2.2 0
      ⟨⟨0, by decide +kernel⟩, by decide +kernel, by decide +kernel, by decide +kernel, by decide +kernel, by decide +kernel, by decide +kernel,
        ⟨0, by decide +kernel, by decide +kernel⟩, by decide +kernel, by decide +kernel⟩).1 4 (error_of_errorOf (by decide +kernel)))
  · exact runs (((h (sWgl [(1, jobFar)] both hTier) 0 jobFar 5 0 0 0 hTier 0 (imgWgl [(1, jobFar)])).2.2.2.2.2 0
      ⟨⟨0, by decide +kernel⟩, by decide +kernel, by decide +kernel, by decide +kernel, by decide +kernel, by decide +kernel, by decide +kernel,
        ⟨0, by decide +kernel, by decide +kernel⟩, by decide +kernel, by decide +kernel⟩).2 (error_of_errorOf (by decide +kernel)))

/-! ## The Swarm engines -/

/-- The conditions under which an entry starts on time, as a test. -/
def readyAt (d : Dev) (i p cycle : Nat) (img : Image) (sl idx : Nat) (what : SlotKind) (refs : List Nat) : Bool :=
  let e := swmOf d i
  (listsDue d (momentOf d p (cycle + 1))).isEmpty && decide (cycle ≤ cutCycle d p)
    && (match refsOf d p img sl refs, (if what.serial then serialFree e else some 0) with
      | some hs, some fr => cycle == max what.ctl.start (max hs.2 fr)
      | _, _ => false)
    && (match what.ctl.ready with
      | some (slot, tag, n) => tagReady d p slot tag n cycle
      | none => true)
    && e.stalls.all (fun q => decide (q.1 ≠ idx)) && !e.stopped && decide ((partOf d p).killNow = none) && !(partOf d p).cutTaken

theorem swmReady_of {d : Dev} {i p cycle : Nat} {img : Image} {sl idx : Nat} {what : SlotKind} {refs : List Nat}
    (q : readyAt d i p cycle img sl idx what refs = true) : swmReady d i p cycle img sl idx what refs := by
  simp only [readyAt, Bool.and_eq_true, decide_eq_true_eq, Bool.not_eq_true', List.isEmpty_iff, List.all_eq_true] at q
  obtain ⟨⟨⟨⟨⟨⟨⟨h0, h1⟩, h2⟩, h3⟩, h4⟩, h5⟩, h6⟩, h7⟩ := q
  refine ⟨h0, h1, ?_, fun slot tag n e => ?_, h4, h5, h6, h7⟩
  · cases hr : refsOf d p img sl refs with
    | none => simp [hr] at h2
    | some hs =>
      cases hf : (if what.serial then serialFree (swmOf d i) else some 0) with
      | none => simp [hr, hf] at h2
      | some fr => exact ⟨hs, fr, rfl, rfl, by simpa [hr, hf] using h2⟩
  · rw [e] at h3
    exact h3

/-- The start of entry 0 of engine 0 in partition 0, as a test. -/
def startsAt (d : Dev) (img : Image) (c : SwmCommon) (ops : SwmOps) (l : List Nat) : Bool :=
  decide (engineImage d (pSwm 0) = some (0, 0, img, 0)) && decide (freshEntry d 0 img 0 (.swm c ops) = some 0)
    && readyAt d 0 0 50 img 0 0 (.swm c ops) ((swmNeeds img c ops).map BufNeed.ref)
    && decide ((checkNeeds d 0 img 0 (swmNeeds img c ops) []).toOption = some l)

theorem swmStarts_of {d : Dev} {img : Image} {c : SwmCommon} {ops : SwmOps} {l : List Nat} (q : startsAt d img c ops l = true) :
    swmStarts d 0 0 50 c ops img 0 0 0 l := by
  simp only [startsAt, Bool.and_eq_true, decide_eq_true_eq] at q
  exact ⟨q.1.1.1, q.1.1.2, swmReady_of q.1.2, ok_of_toOption q.2⟩

/-- Four buffers of 64 KiB in a frame, and an image whose entries use them. -/
def bufAt (k : Nat) : Nat := 0x2000000 + 65536 * k
def hBuf (k : Nat) : Nat := mkHandle 4 k 1
def imgSwm (es : List SlotEnt) : Image :=
  { img0 with wglEngines := [0], swmEngines := [0], entries := es, bufList := List.replicate 4 ⟨0, 1, 1, 0, 0, 0xFFFFFF⟩, params := [⟨1, 0, 0, 5, 77⟩] }
def withMem (l : List (Nat × List Byte)) (d : Dev) : Dev :=
  { d with mem := l.flatMap fun e => ((e.2.zipIdx.filter fun b => b.1 != 0).map fun b => (e.1 + b.2, b.1)) }
def devSwm (img : Image) (m : List (Nat × List Byte)) : Dev :=
  let d := { run bufs0 img with vat := { vat0 with bufs := (List.range 4).map fun k => (4 * 2 ^ 20 + k, ⟨.frame, 1, 0, 0, false, false⟩) } }
  withMem m (modPart d 0 fun x => { x with listGot := (List.range 4).map fun k => (k, (hBuf k, 0)) })
def swCommon : SwmCommon := ⟨0, false, true, false, 0, 50, 0, 0, 1, 64, 0, 0, 0, 0, 1, 4, 0x300, ⟨0, 0⟩⟩
def imgOps (ops : SwmOps) : Image := imgSwm [⟨0, 0, .swm swCommon ops⟩]
def sSwm (ops : SwmOps) (m : List (Nat × List Byte)) : State := st (devSwm (imgOps ops) m)

/-- A routing record, a region of records of experts 5 and 6, and the view of experts 4 and 5. -/
def record (token pass expert slot score source : Nat) : List Byte :=
  leBytes 4 (token + 2 ^ 24 * pass + 2 ^ 25) ++ leBytes 2 expert ++ leBytes 2 slot ++ leBytes 4 score ++ leBytes 4 source
def region (filled : Nat) : List Byte :=
  record 10 0 5 0 111 0 ++ record 20 0 5 1 112 1 ++ record 21 1 5 2 113 1 ++ record 30 0 5 3 114 1
    ++ record 40 0 6 0 211 1 ++ record 41 0 6 1 212 2 ++ List.replicate 32 0
    ++ leBytes 2 filled ++ leBytes 2 0 ++ leBytes 2 2 ++ leBytes 2 1 ++ leBytes 2 0 ++ leBytes 2 0
    ++ leBytes 2 0 ++ leBytes 2 0 ++ leBytes 2 1 ++ leBytes 2 0 ++ leBytes 2 1 ++ leBytes 2 0
def viewOf45 : List Byte :=
  leBytes 2 2 ++ leBytes 2 1 ++ leBytes 2 4 ++ List.replicate 26 0 ++ record 513 0 4 0 0x3F800000 1 ++ record 515 0 4 1 0x3F000000 1
    ++ record 514 1 4 3 0x40000000 1 ++ List.replicate 16 0
    ++ leBytes 2 1 ++ leBytes 2 0 ++ leBytes 2 5 ++ List.replicate 26 0 ++ record 514 0 5 2 0x3F900000 1 ++ List.replicate 48 0
def ramp (n : Nat) : List Byte := (List.range n).map fun k => BitVec.ofNat 8 (k * 7 + k / 256)

def feed : ScoreFeedOps :=
  { rowBytes := 8, eFirst := 3, eCount := 1, tokenFirst := 0, tokens := 128, tSrc := 512, self := 1, jobId := 77, scoreFmt := 7, wglInstance := 1, liveOffset := 3200 }
def routing : RouteReturnOps := { eFirst := 5, eCount := 2, cap := 4, sources := 3, srcNo := 1, runMax := 4, viewEFirst := 4 }
def moving : MoveOps := { rowBytes := 64, eFirst := 4, eCount := 2, slotFirst := 1, slotCount := 3, runMax := 4, tSrc := 512, self := 1, viewEFirst := 4, cap := 4, sources := 3 }
def returning : MoveOps := { moving with eFirst := 5, slotFirst := 0, slotCount := 4 }
def sFeed : State := sSwm (.score feed) [(bufAt 0 + 64, ramp 64), (bufAt 0 + 3200, leBytes 4 100)]
def sReturnView : State := sSwm (.route routing) [(bufAt 0 + 64, region 1)]
def sDispatch : State := sSwm (.dispatch moving) [(bufAt 0 + 64, ramp 500), (bufAt 1, viewOf45)]
def sReturn : State := sSwm (.ret returning) [(bufAt 0 + 64, ramp 500), (bufAt 1, region 1)]

theorem witness_SwarmEntriesSend (h : Obligations.SwarmEntriesSend) :
    Runs (.scoreFeed 0 50 swCommon feed) sFeed ∧ Runs (.routeReturn 0 50 swCommon routing) sReturnView
      ∧ Runs (.dispatch 0 50 swCommon moving) sDispatch ∧ Runs (.returnRows 0 50 swCommon returning) sReturn := by
  refine ⟨?_, ?_, ?_, ?_⟩
  · exact ((h sFeed 0 0 50 0 0 0 swCommon (imgOps (.score feed)) [bufAt 0, bufAt 0]).1 feed (swmStarts_of (by decide +kernel)) (by unfold readsSound; decide +kernel)
      (by decide) (by decide +kernel)).imp fun _ ⟨_, _, q⟩ => q.1
  · exact ((h sReturnView 0 0 50 0 0 0 swCommon (imgOps (.route routing)) [bufAt 0]).2.1 routing (swmStarts_of (by decide +kernel)) (by unfold readsSound; decide +kernel)
      (by decide) (by decide +kernel)).imp fun _ ⟨_, _, q⟩ => q.1
  · exact ((h sDispatch 0 0 50 0 0 0 swCommon (imgOps (.dispatch moving)) [bufAt 0, bufAt 1]).2.2.1 moving (by decide +kernel) (by decide +kernel) (by decide +kernel) (by decide +kernel) (swmStarts_of (by decide +kernel))
      (by unfold readsSound; decide +kernel) (by decide) (by decide +kernel)).imp fun _ ⟨_, _, q⟩ => q.1
  · exact ((h sReturn 0 0 50 0 0 0 swCommon (imgOps (.ret returning)) [bufAt 0, bufAt 1]).2.2.2 returning (by decide) (by decide +kernel)
      (swmStarts_of (by decide +kernel)) (by unfold readsSound; decide +kernel) (by decide) (by decide +kernel)).imp fun _ ⟨_, _, q⟩ => q.1

def bits : BitmapFeedOps := { bits := 8192, tokenBase := 4096, jobId := 9, bkind := 1, wglInstance := 0, home := 5 }
def sBits : State := sSwm (.bitmap bits) [(bufAt 0 + 64, ramp 64)]

theorem witness_BitmapFeedSendsItsBlocks (h : Obligations.BitmapFeedSendsItsBlocks) : Runs (.bitmapFeed 0 50 swCommon bits) sBits :=
  (h sBits 0 0 50 0 0 0 swCommon bits (imgOps (.bitmap bits)) [bufAt 0] (swmStarts_of (by decide +kernel)) (by unfold readsSound; decide +kernel)
    (by decide) (by decide +kernel)).imp fun _ ⟨_, _, q⟩ => q.1

def landing : LandOps := { rowBytes := 600, rows := 4, expect := 0, slotFirst := 0, slotCount := 0, eFirst := 0, eCount := 0, runMax := 0, self := 0 }
def livesOf : LiveTableOps := { eCount := 2, cap := 4, sources := 3 }
def combining : CombineOps :=
  { viewRef := 2, resRef := 3, param := 0, tokenFirst := 1, tokenCount := 2, hidden := 8, viewEFirst := 4, viewECount := 2, kMax := 1, runMax := 4,
    retFmt := 6, resFmt := 7, resid := true, gateMode := 1, stoch := false, self := 1, tSrc := 512 }
def part (n : Nat) : List Byte := (List.range n).map fun k => BitVec.ofNat 8 (k + 1)
def withEng (s : State) (e : SwmEng) : State := { s with dev := { s.dev with swm := [(0, e)] } }
def sLand : State := sSwm (.land landing) []
def sEarly : State := withEng sLand ⟨[], [(0, ⟨0, none, 0, [(3, part 88)], [], none, 0⟩)], false, [], [], []⟩
def sLive (filled : Nat) : State := sSwm (.live livesOf) [(bufAt 0 + 64, region filled)]
def swCombine : SwmCommon := { swCommon with offsetA := 0, offsetB := 64 }
/-- The image's entry gives no SELF and T_SRC: they come with the command. -/
def imgCombine : Image := imgSwm [⟨0, 0, .swm swCombine (.combine { combining with self := 0, tSrc := 0 })⟩]
def sCombine : State := st (devSwm imgCombine [(bufAt 0, part 64), (bufAt 2, viewOf45)])
/-- A feed to a node that names no device. -/
def swNowhere : SwmCommon := { swCommon with peer := ⟨1024, 0⟩ }
def imgNowhere : Image := imgSwm [⟨0, 0, .swm swNowhere (.score feed)⟩]
def sNowhere : State := st (devSwm imgNowhere [])
/-- The buffers of an entry belong to an earlier generation. -/
def badBufs (s : State) : State := st (modPart s.dev 0 fun x => { x with listGot := (List.range 4).map fun k => (k, (mkHandle 4 k 2, 0)) })

theorem witness_SwarmEntriesStart (h : Obligations.SwarmEntriesStart) :
    Runs (.land 0 50 swCommon landing) sLand ∧ Runs (.land 0 50 swCommon landing) sEarly ∧ Runs (.liveTable 0 50 swCommon livesOf) (sLive 1)
      ∧ Runs (.liveTable 0 50 swCommon livesOf) (sLive 9) ∧ Runs (.combine 0 50 swCombine combining) sCombine
      ∧ Runs (.scoreFeed 0 50 swNowhere feed) sNowhere ∧ Runs (.land 0 50 swCommon landing) (badBufs sLand) := by
  have q (s : State) (img : Image) (l : List Nat) := h s 0 0 50 0 0 0 swCommon img l
  refine ⟨?_, ?_, ?_, ?_, ?_, ?_, ?_⟩
  · exact runs (((q sLand (imgOps (.land landing)) [bufAt 0]).1 landing (swmStarts_of (by decide +kernel))).1 (by decide +kernel))
  · exact runs (((q sEarly (imgOps (.land landing)) [bufAt 0]).1 landing (swmStarts_of (by decide +kernel))).2 3 (part 88) (by decide +kernel)
      (by unfold lands; decide +kernel))
  · exact (((q (sLive 1) (imgOps (.live livesOf)) [bufAt 0, bufAt 1]).2.1 livesOf (swmStarts_of (by decide +kernel))
      (by unfold readsSound; decide +kernel)).1 (by decide +kernel)).imp fun _ ⟨_, q⟩ => q.1
  · exact runs (((q (sLive 9) (imgOps (.live livesOf)) [bufAt 0, bufAt 1]).2.1 livesOf (swmStarts_of (by decide +kernel))
      (by unfold readsSound; decide +kernel)).2 ⟨0, by decide +kernel⟩)
  · exact ((h sCombine 0 0 50 0 0 0 swCombine imgCombine [bufAt 0, bufAt 1, bufAt 2, bufAt 3]).2.2.1 combining (swmStarts_of (by decide +kernel))
      (by decide +kernel) (by unfold readsSound; decide +kernel)).imp fun _ ⟨_, q⟩ => q.1
  · exact runs ((h sNowhere 0 0 50 0 0 0 swNowhere imgNowhere [bufAt 0, bufAt 0]).2.2.2.1 feed (swmStarts_of (by decide +kernel)) (by decide +kernel))
  · exact runs ((q (badBufs sLand) (imgOps (.land landing)) []).2.2.2.2 _ (.land landing) 1 4 (some (1073741826, true)) (Or.inl ⟨landing, rfl, rfl⟩) (by decide +kernel)
      (by decide +kernel) (swmReady_of (by decide +kernel)) (error_of_errorOf (by decide +kernel)))

def landRun : SwmRun := ⟨0, .swm swCommon (.land landing), 50, (0, 0), false, [], 0, 0, false⟩
def begun (parts : List (Nat × List Byte)) : SwmEng := ⟨[landRun], [(0, ⟨0, some (bufAt 0), 0, parts, [], none, 70⟩)], false, [], [], []⟩
def sBegun : State := withEng sLand (begun [(0, part 512)])
def allParts : List (Nat × List Byte) := (List.range 8).map fun k => (k, part (if k % 2 = 0 then 512 else 88))
def tableRun : SwmRun := ⟨1, .swm swCommon (.live livesOf), 80, (0, 0), false, [(bufAt 1, part 8)], 0, 0, false⟩
def sTable : State := withEng sLand { begun allParts with runs := [landRun, tableRun] }
def packet (blk n : Nat) : LandPkt := ⟨⟨5, 0⟩, 0, 0, 0x300, blk, 0, false, 70, part n⟩

/-- The same with only members' packets admitted, and with packets staged for node 5. -/
def swMembers : SwmCommon := { swCommon with delivery := 1 }
def imgMembers : Image := imgSwm [⟨0, 0, .swm swMembers (.land landing)⟩]
def sMembers : State := withEng (st (devSwm imgMembers [])) (begun [(0, part 512)])
def swStaged : SwmCommon := { swCommon with delivery := 2, peer := ⟨5, 0⟩ }
def imgStaged : Image := { imgSwm [⟨0, 0, .swm swStaged (.land landing)⟩] with commitMap := [⟨0, true, ⟨5, 0⟩, 4096⟩] }
def sStaged : State := st (devSwm imgStaged [])
def imgVote : Image := { imgSwm [] with exchGroup := 7, exch := [⟨0, 0⟩, ⟨1, 0⟩, ⟨2, 0⟩], self := 0 }
def sVote (g : GroupSt) : State := st { run bufs0 imgVote with groups := [(0, g)] }
def vote : Vote := ⟨7, 3, 1, true, true, 0⟩

theorem witness_SwarmEntriesLandAndComplete (h : Obligations.SwarmEntriesLandAndComplete) :
    Runs (.landPacketArrival 0 { packet 0 512 with frame := 3 }) sBegun ∧ Runs (.landPacketArrival 0 { packet 0 512 with tag := 3 }) sBegun
      ∧ Runs (.landPacketArrival 0 (packet 9 88)) sBegun ∧ Runs (.landPacketArrival 0 (packet 0 511)) sBegun
      ∧ Runs (.landPacketArrival 0 (packet 1 88)) sMembers ∧ Runs (.landPacketArrival 0 (packet 1 88)) sBegun := by
  have q := (h sBegun).1 0 0 0 0 (imgOps (.land landing)) (by decide +kernel) (by decide +kernel)
  have f (blk n : Nat) := (q.1 (packet blk n) (by show (0x300 : Nat) < 32768; decide) rfl).2 (by show 0 = frameNum sBegun.dev 0; decide +kernel) (by decide +kernel)
  have g := (((h sMembers).1 0 0 0 0 imgMembers (by decide +kernel) (by decide +kernel)).1 (packet 1 88) (by decide +kernel) (by decide +kernel)).2
    (by decide +kernel) (by decide +kernel)
  refine ⟨?_, ?_, ?_, ?_, ?_, ?_⟩
  · exact runs ((q.1 { packet 0 512 with frame := 3 } (by decide +kernel) (by decide +kernel)).1 (Or.inl (by decide +kernel)))
  · exact runs (((q.1 { packet 0 512 with tag := 3 } (by decide +kernel) (by decide +kernel)).2 (by decide +kernel) (by decide +kernel)).1 (by decide +kernel))
  · exact runs (((f 9 88).2 0 swCommon landing (by decide +kernel)).1 (by decide +kernel))
  · exact runs ((((f 0 511).2 0 swCommon landing (by decide +kernel)).2.1 (part 512) (by decide +kernel) (by decide +kernel)).2 (by decide +kernel))
  · exact runs (((g.2 0 swMembers landing (by decide +kernel)).2.2 (by decide +kernel) (by decide +kernel)).1 (by decide +kernel) (by decide +kernel))
  · exact runs ((((f 1 88).2 0 swCommon landing (by decide +kernel)).2.2 (by decide +kernel) (by decide +kernel)).2 (by decide +kernel)
      (fun base e => by cases e; unfold lands; decide +kernel) (by decide +kernel))

/-- Packets that are staged: of no LAND, too long, a copy, more than the staging holds, and one that is kept. -/
def staged (blk n : Nat) : LandPkt := { packet blk n with staged := true }
def sHeldUnit : State := st { sStaged.dev with rmt := { sStaged.dev.rmt with staging := [⟨0, ⟨5, 0⟩, 0, 0, 0, .unit 0x300 0 (part 512)⟩] } }
def imgNarrow : Image := { imgStaged with commitMap := [⟨0, true, ⟨5, 0⟩, 16⟩] }
def sNarrow : State := st (devSwm imgNarrow [])

theorem witness_StagedUnits (h : Obligations.SwarmEntriesLandAndComplete) :
    Runs (.landPacketArrival 0 { staged 1 88 with tag := 3 }) sStaged ∧ Runs (.landPacketArrival 0 (staged 9 88)) sStaged
      ∧ Runs (.landPacketArrival 0 (staged 0 511)) sHeldUnit ∧ Runs (.landPacketArrival 0 (staged 1 88)) sNarrow
      ∧ Runs (.landPacketArrival 0 (staged 1 88)) sHeldUnit := by
  have a := ((h sStaged).1 0 0 0 0 imgStaged (by decide +kernel) (by decide +kernel)).2.1
  have b := ((h sHeldUnit).1 0 0 0 0 imgStaged (by decide +kernel) (by decide +kernel)).2.1
  have n := ((h sNarrow).1 0 0 0 0 imgNarrow (by decide +kernel) (by decide +kernel)).2.1
  refine ⟨?_, ?_, ?_, ?_, ?_⟩
  · exact runs ((a { staged 1 88 with tag := 3 } (by decide +kernel) (by decide +kernel)).1 (Or.inl (by decide +kernel)))
  · exact runs (((a (staged 9 88) (by decide +kernel) (by decide +kernel)).2 imgStaged swStaged landing (by decide +kernel) (by decide +kernel)).1 (by decide +kernel))
  · exact runs ((((b (staged 0 511) (by decide +kernel) (by decide +kernel)).2 imgStaged swStaged landing (by decide +kernel) (by decide +kernel)).2.1 (part 512)
      (by decide +kernel) (by decide +kernel)).2 (by decide +kernel))
  · exact runs (((n (staged 1 88) (by decide +kernel) (by decide +kernel)).2 imgNarrow swStaged landing (by decide +kernel) (by decide +kernel)).2.2.1
      (by decide +kernel) (by decide +kernel) (by decide +kernel))
  · exact runs (((b (staged 1 88) (by decide +kernel) (by decide +kernel)).2 imgStaged swStaged landing (by decide +kernel) (by decide +kernel)).2.2.2
      (by decide +kernel) (by decide +kernel) (by decide +kernel) (by decide +kernel))

/-- A landing whose live table holds more rows than it has room for. -/
def counted : LandOps := { landing with expect := 2, eCount := 1, runMax := 4 }
def sCounted : State := withEng (sSwm (.land counted) [(bufAt 1, leBytes 4 9)])
  ⟨[⟨0, .swm swCommon (.land counted), 50, (0, 0), false, [], 0, 0, false⟩], [(0, ⟨0, some (bufAt 0), bufAt 1, [], [], none, 70⟩)], false, [], [], []⟩

theorem witness_SwarmEntriesComplete (h : Obligations.SwarmEntriesLandAndComplete) :
    Runs (.landComplete 0 0 71) sBegun ∧ Runs (.landComplete 0 0 71) sTable ∧ Runs (.landComplete 0 0 71) sCounted
      ∧ Runs (.swarmEntryComplete 0 1 79) sTable ∧ Runs (.swarmEntryComplete 0 1 80) sTable
      ∧ Runs (.voteArrival 0 vote) (sVote ⟨[(3, 1, true)], none, some (2, false), none, []⟩)
      ∧ Runs (.voteArrival 0 vote) (sVote ⟨[], none, some (2, false), none, []⟩) := by
  have q := (h sBegun).1 0 0 0 0 (imgOps (.land landing)) (by decide +kernel) (by decide +kernel)
  have c := (h sTable).1 0 0 0 0 (imgOps (.land landing)) (by decide +kernel) (by decide +kernel)
  have v (o : GroupSt) (a) (b) := (h (sVote o)).2 0 vote 0 0 0 imgVote a b (by decide +kernel) (by decide +kernel) (by decide +kernel)
  have n := (h sCounted).1 0 0 0 0 (imgOps (.land counted)) (by decide +kernel) (by decide +kernel)
  refine ⟨?_, ?_, ?_, ?_, ?_, ?_, ?_⟩
  · exact runsTo ((q.2.2.1 0 71 landRun swCommon landing (by decide +kernel) rfl).1 (by decide +kernel))
  · exact runs ((c.2.2.1 0 71 landRun swCommon landing (by decide +kernel) rfl).2.1 (by decide +kernel) (by decide +kernel))
  · exact runs ((n.2.2.1 0 71 _ swCommon counted rfl rfl).2.2 (by decide +kernel) (by decide +kernel))
  · exact runsTo ((c.2.2.2 1 79 tableRun (by decide +kernel) (fun _ _ e => by cases e)).1 (by decide +kernel))
  · exact runs ((c.2.2.2 1 80 tableRun (by decide +kernel) (fun _ _ e => by cases e)).2 (by decide +kernel) (by unfold lands; decide +kernel) (by decide +kernel))
  · exact runsTo ((v ⟨[(3, 1, true)], none, some (2, false), none, []⟩ (by decide +kernel) (by decide +kernel)).1 (by decide +kernel))
  · exact runs ((v ⟨[], none, some (2, false), none, []⟩ (by decide +kernel) (by decide +kernel)).2 (by decide +kernel))

/-! ## Collectives -/

/-- A group of two nodes of this pod, one of two nodes in a row and a column, and one of two pods; the device holds group 3 bound to LOCAL_ID 6. -/
def boxX : GroupBox := ⟨6, 0, 3, 1, 1, 0, 1⟩
def boxE : GroupBox := ⟨6, 0, 1, 1, 1, 0, 2⟩
def reducing : ColOps :=
  { delivery := 1, readyEn := false, notifyEn := false, stoch := false, slice := 0, startCycle := 50, window := 0, bufA := 0, bufB := 1, offsetA := 64,
    offsetB := 96, readySlot := 0, readyTag := 0, readyCount := 0, notifySlot := 1, notifyTag := 2, localId := 6, op := 1, phase := 1, redop := 0,
    inFmt := 6, outFmt := 7, count := 64, wire := 3, stageComb := 0, param := 0, stageOffset := 0, stageBytes := 0, countsRef := 2, countsOffset := 0 }
def between : ColOps := { reducing with delivery := 2, phase := 4, wire := 0 }
def imgCol (es : List SlotEnt) (b : GroupBox) : Image := { imgSwm es with groups := [b], exch := [⟨0, 0⟩, ⟨1, 0⟩] }
def devCol (es : List SlotEnt) (b : GroupBox) (blks : List ColBlk) (sent : List ColSent) : Dev :=
  let d := devSwm (imgCol es b) [(bufAt 0 + 64, part 128)]
  withRegs { d with col := { d.col with binds := [⟨3, 0, 0, 6⟩], blks := blks, sent := sent } } [(pEth 0, Reg.ETH_STATUS, 1)]
def sendOf (x : ColOps) : List SlotEnt := [⟨0, 0, .col true x⟩]
def foldOf1 (x : ColOps) : List SlotEnt := [⟨0, 0, .col false x⟩]
def sColSend : State := st (devCol (sendOf reducing) boxX [] [])
def sColOut : State := st (devCol (sendOf between) boxE [] [])
def sColFold : State := st (devCol (foldOf1 reducing) boxX [⟨3, 1, 1, 0, 0, false, [(0, part 64)], some 20, none⟩] [])
def sColEmpty : State := st (devCol (foldOf1 reducing) boxX [] [])
/-- Between pods: this node has sent a block to pod 1, and has not received that of its frame 65530. -/
def sColSent : State := st (devCol (sendOf between ++ [⟨1, 0, .col false between⟩]) boxE [] [⟨3, 4, 0, 0, mkPlace 1 0 (pSwm 0), [(0, part 64)], some true⟩])
def envOf (img : Image) (b : GroupBox) : ColEnv := ⟨0, 0, img, 0, 3, b⟩
def geoAt (b : GroupBox) (x : ColOps) : ColGeo := ⟨b, [0, 0, 0, 0], x, []⟩
def colPacket : LandPkt := ⟨⟨1, 0⟩, 0, 0, 0x8003, 0x100000, 0, false, 70, part 64⟩

/-- A block of a member that no node of this pod is. -/
def boxFar : GroupBox := ⟨6, 0, 1, 1, 0x8001, 0, 1⟩
def reaching : ColOps := { reducing with phase := 3, wire := 0 }
def sColFar : State := st (devCol (sendOf reaching) boxFar [] [])
def sColHeld : State := st (devCol (foldOf1 reducing) boxX [⟨3, 1, 1, 0, 0, false, [(0, part 32)], none, none⟩] [])

theorem witness_CollectivesCombine (h : Obligations.CollectivesCombine) :
    Runs (.colSend 0 50 reducing) sColSend ∧ Runs (.colSend 0 50 between) sColOut ∧ Runs (.colFold 0 50 reducing) sColFold
      ∧ Runs (.landPacketArrival 0 colPacket) sColEmpty ∧ Runs (.landPacketArrival 0 colPacket) sColHeld := by
  refine ⟨?_, ?_, ?_, ?_, ?_⟩
  · exact (((h sColSend 0).1 50 0 reducing (envOf (imgCol (sendOf reducing) boxX) boxX) (geoAt boxX reducing) [bufAt 0] (by decide +kernel) (by decide +kernel)
      ⟨by decide +kernel, swmReady_of (by decide +kernel), ok_of_toOption (by decide +kernel)⟩ (by unfold readsSound; decide +kernel)
      (by decide +kernel) (by decide +kernel) (fun g e => by cases e)).2.2.1 (by unfold reachable; decide +kernel)).imp fun _ ⟨_, _, q⟩ => q.1
  · exact (((h sColOut 0).1 50 0 between (envOf (imgCol (sendOf between) boxE) boxE) (geoAt boxE between) [bufAt 0] (by decide +kernel) (by decide +kernel)
      ⟨by decide +kernel, swmReady_of (by decide +kernel), ok_of_toOption (by decide +kernel)⟩ (by unfold readsSound; decide +kernel)
      (by decide +kernel) (by decide +kernel) (fun g e => by cases e)).2.2.2 (by decide +kernel) (by decide +kernel) (by decide +kernel)).imp fun _ ⟨_, _, q⟩ => q.1
  · exact ((h sColFold 0).2.2.1 50 0 reducing (envOf (imgCol (foldOf1 reducing) boxX) boxX) (geoAt boxX reducing) [bufAt 1, bufAt 0]
      [([0, 0, 0, 0], [], 0), ([1, 0, 0, 0], part 64, 20)] (by decide +kernel) (by decide +kernel)
      ⟨by decide +kernel, swmReady_of (by decide +kernel), ok_of_toOption (by decide +kernel)⟩ (by decide +kernel) (by decide +kernel) (by decide +kernel)
      (by unfold readsSound; decide +kernel) (by decide +kernel) (fun e => absurd e (by decide))).imp fun _ ⟨_, _, q⟩ => q.1
  · exact runs (((h sColEmpty 0).2.2.2.1 colPacket ⟨3, 0, 0, 6⟩ boxX (imgCol (foldOf1 reducing) boxX) ⟨0, 0, .col false reducing⟩ reducing (geoAt boxX reducing)
      [1, 0, 0, 0] (by decide +kernel) (by decide +kernel) (by decide +kernel) (by decide +kernel) (by decide +kernel) (by decide +kernel)
      (by decide +kernel) (by decide +kernel) (by decide +kernel) (by decide +kernel) (by decide +kernel)
      (fun _ => ⟨by decide +kernel, by decide +kernel, 0, imgCol (foldOf1 reducing) boxX, by decide +kernel⟩)).2 (by decide +kernel) (fun _ => by decide +kernel)
      (fun a e => by cases e; unfold lands; decide +kernel))
  · exact runs ((((h sColHeld 0).2.2.2.1 colPacket ⟨3, 0, 0, 6⟩ boxX (imgCol (foldOf1 reducing) boxX) ⟨0, 0, .col false reducing⟩ reducing (geoAt boxX reducing)
      [1, 0, 0, 0] (by decide +kernel) (by decide +kernel) (by decide +kernel) (by decide +kernel) (by decide +kernel) (by decide +kernel)
      (by decide +kernel) (by decide +kernel) (by decide +kernel) (by decide +kernel) (by decide +kernel)
      (fun _ => ⟨by decide +kernel, by decide +kernel, 0, imgCol (foldOf1 reducing) boxX, by decide +kernel⟩)).1 (part 32) (by decide +kernel)).2 (by decide +kernel))

theorem witness_CollectiveFailures (h : Obligations.CollectivesCombine) :
    Runs (.colSend 0 50 reaching) sColFar ∧ Runs (.landPacketArrival 0 { colPacket with tag := 0x8007 }) sColEmpty
      ∧ Runs (.trailerArrival 0 ⟨1, 0⟩ 1 3 5 true 4) sColEmpty ∧ Runs (.resendRequest 0 ⟨0, 0⟩ 1 3 0) sColSent
      ∧ Runs (.resendRequest 0 ⟨0, 0⟩ 1 3 65530) sColSent ∧ Runs (.resendArrival 0 ⟨1, 0⟩ 1 3 0 [(0x400000, 1)]) sColSent
      ∧ Runs (.resendArrival 0 ⟨0, 0⟩ 1 3 0 [(0x400000, 1)]) sColSent ∧ Runs (.collectiveSourceQuery 0 ⟨0, 0⟩ 1 65532) sColSent
      ∧ Runs (.collectiveSourceQuery 0 ⟨0, 0⟩ 1 65530) sColSent := by
  refine ⟨?_, ?_, ?_, ?_, ?_, ?_, ?_, ?_, ?_⟩
  · exact runs ((h sColFar 0).2.1 50 0 reaching (envOf (imgCol (sendOf reaching) boxFar) boxFar) (geoAt boxFar reaching) [bufAt 0] (by decide +kernel)
      (by decide +kernel) ⟨by decide +kernel, swmReady_of (by decide +kernel), ok_of_toOption (by decide +kernel)⟩ ⟨[0, 0, 1, 0], by decide +kernel, by decide +kernel⟩)
  · exact runs ((h sColEmpty 0).2.2.2.2.1 { colPacket with tag := 0x8007 } (by decide +kernel) (by decide +kernel) (by decide +kernel) (by decide +kernel))
  · exact runsTo ((h sColEmpty 0).2.2.2.2.2.1 ⟨1, 0⟩ 1 3 5 4 true (by decide +kernel))
  · exact runsTo (((h sColSent 0).2.2.2.2.2.2.1 ⟨0, 0⟩ 1 3 0 ⟨3, 0, 0, 6⟩ (by decide +kernel)).1 (Or.inr (by decide +kernel)))
  · exact (((h sColSent 0).2.2.2.2.2.2.1 ⟨0, 0⟩ 1 3 65530 ⟨3, 0, 0, 6⟩ (by decide +kernel)).2 (by decide +kernel) (by decide +kernel) (by decide +kernel)
      (by decide) (by decide) (by decide +kernel) (by decide +kernel)).imp fun _ ⟨_, q⟩ => q.1
  · exact runsTo (((h sColSent 0).2.2.2.2.2.2.2.1 ⟨1, 0⟩ 1 3 0 [(0x400000, 1)] (by decide +kernel)).1 (by decide +kernel))
  · exact (((h sColSent 0).2.2.2.2.2.2.2.1 ⟨0, 0⟩ 1 3 0 [(0x400000, 1)] (by decide +kernel)).2 (by decide +kernel) (by decide +kernel) (by decide)
      (by decide) (by decide +kernel) (by decide +kernel)).imp fun _ ⟨_, q⟩ => q.1
  · exact runsTo (((h sColSent 0).2.2.2.2.2.2.2.2 0 ⟨0, 0⟩ 1 65532).1 (Or.inr (by decide +kernel)))
  · exact runs (((h sColSent 0).2.2.2.2.2.2.2.2 0 ⟨0, 0⟩ 1 65530).2 (by decide +kernel) (by decide +kernel))

/-! ## The brood block -/

def reamClass : ReamClass := ⟨2, 8, 32, 12, 4, 0, 5, 0, 1, 4, true⟩
def broodRec : BroodRec := ⟨10, 8, 3, 1, [reamClass]⟩
def entry (pos kvl pe adm prio wait : Nat) : BrdEnt := ⟨7, 1000 + adm, kvl, pos, pe, 9999, adm, 3, 2, prio, 0, wait, false, false⟩
def imgBrood : Image := { imgSwm [] with brood := some broodRec }
def sReam (builds : List BrdBuild) : State :=
  let d := devSwm imgBrood []
  st { d with brd := { d.brd with table_ := [(10, entry 5 100 20 3 1 0), (11, entry 0 100 9 2 1 0), (13, entry 90 100 120 1 0 8)], builds := builds } }
def ream : Ream := ⟨0, [(11, 12), (10, 12), (13, 8)], [], hBuf 0, 640, 0, false⟩
def building : BrdBuild := ⟨0, 0, 120, false, ream, bufAt 0⟩

theorem witness_ReamsAreBuilt (h : Obligations.ReamsAreBuilt) :
    Runs (.reamBuild 0 0 ⟨5, []⟩) (sReam []) ∧ Runs (.reamBuild 0 0 ⟨5, [(11, true, false)]⟩) (sReam []) ∧ Runs (.reamBuild 0 0 ⟨5, [(11, true, true)]⟩) (sReam [])
      ∧ Runs (.reamBuildComplete 0 0 119) (sReam [building]) ∧ Runs (.reamBuildComplete 0 0 120) (sReam [building]) := by
  have q (cycle : Nat) := (h (sReam [building]) 0 0 cycle 0 0 0 imgBrood broodRec reamClass (by decide +kernel) rfl rfl).2 building (by decide +kernel)
  have b := (h (sReam []) 0 0 5 0 0 0 imgBrood broodRec reamClass (by decide +kernel) rfl rfl).1 (hBuf 0) 0 (bufAt 0) rfl (by decide +kernel) (by decide +kernel)
    (by decide +kernel) (by decide +kernel) (by decide +kernel) (by decide +kernel) (ok_of_toOption (by decide +kernel)) (by decide +kernel)
    (by decide +kernel) (by decide +kernel) (by decide +kernel)
  refine ⟨?_, ?_, ?_, ?_, ?_⟩
  · exact b.1.imp fun _ ⟨_, _, q⟩ => q.1
  · exact runs (b.2 11 (by decide +kernel)).1
  · exact runs (b.2 11 (by decide +kernel)).2
  · exact runsTo ((q 119).1 (by decide +kernel))
  · exact runs ((q 120).2 (by decide +kernel) (by unfold lands; decide +kernel))

/-! ## The whole block -/

theorem witness_StepRunsTheFrontCommand (h : Obligations.StepRunsTheFrontCommand) :
    step { sReam [] with pending := [.frameSwitchArm 0 host 7] } = exec (.frameSwitchArm 0 host 7) (sReam []) ∧ step (sReam []) = .next (sReam []) :=
  ⟨(h { sReam [] with pending := [.frameSwitchArm 0 host 7] }).1 (.frameSwitchArm 0 host 7) [] rfl, (h (sReam [])).2 rfl⟩

/-- Partition 0 at the grid point where its frame began, with the cut's decision taken. -/
def sFrame : State := st (modPart ready0 0 fun x => { x with cutTaken := true })

theorem witness_FramesLastTheirLength (h : Obligations.FramesLastTheirLength) : Runs (.tick 0) sFrame ∧ Runs (.frameSwitchArm 0 host 7) sFrame :=
  ⟨runs (h.1 sFrame 0 (by decide +kernel) (by decide +kernel) (by decide +kernel) (by decide +kernel) (by decide +kernel)).2,
   runsTo (h.2.1 sFrame 0 host 7 (by decide +kernel) (by decide))⟩

theorem witness_AdminIsNeverLost (h : Obligations.AdminIsNeverLost) :
    ∃ t, step { sFrame with pending := [.frameSwitchArm 0 host 7] } = .next t ∧ t.prop.adminKept = true := by
  have e : (match step { sFrame with pending := [.frameSwitchArm 0 host 7] } with | .next _ => true | _ => false) = true := by decide +kernel
  generalize q : step { sFrame with pending := [.frameSwitchArm 0 host 7] } = o at e
  cases o with
  | next t => exact ⟨t, rfl, h _ t (by decide +kernel) q⟩
  | fault _ => cases e
  | refused _ => cases e

theorem witness_PropolisChangesAtItsTimes (h : Obligations.PropolisChangesAtItsTimes) :
    ∃ t, step { sFrame with pending := [.frameSwitchArm 0 host 7] } = .next t ∧ ∃ l, t.prop.changes = l ∧ l.length ≤ 1 := by
  have e : (match step { sFrame with pending := [.frameSwitchArm 0 host 7] } with | .next _ => true | _ => false) = true := by decide +kernel
  generalize q : step { sFrame with pending := [.frameSwitchArm 0 host 7] } = o at e
  cases o with
  | next t =>
    obtain ⟨-, l, r⟩ := (h _ t (.frameSwitchArm 0 host 7) [] rfl q).2.2.2 (by simp) (by simp) (by simp)
    exact ⟨t, rfl, l, r⟩
  | fault _ => cases e
  | refused _ => cases e

/-! ## Time -/

/-- Context 0 starts at the tick of 64 µs. -/
def sPinned : State := st (modCtx ready0 0 fun x => { x with startAt := some 64000 })
/-- The active complex has a report to capture and a switchover to make. -/
def sGrid : State :=
  let d := withRegs ready0 [(pCtl 0, Reg.CTL_CX_STATUS, 2), (pCtl 1, Reg.CTL_CX_STATUS, 3)]
  st { modAtt d 0 (fun a => { a with busy := true }) with host := { d.host with switch := true } }

theorem witness_TicksAndGridPointsMoveTime (h : Obligations.TicksAndGridPointsMoveTime) :
    (∃ t, exec (.tick 0) sPinned = .next t ∧ frameNum t.dev 0 = img0.frameStart % 65536)
      ∧ ∃ t, exec .gridPoint sGrid = .next t ∧ (attOf t.dev 0).body.isSome = true ∧ activeCpx t.dev = some 1 := by
  have a := (h sPinned).1 0
  have b := (h sGrid).2
  refine ⟨a.imp fun _ q => ⟨q.1, q.2.2.2.2.2.2.2.2 0 img0 (by decide +kernel) (by decide +kernel)⟩, b.imp fun _ q => ⟨q.1, ?_, ?_⟩⟩
  · have act := (q.2.2.2.2.2.2 0 1 (by decide +kernel) (by decide +kernel) (by decide +kernel)).1
    exact q.2.2.2.2.2.1 0 (by decide +kernel) (by rw [act]; rfl)
  · exact (q.2.2.2.2.2.2 0 1 (by decide +kernel) (by decide +kernel) (by decide +kernel)).1

end Sys2Proof.Tests
end

