-- ==== Sys2Proof/Tests/Slice0.lean ====
section
/-! SUPPORT. Tests. An ill-formed term for each check of well-formedness; the worked examples and example tables of the spec; and single steps
whose result the spec's rules give. The witnesses of the statements stand in WitnessA to WitnessD. -/

namespace Sys2Proof.Tests
set_option Elab.async false
open Sys2Proof Sys2Proof.Machine

/-! ## Ill-formed operands are refused -/

theorem test_wf_record_headers : hdr0.wf = true ∧ { hdr0 with waitCount := 65536 }.wf = false ∧ { hdr0 with recordId := 65536 }.wf = false := by decide

theorem test_wf_transfers : xfer0.wf = true ∧ { xfer0 with cellBase := 4194304 }.wf = false ∧ { xfer0 with length := 0 }.wf = false
    ∧ { xfer0 with length := 131073 }.wf = false ∧ { xfer0 with offset := 2 ^ 28 }.wf = false
    ∧ FillOps.wf ⟨4194304, 1, 0⟩ = false ∧ FillOps.wf ⟨0, 0, 0⟩ = false := by decide

theorem test_wf_passes : pass0.wf = true ∧ { pass0 with u := 0 }.wf = false ∧ { pass0 with u := 32768 }.wf = false ∧ { pass0 with aBase := 4194304 }.wf = false
    ∧ { pass0 with bBase := 4194304 }.wf = false ∧ { pass0 with bOffset := 2 ^ 28 }.wf = false ∧ { pass0 with liveAddr := 4194304 }.wf = false
    ∧ { pass0 with aScaleBase := 4194304 }.wf = false ∧ { pass0 with bScaleBase := 4194304 }.wf = false ∧ { pass0 with sparseMode := 3 }.wf = false
    ∧ { pass0 with metaBase := 4194304 }.wf = false ∧ SplitOps.wf ⟨0, true, 0, 0, 0, 0, 0⟩ = false
    ∧ SplitOps.wf ⟨1, true, 0, 0, 0, 0, 4194304⟩ = false := by decide

theorem test_wf_drains_and_vectors : DrainOps.wf ⟨0, false, true, 0, 0, false, 4194304, 0, 0, 0⟩ = false
    ∧ DrainOps.wf ⟨0, true, true, 0, 0, false, 0, 0, 2 ^ 28, 0⟩ = false ∧ VecOps.wf ⟨true, 0, 0, 0, 0, 0, 0⟩ = false
    ∧ VecOps.wf ⟨true, 1048576, 0, 0, 0, 0, 0⟩ = false ∧ VecOps.wf ⟨true, 1, 4194304, 0, 0, 0, 0⟩ = false ∧ VecOps.wf ⟨true, 1, 0, 4194304, 0, 0, 0⟩ = false
    ∧ VecOps.wf ⟨true, 1, 0, 0, 4194304, 0, 0⟩ = false ∧ VecOps.wf ⟨true, 1, 0, 0, 0, 4194304, 0⟩ = false := by decide

theorem test_wf_sends_and_remote_records : SendOps.wf ⟨0, 2049, 0, 0, 0⟩ = false ∧ SendOps.wf ⟨4194304, 1, 0, 0, 0⟩ = false
    ∧ SendOps.wf ⟨0, 1, 256, 0, 0⟩ = false ∧ SendOps.wf ⟨0, 1, 0, 0, 4194304⟩ = false ∧ RemOps.wf ⟨0, 2049, 0, 0⟩ = false ∧ RemOps.wf ⟨0, 1, 16, 0⟩ = false
    ∧ RemOps.wf ⟨4194304, 1, 0, 0⟩ = false ∧ RemOps.wf ⟨0, 1, 2 ^ 48, 0⟩ = false ∧ RemOps.wf ⟨0, 1, 0, 2048⟩ = false
    ∧ AtomOps.wf ⟨true, 0, 4, 0, 0, 0⟩ = false ∧ AtomOps.wf ⟨false, 4194304, 4, 0, 0, 0⟩ = false ∧ AtomOps.wf ⟨false, 0, 2 ^ 48, 0, 0, 0⟩ = false
    ∧ AtomOps.wf ⟨false, 0, 4, 2048, 0, 0⟩ = false ∧ TrigOps.wf ⟨65536, 0, 0, 0, List.replicate 32 0⟩ = false ∧ TrigOps.wf ⟨0, 0, 0, 2048, List.replicate 32 0⟩ = false
    ∧ TrigOps.wf ⟨0, 0, 2 ^ 48, 0, List.replicate 32 0⟩ = false ∧ TrigOps.wf ⟨0, 0, 16, 0, List.replicate 32 0⟩ = false ∧ TrigOps.wf ⟨0, 0, 0, 0, [0]⟩ = false ∧ AllocOps.wf ⟨0, 5, 0, 0⟩ = false ∧ AllocOps.wf ⟨0, 0, 0, 2 ^ 24⟩ = false := by decide

theorem test_wf_requests : (req9 0).wf = true ∧ { req9 0 with src := ⟨2048, 0⟩ }.wf = false ∧ (req9 65536).wf = false ∧ { req9 0 with addr := 2 ^ 48 }.wf = false
    ∧ Instr.wf (.rloadRequest (req9 0) 0) = false ∧ Instr.wf (.rloadRequest (req9 0) 17) = false ∧ Instr.wf (.rstoreRequest (req9 0) 1 [0]) = false
    ∧ Instr.wf (.rstoreRequest (req9 0) 1 []) = false ∧ Instr.wf (.ratomicRequest { req9 0 with addr := 4 } 1 .add true 0 0) = false
    ∧ Instr.wf (.rtrigArrival (req9 0) 0 65536 (List.replicate 32 0) 0) = false ∧ Instr.wf (.rtrigArrival (req9 0) 0 0 [0] 0) = false
    ∧ Instr.wf (.sendArrival 0 65536 0 0) = false
    ∧ Instr.wf (.remoteReply 0 0 65536 [] 0) = false ∧ Instr.wf (.remoteReply 0 0 0 (List.replicate 513 0) 0) = false
    ∧ Instr.wf (.remoteRefuse 0 0 65536 0) = false ∧ Instr.wf (.markerReceive 0 ⟨2048, 0⟩ 0 true) = false ∧ Instr.wf (.markerLate 0 ⟨0, 0⟩ 65536) = false
    ∧ Instr.wf (.nodeQuery 0 2048 .votesMissing) = false := by decide +kernel

theorem test_wf_swarm_entries : swCommon.wf = true ∧ { swCommon with slice := 2 ^ 32 }.wf = false ∧ { swCommon with startCycle := 2 ^ 32 }.wf = false
    ∧ { swCommon with window := 2 ^ 32 }.wf = false ∧ { swCommon with bufA := 65536 }.wf = false ∧ { swCommon with bufB := 65536 }.wf = false
    ∧ { swCommon with offsetA := 16 }.wf = false ∧ { swCommon with offsetA := 2 ^ 32 }.wf = false ∧ { swCommon with offsetB := 16 }.wf = false
    ∧ { swCommon with offsetB := 2 ^ 32 }.wf = false ∧ { swCommon with readySlot := 256 }.wf = false ∧ { swCommon with readyCount := 65536 }.wf = false
    ∧ { swCommon with notifySlot := 256 }.wf = false ∧ { swCommon with tag := 65536 }.wf = false ∧ { swCommon with peer := ⟨2048, 0⟩ }.wf = false := by decide

theorem test_wf_collective_entries : reducing.wf = true ∧ { reducing with slice := 2 ^ 32 }.wf = false ∧ { reducing with startCycle := 2 ^ 32 }.wf = false
    ∧ { reducing with window := 2 ^ 32 }.wf = false ∧ { reducing with bufA := 65536 }.wf = false ∧ { reducing with bufB := 65536 }.wf = false
    ∧ { reducing with offsetA := 16 }.wf = false ∧ { reducing with offsetB := 16 }.wf = false ∧ { reducing with readySlot := 256 }.wf = false
    ∧ { reducing with readyCount := 65536 }.wf = false ∧ { reducing with notifySlot := 256 }.wf = false ∧ { reducing with localId := 256 }.wf = false
    ∧ { reducing with phase := 0 }.wf = false ∧ { reducing with phase := 13 }.wf = false ∧ { reducing with inFmt := 4 }.wf = false
    ∧ { reducing with outFmt := 8 }.wf = false ∧ { reducing with count := 31 }.wf = false ∧ { reducing with count := 67108865 }.wf = false
    ∧ { reducing with stageComb := 256 }.wf = false ∧ { reducing with stageOffset := 16 }.wf = false := by decide

theorem test_wf_waggle_jobs : job0.wf = true ∧ { job0 with slice := 2 ^ 32 }.wf = false ∧ { job0 with startCycle := 2 ^ 32 }.wf = false
    ∧ { job0 with jobId := 65536 }.wf = false ∧ { job0 with eFirst := 65536 }.wf = false ∧ { job0 with eFirst := 8191 }.wf = false
    ∧ { job0 with eCount := 65536 }.wf = false ∧ { job0 with capacity := 65536 }.wf = false ∧ { job0 with n := 2 ^ 32 }.wf = false
    ∧ { job0 with sources := 0 }.wf = false ∧ { job0 with sources := 2049 }.wf = false ∧ { job0 with self := 65536 }.wf = false
    ∧ { job0 with inBlocks := 0 }.wf = false ∧ { job0 with outRef := 65536 }.wf = false ∧ { job0 with outOffset := 16 }.wf = false
    ∧ { job0 with notifySlot := 256 }.wf = false ∧ { job0 with homes := 256 }.wf = false ∧ { job0 with outJobId := 65536 }.wf = false := by decide

def fgr : FgrEntry := ⟨0, false, false, 0, 0, 0, 0, 0, 0, 0, 0, 0, 64, 0, 0, 0, 0, 0, 0, 0, 0⟩

theorem test_wf_forager_entries : fgr.wf = true ∧ { fgr with slice := 2 ^ 32 }.wf = false ∧ { fgr with startCycle := 2 ^ 32 }.wf = false
    ∧ { fgr with rate := 2 ^ 32 }.wf = false ∧ { fgr with srcRef := 65536 }.wf = false ∧ { fgr with dstRef := 65536 }.wf = false
    ∧ { fgr with auxRef := 65536 }.wf = false ∧ { fgr with base := 256 }.wf = false ∧ { fgr with srcOffset := 16 }.wf = false
    ∧ { fgr with dstOffset := 16 }.wf = false ∧ { fgr with length := 2 ^ 64 }.wf = false ∧ { fgr with auxOffset := 16 }.wf = false
    ∧ { fgr with readySlot := 256 }.wf = false ∧ { fgr with readyCount := 65536 }.wf = false ∧ { fgr with notifySlot := 256 }.wf = false
    ∧ { fgr with count := 65536 }.wf = false ∧ { fgr with rowBytes := 2 ^ 32 }.wf = false := by decide

theorem test_wf_landing_packets_and_votes : (packet 0 64).wf = true ∧ { packet 0 64 with src := ⟨2048, 0⟩ }.wf = false ∧ { packet 0 64 with pod := 256 }.wf = false
    ∧ { packet 0 64 with frame := 65536 }.wf = false ∧ { packet 0 64 with tag := 65536 }.wf = false ∧ { packet 0 64 with pairCount := 65536 }.wf = false
    ∧ { packet 0 64 with payload := [] }.wf = false ∧ vote.wf = true ∧ { vote with group := 65536 }.wf = false ∧ { vote with frame := 65536 }.wf = false
    ∧ { vote with slice := 2 ^ 32 }.wf = false ∧ Instr.wf (.trailerArrival 0 ⟨0, 0⟩ 256 0 0 true 0) = false
    ∧ Instr.wf (.resendRequest 0 ⟨0, 0⟩ 0 4096 0) = false ∧ Instr.wf (.resendArrival 0 ⟨0, 0⟩ 0 0 65536 []) = false
    ∧ Instr.wf (.collectiveSourceQuery 0 ⟨2048, 0⟩ 0 0) = false ∧ Instr.wf (.collectiveSourceQuery 0 ⟨0, 0⟩ 256 0) = false
    ∧ Instr.wf (.wglBlockIngest 0 2048 (List.replicate 32 0) 0) = false ∧ Instr.wf (.wglBlockIngest 0 0 [0] 0) = false := by decide

theorem test_wf_host_commands : Instr.wf (.loadImage 0 0 0 (2 ^ 32)) = false ∧ Instr.wf (.start 0 0 (2 ^ 32) 0) = false ∧ Instr.wf (.publish 0 0 (2 ^ 24) 0) = false
    ∧ Instr.wf (.acquire 0 0 0 256 0) = false ∧ Instr.wf (.acquire 0 0 0 0 256) = false ∧ Instr.wf (.setDescriptor 0 0 (2 ^ 24) 0 0) = false
    ∧ Instr.wf (.setDescriptor 0 0 0 0 (2 ^ 32)) = false ∧ Instr.wf (.admitSeq 0 0 0 0 (2 ^ 32) 0 0 0 0 0 false) = false
    ∧ Instr.wf (.admitSeq 0 0 0 0 0 (2 ^ 32) 0 0 0 0 false) = false ∧ Instr.wf (.admitSeq 0 0 0 0 0 0 (2 ^ 32) 0 0 0 false) = false
    ∧ Instr.wf (.admitSeq 0 0 0 0 0 0 0 (2 ^ 32) 0 0 false) = false ∧ Instr.wf (.admitSeq 0 0 0 0 0 0 0 0 256 0 false) = false
    ∧ Instr.wf (.admitSeq 0 0 0 0 0 0 0 0 0 256 false) = false ∧ Instr.wf (.update 0 0 0 65536 0 0 0 0 0) = false ∧ Instr.wf (.update 0 0 0 0 0 0 (2 ^ 32) 0 0) = false
    ∧ Instr.wf (.update 0 0 0 0 0 0 0 (2 ^ 32) 0) = false ∧ Instr.wf (.update 0 0 0 0 0 0 0 0 256) = false ∧ Instr.wf (.hold 0 0 0 65536) = false
    ∧ Instr.wf (.openContext 0 0 65536 0) = false ∧ Instr.wf (.openContext 0 0 0 256) = false ∧ Instr.wf (.setPartition 0 0 256 0 0 0) = false
    ∧ Instr.wf (.registerSlot 0 0 256 0 0) = false ∧ Instr.wf (.registerSlot 0 0 0 0 (2 ^ 32)) = false ∧ Instr.wf (.releaseSlot 0 0 256) = false
    ∧ Instr.wf (.updateComponent 0 0 256 0 0 true true 0 0 0) = false ∧ Instr.wf (.updateComponent 0 0 0 0 (2 ^ 32) true true 0 0 0) = false := by decide

theorem test_wf_links_and_registers : Instr.wf (.packetArrival 0 [0]) = false ∧ Instr.wf (.commandPacket 0 [0]) = false ∧ Instr.wf (.thermalSample [0]) = false
    ∧ Instr.wf (.powerSample 4096) = false ∧ Instr.wf (.digestMessage 0 0 0 65536 [] 1) = false ∧ Instr.wf (.digestMessage 0 0 0 0 [] 0) = false ∧ Instr.wf (.clearWindow 0 0 65536) = false
    ∧ Instr.wf (.componentFault 0 5 1 0) = false ∧ Instr.wf (.componentFault 0 0 0 0) = false ∧ Instr.wf (.watchdogExpiry 0 5 0) = false
    ∧ Instr.wf (.injectCorr 0 2) = false ∧ Instr.wf (.injectUncorr 0 1) = false ∧ Instr.wf (.injectDelay 0 2) = false ∧ Instr.wf (.i3cAccess (2 ^ 32) false false 0) = false
    ∧ Instr.wf (.i3cAccess 0 true true 0) = false ∧ Instr.wf (.registerWrite 0 (2 ^ 25) false 0) = false ∧ Instr.wf (.nodeQueryArrival ⟨2048, 0⟩ 0 .alive) = false
    ∧ Instr.wf (.nodeQueryArrival ⟨0, 0⟩ 0 (.marker ⟨0, 0⟩ 65536)) = false ∧ Instr.wf (.nodeQueryArrival ⟨0, 0⟩ 0 (.packetsSent 2048 0 0)) = false
    ∧ Instr.wf (.nodeQueryAnswer 2048 0 .alive) = false ∧ Instr.wf (.nodeQueryAnswer 0 0 (.packetsSent 0 65536 0)) = false
    ∧ Instr.wf (.refetchComplete 0 0 ⟨0, [0]⟩) = false ∧ Instr.wf (.cacheDrain 0 1) = false ∧ Instr.wf (.patrolPass true 4 ⟨[], [], []⟩) = false := by decide

/-! ## Worked examples of the spec -/

/-- Table 02-12. -/
theorem test_page_addresses : pDie 2 * 4096 = 0x00402000 ∧ pComb 6 * 4096 = 0x00806000 ∧ pCell 50 * 4096 = 0x00C32000 ∧ pPart 3 * 4096 = 0x01003000
    ∧ pWgl 1 * 4096 = 0x01421000 ∧ pBol 17 * 4096 = 0x01511000 ∧ pPhysCell 287 * 4096 = 0x0191F000 ∧ pPhysComb 35 * 4096 = 0x01943000 := by decide

/-- The example of SELF_TEST in chapter 02: logical comb 6 with its eight cells READY, cell 50 failing. -/
def sComb6 : State :=
  st (withRegs ready0 ((pComb 6, Reg.UNIT_STATE, 2) :: (List.range 8).map fun k => (pCell (48 + k), Reg.UNIT_STATE, 2)))
def nextOf (i : Instr) (s : State) : State :=
  match exec i s with
  | .next t => t
  | _ => s
def sTesting : State := nextOf (.selfTest 0x0806 0x21 0) sComb6
def sTested : State := nextOf (.unitCommandComplete 0x0806 [0x0C32]) sTesting

theorem test_self_test_begins : unitState sTesting.dev (pComb 6) = UState.testing.code ∧ unitState sTesting.dev (pCell 50) = UState.testing.code := by decide +kernel

theorem test_self_test_ends : rdN sTested.dev (pComb 6) Reg.UNIT_CMD_STATUS = 0x10121 ∧ rdN sTested.dev (pComb 6) Reg.UNIT_CMD_FIRST_FAIL = 0x10C32
    ∧ unitState sTested.dev (pComb 6) = UState.ready.code ∧ unitState sTested.dev (pCell 50) = UState.failed.code
    ∧ groupReady sTested.dev (pComb 6) = 7 + 65536 ∧ rdB sTested.dev (pComb 6) Reg.UNIT_EVENTS 1 = true := by decide +kernel

/-- Table 05-7: the group stage of an integer accumulator, and the drain of that example. -/
theorem test_group_stage : let a := (groupStage 0 5312 (120 * 256 + 160) (121 * 256 + 200) 238).1
    a.toNat = 1359872000 ∧ (groupStage a (-1873) (118 * 256 + 135) (118 * 256 + 193) 238).1.toNat = 1347671746 := by decide +kernel
theorem test_integer_drain : (fmtOf 0).map (fun f => (outputNum f .rne (calenderY (.ofInt 1347671746) 25000 40)).1) = some 0x1F := by decide +kernel

/-- Table 07-6. -/
theorem test_score_keys : scoreKey (widenScore 7 0x3F400000) = 0xBF400000 ∧ scoreKey (widenScore 5 0x3F40) = 0xBF400000 ∧ scoreKey (widenScore 6 0x3E00) = 0xBFC00000
    ∧ scoreKey 0 = 0x80000000 ∧ scoreKey 0x80000000 = 0x80000000 ∧ scoreKey 0xBE800000 = 0x417FFFFF ∧ scoreKey 0x7F800000 = 0xFF800000
    ∧ scoreKey 0xFF800000 = 0x007FFFFF ∧ scoreKey 0x7FC00001 = 0 := by decide +kernel

/-- The job times of the example of chapter 07: 40 experts in a tray. -/
theorem test_job_times : let j := { job0 with capacity := 1664, n := 32768, tSrc := 4096 }
    jobTime 1 { j with eCount := 2 } = 1240 ∧ jobTime 1 { j with eCount := 3 } = 1752 ∧ jobTime 5 j = 98 := by decide +kernel

/-- The example of chapter 08: token rows of 12,800 bytes. -/
theorem test_row_parts : pRow 12800 = 25 := by decide

/-! ## Single steps -/

/-- A vector operation on single-precision words at bytes 4096 and 4128 of cell 0's store, its result at byte 8192. -/
def sVec (x y : Nat) : State := st (withMem [(cellAddr 0 4096, leBytes 4 x), (cellAddr 0 4128, leBytes 4 y)] bufs0)
def vec : VecOps := ⟨false, 1, 4096, 4128, 0, 8192, 0⟩
def vecWord (i : RecAt → RecHdr → VecOps → Instr) (f : Vop) (x y : Nat) : Nat :=
  readLe (nextOf (i at0 hdr0 vec) (st (holding (sVec x y).dev hdr0 (.vector f vec)))).dev (cellAddr 0 8192) 4

theorem test_vector_add : vecWord .vectorAdd .add 0x3F800000 0x40000000 = 0x40400000 := by decide +kernel
theorem test_vector_sub : vecWord .vectorSub .sub 0x3F800000 0x40000000 = 0xBF800000 := by decide +kernel
theorem test_vector_mul : vecWord .vectorMul .mul 0x40400000 0x40000000 = 0x40C00000 := by decide +kernel
theorem test_vector_max : vecWord .vectorMax .max 0x3F800000 0x40000000 = 0x40000000 := by decide +kernel
theorem test_vector_recip_of_minus_zero : vecWord .vectorRecip .recip 0x80000000 0 = 0xFF800000 := by decide +kernel
theorem test_vector_rsqrt_of_four : vecWord .vectorRsqrt .rsqrt 0x40800000 0 = 0x3F000000 := by decide +kernel

/-- Table 13-5: a sum wraps, and a comparison is signed. -/
theorem test_atomic_words : atomicNew .add 32 0xFFFFFFFF 2 0 = 1 ∧ atomicNew .min 32 1 0xFFFFFFFF 0 = 0xFFFFFFFF ∧ atomicNew .cas 64 5 9 5 = 9
    ∧ atomicNew .cas 64 6 9 5 = 6 := by decide +kernel

/-- CRC-32C of the nine digits, and SHA-256 of "abc": the check values published with those functions. -/
theorem test_crc32c : crc32c ([0x31, 0x32, 0x33, 0x34, 0x35, 0x36, 0x37, 0x38, 0x39].map (BitVec.ofNat 8)) = 0xE3069283 := by decide +kernel
theorem test_sha256 : sha256 ([0x61, 0x62, 0x63].map (BitVec.ofNat 8)) = [0xBA, 0x78, 0x16, 0xBF, 0x8F, 0x01, 0xCF, 0xEA, 0x41, 0x41, 0x40, 0xDE, 0x5D, 0xAE, 0x22,
    0x23, 0xB0, 0x03, 0x61, 0xA3, 0x96, 0x17, 0x7A, 0x9C, 0xB4, 0x10, 0xFF, 0x61, 0xF2, 0x00, 0x15, 0xAD].map (BitVec.ofNat 8) := by decide +kernel

/-- R12: after reset a frame lasts 64 µs. -/
theorem test_first_tick : (nextOf (.tick 0) State.reset).dev.hall = 64000 := by decide +kernel
theorem test_first_grid_point : (nextOf .gridPoint State.reset).dev.hall = 8000 := by decide +kernel

/-- An empty queue idles (log entry 6, DESIGN CHOICE), and a queue's front command runs on the state with the rest. -/
theorem test_idle : core.step core.reset = .next core.reset := rfl
theorem test_front_command : step { State.reset with pending := [.gridPoint, .tick 0] } = exec .gridPoint { State.reset with pending := [.tick 0] } := rfl

/-- No row of the opcode table gives bits. -/
theorem test_no_table_words : decodeTableWord 32 0 = none := rfl

end Sys2Proof.Tests
end

section
/-! The start of a Swarm entry that is on time, the units that it sends, and the blocks of a BITMAP_FEED (08, R200, R201, R208). -/

namespace Sys2Proof.Machine

/-! ## Fields of little-endian byte strings -/

theorem leNat_leBytes (n v : Nat) : leNat (leBytes n v) = v % 256 ^ n := by
  induction n generalizing v with
  | zero => simp [leBytes, leNat, Nat.mod_one]
  | succ n ih => rw [leBytes, leNat, ih, BitVec.toNat_ofNat, show 2 ^ 8 = 256 from rfl, Nat.pow_succ', Nat.mod_mul]

/-- What stands between two strings is the slice at its place. -/
theorem sliceBytes_middle {x y z : List Byte} {o n : Nat} (ho : x.length = o) (hn : y.length = n) : sliceBytes (x ++ (y ++ z)) o n = y := by
  subst ho hn
  simp [sliceBytes]

/-- A number written between two strings reads back at its place. -/
theorem leAt_middle {x z : List Byte} {o : Nat} (n v : Nat) (ho : x.length = o) : leAt (x ++ (leBytes n v ++ z)) o n = v % 256 ^ n := by
  rw [leAt, sliceBytes_middle ho (leBytes_length n v), leNat_leBytes]

@[simp] theorem engBytes_length (d : Dev) (a n : Nat) : (engBytes d a n).length = n := by simp [engBytes]

/-! ## Block headers (Table 07-4) -/

section
variable (kind fmt job frame col base flags : Nat) (data : List Byte)

theorem blkHead_length : (blkHead kind fmt job frame col base flags).length = 32 := by simp [blkHead, leBytes_length]

theorem leAt_blkHead_kind : leAt (blkHead kind fmt job frame col base flags ++ data) 0 1 = kind % 256 := by
  simpa [blkHead] using leAt_middle (x := []) 1 kind rfl

theorem leAt_blkHead_fmt : leAt (blkHead kind fmt job frame col base flags ++ data) 1 1 = fmt % 256 := by
  simpa [blkHead] using leAt_middle (x := leBytes 1 kind) 1 fmt (leBytes_length 1 kind)

theorem leAt_blkHead_job : leAt (blkHead kind fmt job frame col base flags ++ data) 2 2 = job % 65536 := by
  simpa [blkHead] using leAt_middle (x := leBytes 1 kind ++ leBytes 1 fmt) 2 job (by simp [leBytes_length])

theorem leAt_blkHead_frame : leAt (blkHead kind fmt job frame col base flags ++ data) 4 2 = frame % 65536 := by
  simpa [blkHead] using leAt_middle (x := leBytes 1 kind ++ leBytes 1 fmt ++ leBytes 2 job) 2 frame (by simp [leBytes_length])

theorem leAt_blkHead_col : leAt (blkHead kind fmt job frame col base flags ++ data) 6 2 = col % 65536 := by
  simpa [blkHead] using leAt_middle (x := leBytes 1 kind ++ leBytes 1 fmt ++ leBytes 2 job ++ leBytes 2 frame) 2 col
    (by simp [leBytes_length])

theorem leAt_blkHead_base : leAt (blkHead kind fmt job frame col base flags ++ data) 8 4 = base % 2 ^ 32 := by
  simpa [blkHead] using leAt_middle (x := leBytes 1 kind ++ leBytes 1 fmt ++ leBytes 2 job ++ leBytes 2 frame ++ leBytes 2 col) 4 base
    (by simp [leBytes_length])

theorem leAt_blkHead_flags : leAt (blkHead kind fmt job frame col base flags ++ data) 0xC 1 = flags % 256 := by
  simpa [blkHead] using leAt_middle
    (x := leBytes 1 kind ++ leBytes 1 fmt ++ leBytes 2 job ++ leBytes 2 frame ++ leBytes 2 col ++ leBytes 4 base) 1 flags
    (by simp [leBytes_length])

/-- The data of a block follow its header. -/
theorem sliceBytes_blkHead_data : sliceBytes (blkHead kind fmt job frame col base flags ++ data) 32 data.length = data := by
  simpa using sliceBytes_middle (y := data) (z := []) (blkHead_length kind fmt job frame col base flags) rfl

end

/-! ## Entries that start on time (R200) -/

theorem listsBy_of_notDue {d : Dev} {p cycle : Nat} (h : listsDue d (momentOf d p (cycle + 1)) = []) : listsBy d p cycle = d := by
  rw [listsBy, listsTo, h]; rfl

/-- A tag that is met by a cycle has reached its count by then. -/
theorem reached_of_tagReady {d : Dev} {p slot tag n cycle : Nat} {k : EntryCtl} (hk : k.ready = some (slot, tag, n))
    (h : tagReady d p slot tag n cycle = true) : ∃ r, (readyTag d p k).bind (fun g => g.reached n) = some r ∧ r ≤ cycle := by
  unfold tagReady at h
  cases hs : slotCell d p slot with
  | none => simp [hs] at h
  | some x =>
    cases hr : (tagOf (cellOf d x) tag).reached n with
    | none => simp [hs, hr] at h
    | some r => exact ⟨r, by simp [readyTag, hk, hs, hr], by simpa [hs, hr] using h⟩

/-- An entry that R200 lets start in a cycle starts in it, with its READY tag and without. -/
theorem startCycleOf_of_swmReady {d : Dev} {i p cycle sl idx : Nat} {img : Image} {what : SlotKind} {refs : List Nat}
    (h : swmReady d i p cycle img sl idx what refs) : startCycleOf d i p img sl what refs = some (cycle, cycle) := by
  obtain ⟨-, -, ⟨hs, fr, href, hfree, hcycle⟩, htag, -, hstop, hkill, hcut⟩ := h
  unfold startCycleOf
  simp only [hstop, hkill, hcut, href, hfree, Option.isSome_none, Bool.or_self, Bool.false_eq_true, if_false, ← hcycle]
  cases hr : what.ctl.ready with
  | none => rfl
  | some t =>
    obtain ⟨slot, tag, n⟩ := t
    obtain ⟨r, hreach, hle⟩ := reached_of_tagReady hr (htag slot tag n hr)
    simp only [hreach, Option.map_some, Nat.max_eq_left hle]

/-- The start of entry `idx` in a cycle, on time. -/
def onTime (idx cycle : Nat) : EntryGo := ⟨idx, cycle, cycle, cycle, none⟩

theorem entryGo_of_swmReady {d : Dev} {i p cycle sl idx : Nat} {img : Image} {what : SlotKind} {refs : List Nat}
    (hf : freshEntry d i img sl what = some idx) (h : swmReady d i p cycle img sl idx what refs) :
    entryGo d i p img sl cycle what refs 0 = some (onTime idx cycle) := by
  have hstart := startCycleOf_of_swmReady h
  obtain ⟨-, hcut, -, -, hstall, -⟩ := h
  have hnone : (swmOf d i).stalls.find? (fun e => e.1 == idx) = none :=
    List.find?_eq_none.mpr fun q hq => by simpa using hstall q hq
  unfold entryGo
  simp only [hf, hstart, hnone]
  exact if_pos ⟨(Nat.max_zero cycle).symm, hcut⟩

/-- A start on time is charged nothing. -/
@[simp] theorem chargeStart_onTime (d : Dev) (p : Nat) (img : Image) (sl idx cycle : Nat) (k : EntryCtl) :
    chargeStart d p img sl (onTime idx cycle) k = d := by
  simp only [chargeStart, onTime, chargeHold, Nat.sub_self, if_true]
  cases k.ready <;> rfl

@[simp] theorem startWhy_onTime (d : Dev) (p idx cycle : Nat) (k : EntryCtl) : startWhy d p (onTime idx cycle) k = (0, 0) := by
  simp [startWhy, onTime]

/-- A BITMAP_FEED that starts on time sends. -/
theorem swmStart_bitmap {d : Dev} {i p cycle x sl idx : Nat} {c : SwmCommon} {o : BitmapFeedOps} {img : Image} {l : List Nat}
    (h : swmStarts d i p cycle c (.bitmap o) img x sl idx l) :
    swmStart d i cycle c (.bitmap o) = startSending d i p (onTime idx cycle) (imageCap img) c (.bitmap o) (0, 0) (l.getD 0 0) (l.getD 1 0) := by
  obtain ⟨himg, hfresh, hready, hneeds⟩ := h
  unfold swmStart
  simp only [himg, listsBy_of_notDue hready.1, entryGo_of_swmReady hfresh hready, chargeStart_onTime, startWhy_onTime, hneeds, rowsInside,
    Bool.not_true, Bool.false_eq_true, if_false]

/-! ## Runs -/

@[simp] theorem swmOf_modSwm_self (d : Dev) (i : Nat) (g : SwmEng → SwmEng) : swmOf (modSwm d i g) i = g (swmOf d i) := by
  unfold swmOf modSwm; exact smGetD_modD_self _ _ _ _

theorem swmOf_modSwm_ne (d : Dev) {i k : Nat} (g : SwmEng → SwmEng) (h : k ≠ i) : swmOf (modSwm d i g) k = swmOf d k := by
  unfold swmOf modSwm; exact smGetD_modD_ne _ _ _ h

/-- A new run joins the others; no stall ends when none was its own. -/
theorem pushRun_swmRuns {d e : Dev} (i : Nat) (r : SwmRun) (hswm : e.swm = d.swm) (hstall : ∀ q ∈ (swmOf d i).stalls, q.1 ≠ r.id) :
    swmRuns d (pushRun e i r) i r := by
  have hof (k : Nat) : swmOf e k = swmOf d k := by unfold swmOf; rw [hswm]
  have hkeep : (swmOf d i).stalls.filter (fun q => q.1 != r.id) = (swmOf d i).stalls :=
    List.filter_eq_self.mpr fun q hq => by simpa using hstall q hq
  unfold pushRun
  constructor
  · rw [swmOf_modSwm_self, hof, hkeep]
  · exact fun k hk => (swmOf_modSwm_ne e _ hk).trans (hof k)

/-! ## Packets of units (R201) -/

/-- A change of the fabric alone: `OnlyFab` without what a partition has sent. -/
def FabAlone (d e : Dev) : Prop := e = { d with fab := e.fab }

theorem FabAlone.refl (d : Dev) : FabAlone d d := rfl

theorem FabAlone.trans {d e f : Dev} (h : FabAlone d e) (k : FabAlone e f) : FabAlone d f := by unfold FabAlone at *; rw [k, h]

theorem FabAlone.regs {d e : Dev} (h : FabAlone d e) : e.regs = d.regs := by unfold FabAlone at h; rw [h]

theorem entered_nil (d : Dev) : entered d d [] := ⟨by simp, by simp⟩

theorem entered_append {d e f : Dev} {l m : List InPkt} (h : entered d e l) (k : entered e f m) : entered d f (l ++ m) := by
  obtain ⟨h1, h2⟩ := h
  obtain ⟨k1, k2⟩ := k
  refine ⟨?_, fun q hq => (List.mem_append.mp hq).elim (h2 q) (k2 q)⟩
  rw [k1, h1]
  simp

/-- A counted packet for a device of the pod waits at its engine, and nothing else of the device changes (R318). -/
theorem sendPkt_entered (d : Dev) (p : Pkt) (ho : placePod p.dest = myPod d) (hn : nodeNames d (placeNode p.dest) = true)
    (hc : typeCounted p.type = true) :
    FabAlone d (sendPkt d p) ∧ ∃ q, entered d (sendPkt d p) [q] ∧ { q.pkt with pair := 0 } = { p with pair := 0 } := by
  unfold sendPkt
  simp only [ho, hn, hc, ne_eq, not_true_eq_false, decide_false, Bool.false_eq_true, if_false, Bool.not_true, if_true]
  exact ⟨rfl, _, ⟨rfl, by simp⟩, rfl⟩

theorem nodeNames_of_entered {d e : Dev} {l : List InPkt} (h : FabAlone d e) (k : entered d e l) (n : Nat) : nodeNames e n = nodeNames d n := by
  have hfuses : e.fuses = d.fuses := by rw [h]
  have hracks : e.fab.racks = d.fab.racks := by rw [k.1]
  unfold nodeNames nRacks
  rw [hfuses, hracks]

/-- The parts of units: address word, number of the unit, bytes. -/
def unitParts (c : SwmCommon) (parts : Nat) (us : List SwmUnit) : List (Nat × Nat × List Byte) :=
  us.zipIdx.flatMap fun u => (splitPayload u.1.data).zipIdx.map fun q => (c.tag + 65536 * (u.1.row * parts + q.2), u.2, q.1.2)

/-- The packet of a part, of frame `f`, to a node whose bundle has `b` links. -/
def partPkt (d : Dev) (i p f b unit : Nat) (c : SwmCommon) (w : Nat × Nat × List Byte) : Pkt :=
  mkPkt d 0 0 false (mkPlace (myPod d) c.peer.node unit) (pSwm i) c.peer.part.val p f w.1 0 (w.2.1 % b) w.2.2

/-- A part leaves: inside the device it is handed on at once. -/
def sendPart (own : Bool) (i p f b unit : Nat) (c : SwmCommon) (d : Dev) (w : Nat × Nat × List Byte) : Dev :=
  if own then { d with fab := { d.fab with handed := d.fab.handed ++ [partPkt d i p f b unit c w] } }
  else sendPkt d (partPkt d i p f b unit c w)

theorem partPkt_dest (d : Dev) (i p f b unit : Nat) (c : SwmCommon) (w : Nat × Nat × List Byte) :
    (partPkt d i p f b unit c w).dest = mkPlace (myPod d) c.peer.node unit := rfl

theorem partPkt_type (d : Dev) (i p f b unit : Nat) (c : SwmCommon) (w : Nat × Nat × List Byte) : (partPkt d i p f b unit c w).type = 0 := rfl

theorem partPkt_unpaired (d : Dev) (i p f b unit : Nat) (c : SwmCommon) (w : Nat × Nat × List Byte) :
    { partPkt d i p f b unit c w with pair := 0 } = partPkt d i p f b unit c w := rfl

theorem partPkt_congr {d e : Dev} (h : e.regs = d.regs) (i p f b unit : Nat) (c : SwmCommon) : partPkt e i p f b unit c = partPkt d i p f b unit c := by
  have hp : myPlace e = myPlace d := by unfold myPlace rdN rd; rw [h]
  funext w
  unfold partPkt mkPkt myPod
  rw [hp]

theorem sendPart_away (i p f b unit : Nat) (c : SwmCommon) (d : Dev) (w : Nat × Nat × List Byte) :
    sendPart false i p f b unit c d w = sendPkt d (partPkt d i p f b unit c w) := by
  unfold sendPart; rw [if_neg Bool.false_ne_true]

/-- Parts for the device itself are handed on in their order. -/
theorem foldl_sendPart_own (i p f b unit : Nat) (c : SwmCommon) (ws : List (Nat × Nat × List Byte)) (d : Dev) :
    ws.foldl (sendPart true i p f b unit c) d
      = { d with fab := { d.fab with handed := d.fab.handed ++ ws.map (partPkt d i p f b unit c) } } := by
  induction ws generalizing d with
  | nil => simp
  | cons w ws ih =>
    rw [List.foldl_cons, ih, partPkt_congr (d := d) (by simp [sendPart])]
    simp [sendPart]

/-- Parts for another device of the pod enter the fabric in their order. -/
theorem foldl_sendPart_away {i p f b unit : Nat} {c : SwmCommon} (hnode : c.peer.node < 2048) (hunit : unit < 8192)
    (ws : List (Nat × Nat × List Byte)) (d : Dev) (hn : nodeNames d c.peer.node = true) :
    let e := ws.foldl (sendPart false i p f b unit c) d
    FabAlone d e ∧ ∃ l, entered d e l ∧ (l.map fun q => { q.pkt with pair := 0 }) = ws.map (partPkt d i p f b unit c) := by
  induction ws generalizing d with
  | nil => exact ⟨FabAlone.refl d, [], entered_nil d, rfl⟩
  | cons w ws ih =>
    obtain ⟨hfab, q, hq, hpkt⟩ := sendPkt_entered d (partPkt d i p f b unit c w)
      (by rw [partPkt_dest, placePod_mk (myPod_lt d) hnode hunit]) (by rw [partPkt_dest, placeNode_mk hnode hunit, hn])
      (by rw [partPkt_type]; decide)
    obtain ⟨hfab', l, hl, hpkts⟩ := ih (sendPkt d (partPkt d i p f b unit c w)) (by rw [nodeNames_of_entered hfab hq, hn])
    rw [List.foldl_cons, sendPart_away]
    refine ⟨hfab.trans hfab', q :: l, entered_append hq hl, ?_⟩
    rw [List.map_cons, List.map_cons, hpkts, hpkt, partPkt_congr hfab.regs, partPkt_unpaired]

/-- The bytes that a unit counts for (R203). -/
def unitSize (d : Dev) (c : SwmCommon) (u : SwmUnit) : Nat :=
  u.data.length + if c.peer.node = myNode d then 0 else 32 * (splitPayload u.data).length

/-- Sending units is sending their parts in order, and counting units and bytes. -/
theorem sendUnits_eq_foldl (d : Dev) (i p start : Nat) (c : SwmCommon) (unit parts : Nat) (us : List SwmUnit) :
    (sendUnits d i p start c unit parts us).1
      = bump (bump ((unitParts c parts us).foldl
            (sendPart (c.peer.node == myNode d) i p (frameNum d p) (bundleSize d c.peer.node) unit c) d)
          (pSwm i) Reg.SWM_UNITS_SENT us.length)
        (pSwm i) Reg.SWM_BYTES_SENT ((us.map (unitSize d c)).foldl (· + ·) 0) := by
  have hsize : (us.map (unitSize d c)).foldl (· + ·) 0
      = us.foldl (fun n u => n + (u.data.length + if c.peer.node == myNode d then 0 else 32 * (splitPayload u.data).length)) 0 := by
    simp only [List.foldl_map, unitSize, beq_iff_eq]
  rw [hsize, unitParts, List.foldl_flatMap]
  simp only [List.foldl_map]
  rfl

/-- What the parts of units leave: packets in the fabric, or handed on, and nothing else. -/
theorem foldl_sendPart_sent (d : Dev) {i p f b unit : Nat} {c : SwmCommon} (hnode : c.peer.node < 2048) (hunit : unit < 8192)
    (hn : nodeNames d c.peer.node = true) (ws : List (Nat × Nat × List Byte)) :
    let e := ws.foldl (sendPart (c.peer.node == myNode d) i p f b unit c) d
    let ks := ws.map (partPkt d i p f b unit c)
    FabAlone d e ∧ (c.peer.node = myNode d → e.fab = { d.fab with handed := d.fab.handed ++ ks })
      ∧ (c.peer.node ≠ myNode d → ∃ l, entered d e l ∧ (l.map fun q => { q.pkt with pair := 0 }) = ks) := by
  by_cases hown : c.peer.node = myNode d
  · rw [beq_iff_eq.mpr hown, foldl_sendPart_own]
    exact ⟨rfl, fun _ => rfl, fun h => absurd hown h⟩
  · rw [beq_eq_false_iff_ne.mpr hown]
    obtain ⟨hfab, hl⟩ := foldl_sendPart_away hnode hunit ws d hn
    exact ⟨hfab, fun h => absurd h hown, fun _ => hl⟩

/-- The units of an entry to a node that names a device are sent as R201 says, and the fabric and the counts alone change. -/
theorem sendUnits_unitsSent {d : Dev} (i p start : Nat) {c : SwmCommon} {unit : Nat} (parts : Nat) (us : List SwmUnit)
    (hnode : c.peer.node < 2048) (hunit : unit < 8192) (hn : nodeNames d c.peer.node = true) :
    let e := (sendUnits d i p start c unit parts us).1
    unitsSent d e i p c unit parts us ∧ e = { d with regs := e.regs, fab := e.fab } := by
  intro e
  have he : e = _ := sendUnits_eq_foldl d i p start c unit parts us
  obtain ⟨hfab, hown, haway⟩ := foldl_sendPart_sent d (i := i) (p := p) (f := frameNum d p) (b := bundleSize d c.peer.node) hnode hunit hn
    (unitParts c parts us)
  generalize (unitParts c parts us).foldl _ d = g at he hfab hown haway
  generalize hk : bump g (pSwm i) Reg.SWM_UNITS_SENT us.length = k at he
  have hkg : OnlyRegs g k := hk ▸ bump_onlyRegs _ _ _ _
  have hek : OnlyRegs k e := he ▸ bump_onlyRegs _ _ _ _
  have hfabs : e.fab = g.fab := by rw [hek, hkg]
  have hrd (u o : Nat) : rd g u o = rd d u o := by unfold rd; rw [hfab.regs]
  have hne : pSwm i * 4096 + Reg.SWM_UNITS_SENT ≠ pSwm i * 4096 + Reg.SWM_BYTES_SENT := key_ne (by decide) (by decide) (Or.inr (by decide))
  refine ⟨⟨(unitParts c parts us).map (partPkt d i p (frameNum d p) (bundleSize d c.peer.node) unit c), ?_, ?_, ?_, ?_, ?_, ?_, ?_⟩, ?_⟩
  · rw [List.map_map]; rfl
  · intro q hq
    obtain ⟨w, -, rfl⟩ := List.mem_map.mp hq
    exact ⟨rfl, rfl, rfl, rfl, rfl, rfl, rfl, rfl⟩
  · exact fun h => hfabs.trans (hown h)
  · intro h
    obtain ⟨l, ⟨hl, hin⟩, hpkts⟩ := haway h
    exact ⟨l, ⟨by rw [hfabs]; exact hl, hin⟩, hpkts⟩
  · rw [advanced, he, rdN_bump_ne _ _ hne, ← hk, rdN_bump_self, rdN, hrd]; rfl
  · rw [advanced, he, rdN_bump_self, ← hk, rdN_bump_ne _ _ hne.symm, rdN, hrd]; rfl
  · intro u o ho hnot
    have hmem : (u ≠ pSwm i ∨ o ≠ Reg.SWM_UNITS_SENT) ∧ (u ≠ pSwm i ∨ o ≠ Reg.SWM_BYTES_SENT) := by
      simp only [List.mem_cons, Prod.mk.injEq, List.not_mem_nil, or_false, not_or] at hnot
      exact ⟨Decidable.not_and_iff_or_not.mp hnot.1, Decidable.not_and_iff_or_not.mp hnot.2⟩
    rw [he, rd_bump_ne _ _ (key_ne ho (by decide) hmem.2), ← hk, rd_bump_ne _ _ (key_ne ho (by decide) hmem.1), hrd]
  · rw [hek, hkg, hfab]

/-- What was sent stays sent when a run is recorded. -/
theorem unitsSent_pushRun {d e : Dev} {i p : Nat} {c : SwmCommon} {unit parts : Nat} {us : List SwmUnit} (h : unitsSent d e i p c unit parts us)
    (r : SwmRun) : unitsSent d (pushRun e i r) i p c unit parts us := h

/-! ## BITMAP_FEED (R208) -/

/-- A BITMAP_FEED to a node that names a device, with sound reads: its blocks are sent, and it runs until they are there. -/
theorem startSending_bitmap {d : Dev} {i p cycle idx cap a b : Nat} {c : SwmCommon} {o : BitmapFeedOps}
    (hreads : readsSound d p cycle [(a + c.offsetA, o.bits / 8)]) (hn : nodeNames d c.peer.node = true) :
    let s := sendUnits d i p cycle c (pWgl o.wglInstance.val) 2 (bitmapUnits d (frameNum d p) a c o).units
    startSending d i p (onTime idx cycle) cap c (.bitmap o) (0, 0) a b
      = pushRun s.1 i ⟨idx, .swm c (.bitmap o), s.2, (0, 0), false, [], 0, 0, false⟩ := by
  unfold readsSound at hreads
  unfold startSending
  simp only [unitsOf', hn, onTime, bitmapUnits, hreads, EngRead.holds, boundDrop, readWhy, Bool.not_true, Bool.false_eq_true, if_false, if_true,
    List.isEmpty_nil, Bool.or_self, Nat.add_zero, ne_eq, not_true_eq_false, decide_false]

/-- Block v of a BITMAP_FEED, and its header. -/
theorem bitmapUnits_block (d : Dev) (frame a : Nat) (c : SwmCommon) (o : BitmapFeedOps) {v : Nat} (hv : v < o.bits / 4096) :
    ∃ n, (bitmapUnits d frame a c o).units[v]? = some ⟨v, n⟩ ∧ n.length = 544 ∧ leAt n 0 1 = o.bkind.val ∧ leAt n 1 1 = 0
      ∧ leAt n 2 2 = o.jobId % 65536 ∧ leAt n 4 2 = frame % 65536
      ∧ (o.bkind.val = 1 → leAt n 6 2 = o.home % 65536) ∧ (o.bkind.val = 2 → leAt n 6 2 = 0)
      ∧ leAt n 8 4 = (o.tokenBase + 4096 * v) % 2 ^ 32 ∧ leAt n 0xC 1 = 0
      ∧ sliceBytes n 32 512 = engBytes d (a + c.offsetA + 512 * v) 512 := by
  have hkind : o.bkind.val % 256 = o.bkind.val := Nat.mod_eq_of_lt (Nat.lt_trans o.bkind.isLt (by decide))
  have hdata := sliceBytes_blkHead_data o.bkind.val 0 o.jobId frame (if o.bkind.val = 1 then o.home else 0) (o.tokenBase + 4096 * v) 0
    (engBytes d (a + c.offsetA + 512 * v) 512)
  rw [engBytes_length] at hdata
  refine ⟨blkHead o.bkind.val 0 o.jobId frame (if o.bkind.val = 1 then o.home else 0) (o.tokenBase + 4096 * v) 0
    ++ engBytes d (a + c.offsetA + 512 * v) 512, ?_, ?_, ?_, leAt_blkHead_fmt .., leAt_blkHead_job .., leAt_blkHead_frame .., fun h => ?_,
    fun h => ?_, leAt_blkHead_base .., leAt_blkHead_flags .., hdata⟩
  · simp [bitmapUnits, hv]
  · rw [List.length_append, blkHead_length, engBytes_length]
  · rw [leAt_blkHead_kind, hkind]
  · rw [leAt_blkHead_col, if_pos h]
  · rw [leAt_blkHead_col, if_neg (by omega)]

theorem exec_bitmapFeed (i : Fin 2) (cycle : Nat) (c : SwmCommon) (o : BitmapFeedOps) (s : State) :
    exec (.bitmapFeed i cycle c o) s = .next { s with dev := swmStart s.dev i.val cycle c (.bitmap o) } := rfl

/-- Settles O51: a BITMAP_FEED that starts on time is the sending of its blocks (`swmStart_bitmap`, `startSending_bitmap`); the blocks are
those of R208 (`bitmapUnits_block`), and sending them is what R201 says (`sendUnits_unitsSent`). -/
theorem bitmapFeedSendsItsBlocks : Obligations.BitmapFeedSendsItsBlocks := by
  unfold Obligations.BitmapFeedSendsItsBlocks
  intro s i p cycle x sl idx c o img l d a hstarts hreads hnode hn
  have hunit : pWgl o.wglInstance.val < 8192 := by have := o.wglInstance.isLt; simp only [pWgl, pBlock]; omega
  obtain ⟨hsent, honly⟩ := sendUnits_unitsSent i.val p cycle 2 (bitmapUnits d (frameNum d p) a c o).units hnode hunit hn
  have hexec := exec_bitmapFeed i cycle c o s
  rw [swmStart_bitmap hstarts, startSending_bitmap hreads hn] at hexec
  obtain ⟨-, -, ⟨-, -, -, -, hstall, -⟩, -⟩ := hstarts
  generalize sendUnits d i.val p cycle c (pWgl o.wglInstance.val) 2 (bitmapUnits d (frameNum d p) a c o).units = e at hsent honly hexec
  refine ⟨_, (bitmapUnits d (frameNum d p) a c o).units, e.2, hexec, ?_, fun v hv => bitmapUnits_block d (frameNum d p) a c o hv,
    unitsSent_pushRun hsent _, pushRun_swmRuns i.val _ (by rw [honly]) hstall, ?_⟩
  · simp [bitmapUnits]
  · rw [pushRun, modSwm, honly]

end Sys2Proof.Machine
end
